-- ==== Sys2Proof/Word.lean ====
section
/-! DEFINITION. Words of the 3240: the bytes and half-words its frames and tables are made of (R3, R189). -/

namespace Sys2Proof

/-- One byte of a frame, a request or a table region. -/
abbrev Byte := BitVec 8

/-- A 16-bit quantity: a raw sample, a CRC-16. -/
abbrev Half := BitVec 16

end Sys2Proof
end

