-- ==== Sys2Proof/Syntax.lean ====
section
/-! DEFINITION. The commands of the 3240: one constructor of `Instr` for each row of spec/opcode_table.json, in the
table's order. A command is one indivisible step of the part (95_what_each_step_holds.md). The table gives no row
operands; the operands here are what the step's rule reads from outside: a frame's fields, a station, an entry, a line
level. A request row carries none: its bytes stand in the request buffer (R7, R20; log 5). -/

namespace Sys2Proof

/-- The two chain ports (01, chapter head). -/
inductive Port
  | up
  | down
  deriving DecidableEq, Repr

/-- The three stations (04, chapter head). -/
inductive Station
  | ps
  | ra
  | rb
  deriving DecidableEq, Repr

/-- The two roller stations. -/
inductive Roller
  | ra
  | rb
  deriving DecidableEq, Repr

/-- The two band buffers (R181). -/
inductive BufferName
  | a
  | b
  deriving DecidableEq, Repr

/-- A frame by its fields (R3). The length field and the check follow from the payload: a frame with another length or
check is a bad frame (R4), and reaches the model as raw bytes. -/
structure Frame where
  dest : Byte
  src : Byte
  kind : Byte
  payload : List Byte
  deriving DecidableEq, Repr

/-- The levels of the input lines that RESET_RELEASE samples (R158, R180, R188); `true` is asserted (BAND_ACK: high). -/
structure InputLines where
  estop : Bool
  ready : Bool
  paperOut : Bool
  headHot : Bool
  bandAck : Bool
  deriving DecidableEq, Repr

/-- Input lines all inactive: DESIGN CHOICE, unsafe (log 1): the levels come from outside, and the manual gives none. -/
def InputLines.inactive : InputLines :=
  { estop := false, ready := false, paperOut := false, headHot := false, bandAck := false }

/-- The commands. -/
inductive Instr
  /-- MGMT_FRAME (R7): a good MGMT frame to address 0 taken at the upstream port, with its payload. -/
  | mgmtFrame (payload : List Byte)
  /-- KEEPALIVE (R27): a good KEEPALIVE frame to address 0 taken at the upstream port. -/
  | keepalive
  /-- HOST_PASS_THROUGH (R16): a good host frame to address 1-31. -/
  | hostPassThrough (frame : Frame)
  /-- BAD_FRAME (R4): bytes taken at a port that fail a frame check. -/
  | badFrame (port : Port) (bytes : List Byte)
  /-- BAD_FRAME_WINDOW_END (R5). -/
  | badFrameWindowEnd
  /-- SAMPLE_FRAME (R42): a good SAMPLE frame to address 0 from a head. -/
  | sampleFrame (src : Byte) (channel : Byte) (samples : List Half)
  /-- HEAD_STATUS (R70): a good HEAD_STATUS frame to address 0. -/
  | headStatus (src : Byte) (driveState : Byte) (faultCode : Byte)
  /-- HEAD_FRAME_PASSED_UP (R8): a good head frame that no block consumes. -/
  | headFramePassedUp (frame : Frame)
  /-- BUTTON_CONFIRM (R138): a good BUTTON frame to address 0 with code CONFIRM. -/
  | buttonConfirm (src : Byte)
  /-- BUTTON_REPEAT (R139). -/
  | buttonRepeat (src : Byte)
  /-- BUTTON_SKIP (R140). -/
  | buttonSkip (src : Byte)
  /-- BUTTON_UNKNOWN (R137): a BUTTON frame whose code names no button. -/
  | buttonUnknown (src : Byte) (code : Byte)
  /-- OPERATOR_STOP (R158): a BUTTON frame with code STOP. -/
  | operatorStop (src : Byte)
  /-- UP_FRAME_SENT (R9). -/
  | upFrameSent
  /-- DOWN_FRAME_SENT (R14). -/
  | downFrameSent
  /-- MGMT_UNKNOWN_REQUEST (R20). -/
  | mgmtUnknownRequest
  /-- STATUS (R22). -/
  | status
  /-- LANE_MODE (R24). -/
  | laneMode
  /-- WINDOW (R26). -/
  | window
  /-- TABLE_BEGIN (R31). -/
  | tableBegin
  /-- TABLE_DATA (R32). -/
  | tableData
  /-- TABLE_END (R33). -/
  | tableEnd
  /-- TABLE_ABORT (R34). -/
  | tableAbort
  /-- TABLE_READ (R36). -/
  | tableRead
  /-- RECORD_READ (R37). -/
  | recordRead
  /-- LANE_RESET (R38). -/
  | laneReset
  /-- UP_FLUSH (R13). -/
  | upFlush
  /-- VEHICLE_BEGIN (R115). -/
  | vehicleBegin
  /-- VEHICLE_CLOSE (R116). -/
  | vehicleClose
  /-- VEHICLE_ABORT (R118). -/
  | vehicleAbort
  /-- RECORD_RELEASE (R121). -/
  | recordRelease
  /-- STATION_SPIN (R63): a STATION request with code SPIN. -/
  | stationSpin
  /-- STATION_CAPTURE (R79): a STATION request with code CAPTURE. -/
  | stationCapture
  /-- STATION_RELEASE (R67): a STATION request with code RELEASE. -/
  | stationRelease
  /-- STATION_TARE (R95): a STATION request with code TARE. -/
  | stationTare
  /-- CLEAR_FAULT (R159). -/
  | clearFault
  /-- RESUME (R160). -/
  | resume
  /-- CLEAR_LOCKOUT (R161). -/
  | clearLockout
  /-- PROMPT_POST (R169). -/
  | promptPost
  /-- PROMPT_CLEAR (R169). -/
  | promptClear
  /-- PRINT (R180). -/
  | print
  /-- PRINT_CANCEL (R187). -/
  | printCancel
  /-- SEQUENCER_TAKE_UNIT (R128). -/
  | sequencerTakeUnit
  /-- AUTO_TARE (R102) of a station. -/
  | autoTare (station : Station)
  /-- KEEPALIVE_UPPER_EXPIRY (R28). -/
  | keepaliveUpperExpiry
  /-- SILENCE_LIMIT (R49) of a channel map entry. -/
  | silenceLimit (entry : Nat)
  /-- SETTLE_EXPIRY (R59). -/
  | settleExpiry (roller : Roller)
  /-- SPIN_TIMEOUT (R63). -/
  | spinTimeout (roller : Roller)
  /-- READY_LAPSED (R65). -/
  | readyLapsed (roller : Roller)
  /-- RELEASE_TIMEOUT (R67). -/
  | releaseTimeout (roller : Roller)
  /-- CAPTURE_TIMEOUT (R83). -/
  | captureTimeout (roller : Roller)
  /-- TARE_AGE_TICK (R100) of a station. -/
  | tareAgeTick (station : Station)
  /-- AWAIT_TIMEOUT (R130). -/
  | awaitTimeout
  /-- PROMPT_HOLD_EXPIRY (R168). -/
  | promptHoldExpiry
  /-- REFRESH_EXPIRY (R171). -/
  | refreshExpiry
  /-- PRINT_JOB_START (R181). -/
  | printJobStart
  /-- BAND_COMPOSED (R181) in a buffer. -/
  | bandComposed (buffer : BufferName)
  /-- BAND_OFFER (R182). -/
  | bandOffer
  /-- BAND_ACK_RISE (R182), with the level of READY as seen with the edge (log 11). -/
  | bandAckRise (ready : Bool)
  /-- BAND_ACK_FALL (R182), with the level of READY as seen with the edge (log 11). -/
  | bandAckFall (ready : Bool)
  /-- ACK_TIMEOUT (R182). -/
  | ackTimeout
  /-- PAPER_OUT_ASSERTED (R184), with the level of READY as seen with the edge (log 11). -/
  | paperOutAsserted (ready : Bool)
  /-- HEAD_HOT_ASSERTED (R184), with the level of READY as seen with the edge (log 11). -/
  | headHotAsserted (ready : Bool)
  /-- PRINTER_READY (R186): READY asserted, PAPER_OUT and HEAD_HOT not asserted. -/
  | printerReady
  /-- ESTOP_ASSERTED (R158). -/
  | estopAsserted
  /-- ESTOP_RELEASED (R158). -/
  | estopReleased
  /-- RESET_ASSERT (R17). -/
  | resetAssert
  /-- RESET_RELEASE (R17), with the input lines as sampled at the release (R158, R188). -/
  | resetRelease (lines : InputLines)
  deriving DecidableEq, Repr

end Sys2Proof
end

