-- ==== Sys2Proof/Config.lean ====
section
/-! DEFINITION. What is fixed for the machine, and the free values: constants without a body, one for each choice the
manual leaves open, so that nothing can be proved of the choice itself. -/

namespace Sys2Proof.Config

/-! ## Free values -/

/-- FREE VALUE (R45, R94; log 7): at the n-th open choice, whether the fault action unit takes the raise of a window
monitor before the station takes the delivered value. -/
opaque raiseBeforeDelivery : Nat → Bool

/-- FREE VALUE (R52; log 8): at the n-th open choice, how many of the EVENT FAULT frames that a SAMPLE frame has sent last enter
the up queue after the frame's mirror. -/
opaque eventsAfterMirror : Nat → Nat

/-- FREE VALUE ("Events and order" of 00_scope.md; log 3): at the n-th open choice, which of the due events the
controller takes first. -/
opaque dueChoice : Nat → Nat

/-- FREE VALUE (R192; log 15): what a 16-bit signed field carries for a value that does not fit it. -/
opaque unfit16 : Int → BitVec 16

/-! ## Fixed limits, in ms where they are times -/

/-- The bad-frame window (R5). -/
def badFrameWindow : Nat := 1000
/-- The spin limit (R57, R63). -/
def spinLimit : Nat := 8000
/-- The release limit (R57, R67). -/
def releaseLimit : Nat := 10000
/-- The ready limit (R57, R65). -/
def readyLimit : Nat := 60000
/-- The capture limit (R83). -/
def captureLimit : Nat := 30000
/-- One second of tare age (R100). -/
def tareSecond : Nat := 1000
/-- The refresh period of the board (R171). -/
def refreshPeriod : Nat := 100
/-- The handshake limit of the print line (R182). -/
def handshakeLimit : Nat := 5000
/-- Capacity of the up queue (R9). -/
def upCapacity : Nat := 32
/-- Level below which a station's DRIVE frame enters the down queue (R15). -/
def driveLevel : Nat := 16
/-- Level below which a BOARD frame enters the down queue (R15). -/
def boardLevel : Nat := 13
/-- Level below which a host frame enters the down queue (R15). -/
def hostLevel : Nat := 10
/-- Values a tared channel takes (R95). -/
def tareCount : Nat := 64
/-- Values a load history keeps for each side (R58). -/
def loadHistory : Nat := 32
/-- Force values of a side that take no part in the spread (R80). -/
def settlingValues : Nat := 16
/-- Capacity of a gap queue (R105). -/
def gapCapacity : Nat := 4
/-- Capacity of the prompt queue (R166). -/
def promptCapacity : Nat := 8
/-- Restarts of a print job (R185). -/
def restartLimit : Nat := 3

end Sys2Proof.Config
end

