-- ==== Sys2Proof/Machine/Types.lean ====
section
/-! DEFINITION. The types of the pieces of state: names of modes and states, table views, records, captures, queue
entries. Plain data throughout. -/

namespace Sys2Proof.Machine

/-! ## Names -/

/-- R24. -/
inductive LaneMode
  | auto
  | manual
  | service
  deriving DecidableEq, Repr

/-- The sequencer states (R127). -/
inductive SeqState
  | standby
  | running
  | waiting
  | held
  | halted
  | paused
  | locked
  deriving DecidableEq, Repr

/-- The station states (R61, R73), in the order of their codes (R189). -/
inductive StationState
  | idle
  | settling
  | seated
  | spinning
  | ready
  | measuring
  | releasing
  | taring
  | faulted
  | offline
  | crossing
  deriving DecidableEq, Repr

/-- The nine regions (section 2.5), in the order of their codes (R189). -/
inductive RegionName
  | lane
  | channels
  | segments
  | plans
  | limits
  | faults
  | prompts
  | form
  | glyphs
  deriving DecidableEq, Repr

/-- R29. -/
inductive RegionState
  | invalid
  | loading
  | valid
  deriving DecidableEq, Repr

/-- R114. -/
inductive SlotState
  | free
  | opened
  | closed
  | issued
  | aborted
  deriving DecidableEq, Repr

/-- The keepalive monitor's states (R27). -/
inductive KeepState
  | disabled
  | first
  | timing
  | lapsed
  deriving DecidableEq, Repr

/-- The roles of channel entries (R40), in the order of their codes (R194). -/
inductive Role
  | forceL
  | forceR
  | loadL
  | loadR
  | drumL
  | drumR
  | wheelL
  | wheelR
  | pedal
  | plateDisp
  | plateEntry
  | plateExit
  | pitGuard
  | aux
  deriving DecidableEq, Repr

/-- Left or right side of a roller station. -/
inductive Side
  | left
  | right
  deriving DecidableEq, Repr

/-- R46. -/
inductive Applicability
  | always
  | active
  | never
  deriving DecidableEq, Repr

/-- R52. -/
inductive MirrorMode
  | none
  | raw
  | scaled
  deriving DecidableEq, Repr

/-- The five actions (R152), weakest first. -/
inductive Action
  | ignore
  | note
  | hold
  | stop
  | lock
  deriving DecidableEq, Repr

/-- The fourteen fault sources (R152), in the table's order. -/
inductive Source
  | channelWindow
  | headSilent
  | driveFault
  | driveTimeout
  | axleLost
  | mistrack
  | tareRange
  | tareStale
  | linkWindow
  | linkNoise
  | pitGuard
  | operatorStop
  | printer
  | estop
  deriving DecidableEq, Repr

/-- The scope of a fault (R154). -/
inductive Scope
  | station (st : Station)
  | lane
  deriving DecidableEq, Repr

/-- R77. -/
inductive TestKind
  | service
  | parking
  | ovality
  deriving DecidableEq, Repr

/-- The parts a capture can write (R77), in the order of their codes (log 14). -/
inductive BrakePart
  | service
  | parking
  | ovality
  | aux
  deriving DecidableEq, Repr

/-- The end reasons (section 5.3), in the order of their codes (R190). -/
inductive EndReason
  | count
  | pedal
  | ceiling
  | operator
  | lockup
  | timeout
  | fault
  | skip
  | axleLost
  | released
  | closed
  | reset
  deriving DecidableEq, Repr

/-- R112. -/
inductive AxleKind
  | steer
  | drive
  | tag
  | trailer
  deriving DecidableEq, Repr

/-- R112. -/
inductive AxleState
  | inGap
  | onStation
  | done
  deriving DecidableEq, Repr

/-- The verdicts of section 9.3 with ABSENT, in the order of their codes (R189). -/
inductive Verdict
  | absent
  | pass
  | advisory
  | unverified
  | incomplete
  | fail
  deriving DecidableEq, Repr

/-- The result of judging one measure (R146). -/
inductive FieldResult
  | pass
  | advisory
  | fail
  deriving DecidableEq, Repr

/-- A comparison mode of a limit row (R143). -/
inductive Comparison
  | unused
  | failAbove
  | failBelow
  deriving DecidableEq, Repr

/-- What a limit row applies to (R143). -/
inductive AppliesTo
  | kind (k : AxleKind)
  | any
  | vehicle
  deriving DecidableEq, Repr

/-- R164. -/
inductive PromptClass
  | safety
  | action
  | info
  deriving DecidableEq, Repr

/-- R164. -/
inductive SlotKind
  | axle
  | forceL
  | forceR
  | sideSlip
  | ident
  | verdict
  | repeats
  deriving DecidableEq, Repr

/-- The origin of a prompt (R166). -/
inductive PromptOrigin
  | step
  | fault
  | host
  deriving DecidableEq, Repr

/-- The composer's states (R181). -/
inductive ComposerState
  | idle
  | composing
  | draining
  | paused
  deriving DecidableEq, Repr

/-- A band buffer's states (R181). -/
inductive BufferState
  | free
  | composing
  | full
  | offered
  deriving DecidableEq, Repr

/-- The print line's states (R182). -/
inductive LineState
  | idle
  | offered
  | taken
  deriving DecidableEq, Repr

/-- The status codes (R21), in the order of their codes (R190). -/
inductive Status
  | ok
  | busy
  | state
  | arg
  | full
  | notFound
  | locked
  | invalidTable
  | check
  | order
  deriving DecidableEq, Repr

/-- The answers of a station to a request (R61). -/
inductive Answer
  | accepted
  | noChange
  | busy
  | state
  | locked
  | arg
  deriving DecidableEq, Repr

/-- Direction of a plate crossing (R74). -/
inductive Direction
  | forward
  | reverse
  deriving DecidableEq, Repr

/-- The outcome of a tare, as reported to the sequencer (R96, R97, R98). -/
inductive TareOutcome
  | done
  | range
  | aborted
  deriving DecidableEq, Repr

/-! ## Four like things -/

/-- Four values numbered 0 to 3: the record slots, the record read cursors, the board lines. -/
structure Four (α : Type) where
  s0 : α
  s1 : α
  s2 : α
  s3 : α
  deriving DecidableEq, Repr

/-! ## Table store -/

/-- A table region (R29). -/
structure Region where
  state : RegionState
  content : List Byte
  deriving DecidableEq, Repr

/-- The load context (section 2.6). -/
structure LoadContext where
  region : RegionName
  total : Nat
  expected : Nat
  deriving DecidableEq, Repr

/-- The table store (section 2.5). -/
structure Tables where
  lane : Region
  channels : Region
  segments : Region
  plans : Region
  limits : Region
  faults : Region
  prompts : Region
  form : Region
  glyphs : Region
  load : Option LoadContext
  deriving DecidableEq, Repr

/-! ## Chain interface and management unit -/

/-- A frame in the up queue with its class (section 1.4). -/
structure UpFrame where
  mirror : Bool
  frame : Frame
  deriving DecidableEq, Repr

/-- The source of a frame in the down queue (R15). -/
inductive DownSource
  | drive
  | board
  | host
  deriving DecidableEq, Repr

/-- A frame in the down queue (section 1.5). -/
structure DownFrame where
  source : DownSource
  frame : Frame
  deriving DecidableEq, Repr

/-- The chain interface's state. The head of each queue is the started frame (log 6). -/
structure Chain where
  up : List UpFrame
  down : List DownFrame
  badUp : Nat
  badDown : Nat
  windowTimer : Nat
  noise : Bool
  deriving DecidableEq, Repr

/-- The sticky indicators (R23). -/
structure Indicators where
  eventOverrun : Bool
  badFrameUp : Bool
  badFrameDown : Bool
  composerFree : Bool
  deriving DecidableEq, Repr

/-- The management unit's state. -/
structure Mgmt where
  request : Option (List Byte)
  reply : Option Frame
  keepState : KeepState
  lower : Nat
  upper : Nat
  keepTimer : Option Nat
  tableCursor : Option (RegionName × Nat)
  recordCursor : Four (Option Nat)
  sticky : Indicators
  deriving DecidableEq, Repr

/-! ## Sample steering -/

/-- What the steering unit keeps for one channel map entry (chapter 3). -/
structure ChannelState where
  latest : Option Int
  silence : Option Nat
  silent : Bool
  silenceRaised : Bool
  outside : Bool
  windowRaised : Bool
  decimation : Nat
  deriving DecidableEq, Repr

/-- The steering unit's state: one `ChannelState` for each entry while CHANNELS and SEGMENTS are VALID, none otherwise. -/
structure Steering where
  channels : List ChannelState
  guardOpen : Bool
  guardRaised : Bool
  deriving DecidableEq, Repr

/-! ## Tare -/

/-- The offsets of the tared roles (chapter 6). A station uses those of its own roles; the others stay 0. -/
structure Offsets where
  forceL : Int
  forceR : Int
  loadL : Int
  loadR : Int
  plateDisp : Int
  deriving DecidableEq, Repr

/-- One tared channel of a tare context (R95). -/
structure TareChannel where
  entry : Nat
  role : Role
  count : Nat
  sum : Int
  deriving DecidableEq, Repr

/-- A tare context (R95); `service` marks a service tare (R56). -/
structure TareContext where
  service : Bool
  channels : List TareChannel
  deriving DecidableEq, Repr

/-- A station's tare (chapter 6). -/
structure Tare where
  offsets : Offsets
  age : Option Nat
  ageMs : Nat
  stale : Bool
  bar : Bool
  context : Option TareContext
  deriving DecidableEq, Repr

/-! ## Captures -/

/-- The settings a CAPTURE request carries (R77, R78); `length := none` is OPEN. -/
structure CaptureSettings where
  testKind : TestKind
  part : BrakePart
  length : Option Nat
  pedalTarget : Option Nat
  ceiling : Option Nat
  operator : Bool
  autoRelease : Bool
  joint : Bool
  limitRow : Option Nat
  deriving DecidableEq, Repr

/-- The requested marks (R77). -/
structure Marks where
  repeated : Bool
  manual : Bool
  deriving DecidableEq, Repr

/-- The reductions of one side (R79, R80, R82). -/
structure SideReduction where
  peak : Nat
  pedalAtPeak : Option Nat
  count : Nat
  minimum : Option Nat
  maximum : Option Nat
  lockupRun : Nat
  lockup : Bool
  deriving DecidableEq, Repr

/-- A capture context (R77). `left` and `right` are the sides of the station that holds it; `rbLeft` and `rbRight` are
RB's sides in a joint capture (R91). -/
structure Capture where
  settings : CaptureSettings
  marks : Marks
  startOrder : Nat
  timer : Nat
  pedal : Option Nat
  left : SideReduction
  right : SideReduction
  rbLeft : SideReduction
  rbRight : SideReduction
  endReason : Option EndReason
  deriving DecidableEq, Repr

/-! ## Stations -/

/-- A crossing context (R74). -/
structure Crossing where
  direction : Direction
  peak : Option Int
  stale : Option Bool
  deriving DecidableEq, Repr

/-- The plate station. -/
structure PlateStation where
  state : StationState
  crossing : Option Crossing
  lastSlip : Option Int
  contactIn : Bool
  contactOut : Bool
  tare : Tare
  deriving DecidableEq, Repr

/-- A roller station (chapter 4). A timer is `none` while stopped, else the ms since it started. -/
structure RollerStation where
  state : StationState
  seated : Bool
  settleTimer : Option Nat
  spinTimer : Option Nat
  readyTimer : Option Nat
  releaseTimer : Option Nat
  readyL : Nat
  readyR : Nat
  histL : List Int
  histR : List Int
  driveFault : Bool
  heldDrive : Option Frame
  tare : Tare
  capture : Option Capture
  deriving DecidableEq, Repr

/-- The axle tracker (R105, R106). -/
structure Tracker where
  g1 : List Nat
  g2 : List Nat
  boundRA : Option Nat
  boundRB : Option Nat
  deriving DecidableEq, Repr

/-! ## Records -/

/-- The flags of a part (R113). -/
structure PartFlags where
  stale : Bool
  joint : Bool
  repeated : Bool
  interrupted : Bool
  timedOut : Bool
  skipped : Bool
  manual : Bool
  deriving DecidableEq, Repr

/-- One part of an axle record (R113): its values where it holds any, its flags, repeat count and verdict. -/
structure Part (α : Type) where
  values : Option α
  flags : PartFlags
  repeats : Nat
  verdict : Verdict
  deriving DecidableEq, Repr

/-- PLATE values (R113). -/
structure PlateValues where
  peak : Int
  slip : Int
  deriving DecidableEq, Repr

/-- LOAD values (R64). -/
structure LoadValues where
  left : Nat
  right : Nat
  axle : Nat
  deriving DecidableEq, Repr

/-- A brake result (R85). -/
structure BrakeResult where
  testKind : TestKind
  endReason : EndReason
  forceCount : Nat
  peakL : Nat
  peakR : Nat
  pedalL : Option Nat
  pedalR : Option Nat
  ovalityL : Option Nat
  ovalityR : Option Nat
  lockupL : Bool
  lockupR : Bool
  deriving DecidableEq, Repr

/-- An axle record (R112). -/
structure AxleRecord where
  index : Nat
  kind : AxleKind
  state : AxleState
  plate : Part PlateValues
  load : Part LoadValues
  service : Part BrakeResult
  parking : Part BrakeResult
  ovality : Part BrakeResult
  aux : Part BrakeResult
  verdict : Verdict
  deriving DecidableEq, Repr

/-- A vehicle record (R114). `verdict` is `absent` and `checkCode` is `none` until the close. -/
structure VehicleRecord where
  cls : Nat
  plan : Option Nat
  expected : Nat
  kinds : List AxleKind
  ident : Option (List Byte)
  date : Option (List Byte)
  operator : Option (List Byte)
  forced : Bool
  rollerOnly : Bool
  axles : List AxleRecord
  totalLoad : Option Nat
  serviceEff : Option Nat
  parkingEff : Option Nat
  verdict : Verdict
  checkCode : Option Half
  printCount : Nat
  deriving DecidableEq, Repr

/-- A record slot (R114). -/
structure RecordSlot where
  state : SlotState
  record : Option VehicleRecord
  deriving DecidableEq, Repr

/-- The record store: the four slots, and the pending RESULT frames with their slots (R120). -/
structure Records where
  slots : Four RecordSlot
  pendingResults : List (Fin 4 × Frame)
  deriving DecidableEq, Repr

/-! ## Sequencer -/

/-- The effective settings that the modifiers of a unit give its step (R125). -/
structure Modifiers where
  station : Option Station
  limitRow : Option Nat
  part : Option BrakePart
  deriving DecidableEq, Repr

/-- The conditions of an AWAIT (R124). -/
inductive AwaitCondition
  | confirm
  | stationReady
  | stationSeated
  | axleExit
  | delay
  deriving DecidableEq, Repr

/-- What a WAITING sequencer waits on (R128, R129, R130). -/
inductive SeqWait
  | busy (st : Station)
  | spin (st : Station)
  | capture (r : Roller)
  | release (st : Station)
  | tare (st : Station)
  | seat (st : Station)
  | await (cond : AwaitCondition) (st : Station) (timeout : Nat) (halt : Bool)
  deriving DecidableEq, Repr

/-- A pending restart (R136): the unit start, the station of the capture it restarts, and whether that capture is joint. -/
structure Restart where
  unit : Nat
  roller : Roller
  joint : Bool
  deriving DecidableEq, Repr

/-- A capture the plan started that is still in progress (R127): its CAPTURE step and its restart point. -/
structure PlanCapture where
  step : Nat
  restart : Nat
  deriving DecidableEq, Repr

/-- The plan's most recent capture that ended normally (R127). -/
structure LastCapture where
  step : Nat
  roller : Roller
  restart : Nat
  axle : Nat
  part : BrakePart
  deriving DecidableEq, Repr

/-- The sequencer's items (R127), but the lane mode, which stands in `Live`. -/
structure Seq where
  state : SeqState
  pointer : Nat
  mods : Option Modifiers
  wait : Option SeqWait
  held : Option Station
  restart : Option Restart
  pausePending : Bool
  armedSkip : Option Nat
  pendingRepeat : Bool
  repeatMark : Option Nat
  planRA : Option PlanCapture
  planRB : Option PlanCapture
  last : Option LastCapture
  stepEndPrompt : Option Nat
  awaitTimer : Option Nat
  deriving DecidableEq, Repr

/-! ## Faults and guidance -/

/-- An entry of the active fault list (R155). Its nature follows from its source (R152). -/
structure FaultEntry where
  source : Source
  scope : Scope
  action : Action
  present : Bool
  prompt : Option Nat
  deriving DecidableEq, Repr

/-- The values of the seven slot kinds (R164), absent where `none`. -/
structure SlotValues where
  axle : Option Nat
  forceL : Option Int
  forceR : Option Int
  sideSlip : Option Int
  ident : Option (List Byte)
  verdict : Option Verdict
  repeats : Option Nat
  deriving DecidableEq, Repr

/-- An entry of the prompt queue (R166). A link is the source and scope of a fault entry. -/
structure PromptEntry where
  number : Nat
  cls : PromptClass
  hold : Nat
  stepEnd : Bool
  links : List (Source × Scope)
  arrival : Nat
  fixed : SlotValues
  deriving DecidableEq, Repr

/-- One line of the board image (R171). -/
structure BoardLine where
  text : List Byte
  dirty : Bool
  deriving DecidableEq, Repr

/-- The last judgement (R165). -/
structure Judgement where
  verdict : Verdict
  repeats : Nat
  deriving DecidableEq, Repr

/-- The guidance unit's state. -/
structure Guide where
  queue : List PromptEntry
  nextArrival : Nat
  holdTimer : Option Nat
  board : Four BoardLine
  refreshTimer : Option Nat
  resend : Nat
  focus : Option Roller
  barsShown : Bool
  last : Option Judgement
  deriving DecidableEq, Repr

/-! ## Composer and print line -/

/-- An entry of the print queue (R179). -/
structure PrintEntry where
  slot : Fin 4
  restarts : Nat
  deriving DecidableEq, Repr

/-- A print job (R181): the slot, the axle count and page bands taken at its start, whether the slot was ISSUED
(COPY_ONLY), the vehicle verdict and the copy number then, whether a VOID band leads, and the list positions of the next
band to compose and the next band to send. -/
structure Job where
  slot : Fin 4
  axleCount : Nat
  pageBands : Nat
  copy : Bool
  verdict : Verdict
  copyNumber : Nat
  void : Bool
  nextCompose : Nat
  nextSend : Nat
  deriving DecidableEq, Repr

/-- A band buffer (R181): its state, the list position of its band, and the band's bytes. -/
structure BandBuffer where
  state : BufferState
  band : Nat
  content : List Byte
  deriving DecidableEq, Repr

/-- The composer and print line. `strobed` is the band last sent out on PD0-PD7. -/
structure Printer where
  queue : List PrintEntry
  composer : ComposerState
  job : Option Job
  bufA : BandBuffer
  bufB : BandBuffer
  line : LineState
  timer : Option Nat
  bandReq : Bool
  strobed : List Byte
  voidDue : Bool
  fault : Bool
  deriving DecidableEq, Repr

/-- Everything of the controller but the table store: what its blocks change while the tables stay as they are. -/
structure Live where
  resetAsserted : Bool
  lines : InputLines
  mode : LaneMode
  chain : Chain
  mgmt : Mgmt
  steer : Steering
  ps : PlateStation
  ra : RollerStation
  rb : RollerStation
  nextStart : Nat
  tracker : Tracker
  records : Records
  seq : Seq
  faults : List FaultEntry
  guide : Guide
  printer : Printer
  /-- The model's own count of the open choices made (log 3, 7, 8). -/
  choices : Nat
  deriving DecidableEq, Repr

end Sys2Proof.Machine
end

