-- ==== Sys2Proof/Machine/Bytes.lean ====
section
/-! DEFINITION. Byte order, the CRC-16, the frame format and its checks (R3, R4, R189, R190). -/

namespace Sys2Proof.Machine

/-! ## Numbers as bytes (R189: most significant byte first, two's complement) -/

/-- The low byte of a number. -/
def byte (n : Nat) : Byte := BitVec.ofNat 8 n

/-- A 16-bit number as two bytes. -/
def be16 (n : Nat) : List Byte := [byte (n / 256), byte n]

/-- A 24-bit number as three bytes. -/
def be24 (n : Nat) : List Byte := [byte (n / 65536), byte (n / 256), byte n]

/-- A 32-bit number as four bytes. -/
def be32 (n : Nat) : List Byte := [byte (n / 16777216), byte (n / 65536), byte (n / 256), byte n]

/-- A signed 16-bit field. A value that does not fit the field is a free value (log 15). -/
def beSigned16 (i : Int) : List Byte :=
  if -32768 ≤ i ∧ i ≤ 32767 then be16 (i % 65536).toNat else be16 (Config.unfit16 i).toNat

/-- A signed 32-bit field. -/
def beSigned32 (i : Int) : List Byte := be32 (i % 4294967296).toNat

/-- An optional 16-bit field, 0xFFFF when absent. -/
def be16OrFFFF (n : Option Nat) : List Byte := be16 (n.getD 0xFFFF)

/-- Byte `i` of a byte string as a number, 0 beyond its end. -/
def rd (l : List Byte) (i : Nat) : Nat := (l.getD i 0).toNat

/-- The 16-bit number at `i`. -/
def rd16 (l : List Byte) (i : Nat) : Nat := rd l i * 256 + rd l (i + 1)

/-- A 16-bit pattern as a signed number. -/
def signed16 (n : Nat) : Int := if n < 32768 then n else (n : Int) - 65536

/-- The signed 16-bit number at `i`. -/
def rdSigned16 (l : List Byte) (i : Nat) : Int := signed16 (rd16 l i)

/-- The signed 32-bit number at `i`. -/
def rdSigned32 (l : List Byte) (i : Nat) : Int :=
  let n := rd16 l i * 65536 + rd16 l (i + 2)
  if n < 2147483648 then n else (n : Int) - 4294967296

/-- Bit `k` of byte `i`. -/
def rdBit (l : List Byte) (i k : Nat) : Bool := (rd l i / 2 ^ k) % 2 == 1

/-- A set of named flags as one byte, the first named being bit 0 (R189). -/
def flagByte : List Bool → Nat
  | [] => 0
  | b :: bs => (if b then 1 else 0) + 2 * flagByte bs

/-! ## CRC-16 (R189) -/

/-- Shift a CRC register by `n` bits. -/
def crcShift : Nat → Half → Half
  | 0, c => c
  | n + 1, c => crcShift n (if c.msb then (c <<< 1) ^^^ 0x1021 else c <<< 1)

/-- Take one byte, most significant bit first. -/
def crcByte (c : Half) (b : Byte) : Half := crcShift 8 (c ^^^ (b.zeroExtend 16 <<< 8))

/-- The CRC-16 of a byte string: polynomial 0x1021, initial value 0xFFFF, no reflection, no final inversion. -/
def crc16 (l : List Byte) : Half := l.foldl crcByte 0xFFFF

/-! ## Frames (R3, R189) -/

/-- SAMPLE. -/
def kindSample : Byte := 0
/-- HEAD_STATUS. -/
def kindHeadStatus : Byte := 1
/-- BUTTON. -/
def kindButton : Byte := 2
/-- DRIVE. -/
def kindDrive : Byte := 3
/-- BOARD. -/
def kindBoard : Byte := 4
/-- HEAD_SETUP. -/
def kindHeadSetup : Byte := 5
/-- MGMT. -/
def kindMgmt : Byte := 6
/-- KEEPALIVE. -/
def kindKeepalive : Byte := 7
/-- REPLY. -/
def kindReply : Byte := 8
/-- RESULT. -/
def kindResult : Byte := 9
/-- EVENT. -/
def kindEvent : Byte := 10
/-- MIRROR. -/
def kindMirror : Byte := 11

/-- The bytes of a frame under its check. -/
def frameBody (f : Frame) : List Byte := f.dest :: f.src :: f.kind :: byte f.payload.length :: f.payload

/-- The bytes of a frame on the chain, its check last, high byte first. -/
def frameBytes (f : Frame) : List Byte := frameBody f ++ be16 (crc16 (frameBody f)).toNat

/-- The payload length that R4 requires of a frame addressed to 0 whose kind the controller consumes from that port
(R190): `none` where the port does not consume the kind. -/
def lengthFits (port : Port) (kind : Byte) (payload : List Byte) : Option Bool :=
  match port with
  | .up =>
    if kind = kindMgmt then some (decide (1 ≤ payload.length ∧ payload.length ≤ 48))
    else if kind = kindKeepalive then some (payload.length == 0)
    else none
  | .down =>
    if kind = kindSample then
      some (decide (1 ≤ rd payload 1 ∧ rd payload 1 ≤ 8) && payload.length == 2 + 2 * rd payload 1)
    else if kind = kindHeadStatus then some (payload.length == 2)
    else if kind = kindButton then some (payload.length == 1)
    else none

/-- The checks of R4 that read a frame's fields alone: a downstream frame to 31, an upstream frame to 0 that is neither
MGMT nor KEEPALIVE, a consumed kind of the wrong length, a SAMPLE with a wrong count. -/
def fieldsBad (port : Port) (dest kind : Byte) (payload : List Byte) : Bool :=
  (port == .down && dest == 31)
    || (port == .up && dest == 0 && kind != kindMgmt && kind != kindKeepalive)
    || (dest == 0 && lengthFits port kind payload == some false)

/-- The check of R4 on bytes as received: length field above 48, a number of bytes that differs from what it calls for,
a check that does not match, or fields that are bad. -/
def bytesBad (port : Port) (b : List Byte) : Bool :=
  decide (b.length < 6) || decide (rd b 3 > 48) || b.length != rd b 3 + 6
    || crc16 (b.take (b.length - 2)) != BitVec.ofNat 16 (rd16 b (b.length - 2))
    || fieldsBad port (b.getD 0 0) (b.getD 2 0) ((b.drop 4).take (rd b 3))

/-- A frame given by its fields is bad at a port when its payload is over 48 bytes or its fields are. -/
def frameBad (port : Port) (f : Frame) : Bool :=
  decide (f.payload.length > 48) || fieldsBad port f.dest f.kind f.payload

/-! ## Codes (R189, R190, R191) -/

/-- Station codes: PS 0, RA 1, RB 2, none 3. -/
def stationCode : Option Station → Nat
  | some .ps => 0
  | some .ra => 1
  | some .rb => 2
  | none => 3

/-- Scope codes: the station's, or 3 for the lane. -/
def scopeCode : Scope → Nat
  | .station st => stationCode (some st)
  | .lane => 3

/-- Station state codes. -/
def stationStateCode : StationState → Nat
  | .idle => 0 | .settling => 1 | .seated => 2 | .spinning => 3 | .ready => 4 | .measuring => 5
  | .releasing => 6 | .taring => 7 | .faulted => 8 | .offline => 9 | .crossing => 10

/-- Region codes. -/
def regionCode : RegionName → Nat
  | .lane => 0 | .channels => 1 | .segments => 2 | .plans => 3 | .limits => 4 | .faults => 5
  | .prompts => 6 | .form => 7 | .glyphs => 8

/-- Region codes read back. -/
def regionOfCode : Nat → Option RegionName
  | 0 => some .lane | 1 => some .channels | 2 => some .segments | 3 => some .plans | 4 => some .limits
  | 5 => some .faults | 6 => some .prompts | 7 => some .form | 8 => some .glyphs | _ => none

/-- Region state codes, in the order of R29. -/
def regionStateCode : RegionState → Nat
  | .invalid => 0 | .loading => 1 | .valid => 2

/-- Slot state codes, in the order of R22. -/
def slotStateCode : SlotState → Nat
  | .free => 0 | .opened => 1 | .closed => 2 | .issued => 3 | .aborted => 4

/-- Lane mode codes. -/
def modeCode : LaneMode → Nat
  | .auto => 0 | .manual => 1 | .service => 2

/-- Sequencer state codes, in the order of R22. -/
def seqStateCode : SeqState → Nat
  | .standby => 0 | .running => 1 | .waiting => 2 | .held => 3 | .halted => 4 | .paused => 5 | .locked => 6

/-- Action codes: IGNORE 0 to LOCK 4. -/
def actionCode : Action → Nat
  | .ignore => 0 | .note => 1 | .hold => 2 | .stop => 3 | .lock => 4

/-- Action codes read back. -/
def actionOfCode : Nat → Option Action
  | 0 => some .ignore | 1 => some .note | 2 => some .hold | 3 => some .stop | 4 => some .lock | _ => none

/-- Fault source codes, in the order of R152's table. -/
def sourceCode : Source → Nat
  | .channelWindow => 0 | .headSilent => 1 | .driveFault => 2 | .driveTimeout => 3 | .axleLost => 4
  | .mistrack => 5 | .tareRange => 6 | .tareStale => 7 | .linkWindow => 8 | .linkNoise => 9
  | .pitGuard => 10 | .operatorStop => 11 | .printer => 12 | .estop => 13

/-- Verdict codes. -/
def verdictCode : Verdict → Nat
  | .absent => 0 | .pass => 1 | .advisory => 2 | .unverified => 3 | .incomplete => 4 | .fail => 5

/-- Test kind codes. -/
def testKindCode : TestKind → Nat
  | .service => 0 | .parking => 1 | .ovality => 2

/-- End reason codes, in the order of section 5.3. -/
def endReasonCode : EndReason → Nat
  | .count => 0 | .pedal => 1 | .ceiling => 2 | .operator => 3 | .lockup => 4 | .timeout => 5
  | .fault => 6 | .skip => 7 | .axleLost => 8 | .released => 9 | .closed => 10 | .reset => 11

/-- Axle kind codes. -/
def axleKindCode : AxleKind → Nat
  | .steer => 0 | .drive => 1 | .tag => 2 | .trailer => 3

/-- Axle kind codes read back. -/
def axleKindOfCode : Nat → Option AxleKind
  | 0 => some .steer | 1 => some .drive | 2 => some .tag | 3 => some .trailer | _ => none

/-- Axle state codes (R192). -/
def axleStateCode : AxleState → Nat
  | .inGap => 0 | .onStation => 1 | .done => 2

/-- Status codes (R190). -/
def statusCode : Status → Nat
  | .ok => 0 | .busy => 1 | .state => 2 | .arg => 3 | .full => 4 | .notFound => 5 | .locked => 6
  | .invalidTable => 7 | .check => 8 | .order => 9

/-- The event codes (R190). -/
inductive EventCode
  | fault
  | downFull
  | filtered
  | loadAbandoned
  | readyLapsed
  | captureEnd
  | tareDone
  | tareAborted
  | strayAxle
  | axleWithdrawn
  | stepHalted
  | awaitTimeout
  | buttonIgnored
  | promptDropped
  | printDone
  | printFailed
  deriving DecidableEq, Repr

/-- The event codes as numbers. -/
def eventNumber : EventCode → Nat
  | .fault => 0 | .downFull => 1 | .filtered => 2 | .loadAbandoned => 3 | .readyLapsed => 4 | .captureEnd => 5
  | .tareDone => 6 | .tareAborted => 7 | .strayAxle => 8 | .axleWithdrawn => 9 | .stepHalted => 10
  | .awaitTimeout => 11 | .buttonIgnored => 12 | .promptDropped => 13 | .printDone => 14 | .printFailed => 15

/-- A frame the controller originates upstream: source 0, destination 0 (R3). -/
def upstreamFrame (kind : Byte) (payload : List Byte) : Frame := { dest := 0, src := 0, kind := kind, payload := payload }

/-- An EVENT frame with its four value bytes (R190). -/
def eventFrame (code : EventCode) (st : Option Station) (axle : Nat) (value : List Byte) : Frame :=
  upstreamFrame kindEvent (byte (eventNumber code) :: byte (stationCode st) :: byte axle :: value)

/-- A REPLY frame (R190). -/
def replyFrame (code : Byte) (status : Status) (data : List Byte) : Frame :=
  upstreamFrame kindReply (code :: byte (statusCode status) :: data)

end Sys2Proof.Machine
end

