-- ==== Sys2Proof/Machine/State.lean ====
section
/-! DEFINITION. The state of the machine, the reasons it could stop, and the state right after the release of RESET. -/

namespace Sys2Proof.Machine

/-- The state of the 3240: the table store, everything else the blocks own, and the commands that wait, first in first
out. -/
structure State where
  tables : Tables
  live : Live
  pending : List Instr
  deriving DecidableEq, Repr

/-- Faults of the machine. It has none: every command on every state answers a next state, for the manual gives every
event an outcome; a lane fault (R152) is an entry in the state, not a stop. -/
inductive Fault
  deriving DecidableEq, Repr

/-- Refusals of the machine. -/
inductive Refusal
  /-- Raised by `exec` alone, for a command that has no meaning yet (safe: no claim can be proved of it). No arm uses it. -/
  | notModelled (mnemonic : String)
  deriving DecidableEq, Repr

/-! ## Reset values -/

/-- A region that holds nothing (R29). -/
def Region.empty : Region := { state := .invalid, content := [] }

/-- The table store at the release of RESET (R29, R38). -/
def Tables.reset : Tables :=
  { lane := .empty, channels := .empty, segments := .empty, plans := .empty, limits := .empty, faults := .empty,
    prompts := .empty, form := .empty, glyphs := .empty, load := none }

/-- The chain interface at the release of RESET (R17). -/
def Chain.reset : Chain := { up := [], down := [], badUp := 0, badDown := 0, windowTimer := 0, noise := false }

/-- The management unit at the release of RESET (R23, R26, R38). -/
def Mgmt.reset : Mgmt :=
  { request := none, reply := none, keepState := .disabled, lower := 0, upper := 1000, keepTimer := none,
    tableCursor := none, recordCursor := { s0 := none, s1 := none, s2 := none, s3 := none },
    sticky := { eventOverrun := false, badFrameUp := false, badFrameDown := false, composerFree := false } }

/-- The steering unit at the release of RESET (R50, R54). -/
def Steering.reset : Steering := { channels := [], guardOpen := false, guardRaised := false }

/-- A station's tare at the release of RESET (R104). -/
def Tare.reset : Tare :=
  { offsets := { forceL := 0, forceR := 0, loadL := 0, loadR := 0, plateDisp := 0 }, age := none, ageMs := 0,
    stale := true, bar := false, context := none }

/-- The plate station at the release of RESET (R76). -/
def PlateStation.reset : PlateStation :=
  { state := .offline, crossing := none, lastSlip := none, contactIn := false, contactOut := false, tare := .reset }

/-- A roller station at the release of RESET (R76, R77). -/
def RollerStation.reset : RollerStation :=
  { state := .offline, seated := false, settleTimer := none, spinTimer := none, readyTimer := none,
    releaseTimer := none, readyL := 0, readyR := 0, histL := [], histR := [], driveFault := false, heldDrive := none,
    tare := .reset, capture := none }

/-- The axle tracker at the release of RESET (R106). -/
def Tracker.reset : Tracker := { g1 := [], g2 := [], boundRA := none, boundRB := none }

/-- A FREE slot (R114). -/
def RecordSlot.empty : RecordSlot := { state := .free, record := none }

/-- The record store at the release of RESET (R114). -/
def Records.reset : Records :=
  { slots := { s0 := .empty, s1 := .empty, s2 := .empty, s3 := .empty }, pendingResults := [] }

/-- The sequencer with every item empty, absent or clear (R127). -/
def Seq.reset : Seq :=
  { state := .standby, pointer := 0, mods := none, wait := none, held := none, restart := none, pausePending := false,
    armedSkip := none, pendingRepeat := false, repeatMark := none, planRA := none, planRB := none, last := none,
    stepEndPrompt := none, awaitTimer := none }

/-- A blank board line, marked dirty (R173). -/
def BoardLine.blank : BoardLine := { text := List.replicate 20 0x20, dirty := true }

/-- The guidance unit at the release of RESET (R173). -/
def Guide.reset : Guide :=
  { queue := [], nextArrival := 0, holdTimer := none, board := { s0 := .blank, s1 := .blank, s2 := .blank, s3 := .blank },
    refreshTimer := none, resend := 0, focus := none, barsShown := false, last := none }

/-- A FREE band buffer. -/
def BandBuffer.free : BandBuffer := { state := .free, band := 0, content := [] }

/-- The composer and print line at the release of RESET (R188). -/
def Printer.reset : Printer :=
  { queue := [], composer := .idle, job := none, bufA := .free, bufB := .free, line := .idle, timer := none,
    bandReq := false, strobed := [], voidDue := false, fault := false }

/-- Everything but the tables, in its power-on state, with the given input lines (R17, R38, R54, R76, R104, R122, R127,
R163, R173, R188). -/
def Live.powerOn (lines : InputLines) : Live :=
  { resetAsserted := false, lines := lines, mode := .auto, chain := .reset, mgmt := .reset, steer := .reset,
    ps := .reset, ra := .reset, rb := .reset, nextStart := 0, tracker := .reset, records := .reset, seq := .reset,
    faults := [], guide := .reset, printer := .reset, choices := 0 }

/-- The machine right after the release of RESET, with its input lines inactive and no command waiting. -/
def State.reset : State := { tables := .reset, live := .powerOn InputLines.inactive, pending := [] }

end Sys2Proof.Machine
end

