-- ==== Sys2Proof/Machine/Tables.lean ====
section
/-! DEFINITION. The table store's regions and the views its readers take of their content (R29, R39, R57, R123, R143,
R153, R164, R175, R194). A view of a region that is not VALID is absent. -/

namespace Sys2Proof.Machine

/-! ## Four like things -/

/-- The `i`-th of four values. -/
def Four.get {α : Type} (f : Four α) (i : Fin 4) : α :=
  if i = 0 then f.s0 else if i = 1 then f.s1 else if i = 2 then f.s2 else f.s3

/-- Four values with the `i`-th replaced. -/
def Four.set {α : Type} (f : Four α) (i : Fin 4) (a : α) : Four α :=
  if i = 0 then { f with s0 := a } else if i = 1 then { f with s1 := a }
  else if i = 2 then { f with s2 := a } else { f with s3 := a }

/-- The four values in order. -/
def Four.toList {α : Type} (f : Four α) : List α := [f.s0, f.s1, f.s2, f.s3]

/-- The four positions in order. -/
def fourIndices : List (Fin 4) := [0, 1, 2, 3]

/-! ## Regions -/

/-- A region by its name. -/
def Tables.get (t : Tables) : RegionName → Region
  | .lane => t.lane | .channels => t.channels | .segments => t.segments | .plans => t.plans | .limits => t.limits
  | .faults => t.faults | .prompts => t.prompts | .form => t.form | .glyphs => t.glyphs

/-- A region replaced by name. -/
def Tables.set (t : Tables) (n : RegionName) (r : Region) : Tables :=
  match n with
  | .lane => { t with lane := r } | .channels => { t with channels := r } | .segments => { t with segments := r }
  | .plans => { t with plans := r } | .limits => { t with limits := r } | .faults => { t with faults := r }
  | .prompts => { t with prompts := r } | .form => { t with form := r } | .glyphs => { t with glyphs := r }

/-- The nine regions in the order of their codes. -/
def regionNames : List RegionName :=
  [.lane, .channels, .segments, .plans, .limits, .faults, .prompts, .form, .glyphs]

/-- A region is VALID. -/
def Tables.valid (t : Tables) (n : RegionName) : Bool := (t.get n).state == .valid

/-- The content a reader sees: that of a VALID region (R29). -/
def Tables.content (t : Tables) (n : RegionName) : List Byte := if t.valid n then (t.get n).content else []

/-- The maximum size of a region (section 2.5). -/
def regionMax : RegionName → Nat
  | .lane => 64 | .channels => 1536 | .segments => 544 | .plans => 2176 | .limits => 512 | .faults => 28
  | .prompts => 8192 | .form => 1800 | .glyphs => 2304

/-- SAMPLE frames are steered while CHANNELS and SEGMENTS are both VALID (R8, R42). -/
def Tables.steering (t : Tables) : Bool := t.valid .channels && t.valid .segments

/-! ## LANE (R57, R194) -/

/-- The settings of the LANE region, defaults applied. -/
structure LaneSettings where
  ps : Bool
  ra : Bool
  rb : Bool
  driveRA : Nat
  driveRB : Nat
  board : Nat
  remote : Nat
  plateLength : Nat
  seat : Nat
  empty : Nat
  settle : Nat
  ready : Nat
  stopped : Nat
  silence : Nat
  tareInterval : Nat
  lockup : Nat
  trip : Nat
  badLimit : Nat
  autoTare : Bool
  autoPrint : Bool
  barScale : Nat
  noMoreRepeats : Option Nat
  deriving DecidableEq, Repr

/-- A stored 0 selects the default (R57). -/
def orDefault (v d : Nat) : Nat := if v = 0 then d else v

/-- A prompt number, or 0xFF for none (R189). -/
def promptOrNone (v : Nat) : Option Nat := if v = 0xFF then none else some v

/-- The LANE layout of R194, with the defaults of R5, R48, R57, R82, R100 and R172. -/
def LaneSettings.ofBytes (b : List Byte) : LaneSettings :=
  { ps := rdBit b 0 0, ra := rdBit b 0 1, rb := rdBit b 0 2,
    driveRA := rd b 1, driveRB := rd b 2, board := rd b 3, remote := rd b 4,
    plateLength := rd16 b 5,
    seat := orDefault (rd16 b 7) 200, empty := orDefault (rd16 b 9) 100, settle := orDefault (rd16 b 11) 500,
    ready := orDefault (rd b 13) 25, stopped := orDefault (rd b 14) 5, silence := orDefault (rd16 b 15) 100,
    tareInterval := orDefault (rd16 b 17) 900, lockup := orDefault (rd16 b 19) 300,
    trip := rd b 21, badLimit := orDefault (rd b 22) 8,
    autoTare := rdBit b 23 0, autoPrint := rdBit b 23 1,
    barScale := orDefault (rd16 b 24) 5000, noMoreRepeats := promptOrNone (rd b 26) }

/-- The LANE settings while LANE is VALID. -/
def Tables.lane? (t : Tables) : Option LaneSettings :=
  if t.valid .lane then some (LaneSettings.ofBytes t.lane.content) else none

/-- The settings in force: the LANE region's while it is VALID, else the defaults (R5, R19, R100). -/
def Tables.settings (t : Tables) : LaneSettings :=
  match t.lane? with
  | some s => s
  | none =>
    { LaneSettings.ofBytes [] with trip := 24, noMoreRepeats := none }

/-- A station is present while LANE is VALID and names it present (R39, R55). -/
def Tables.present (t : Tables) (st : Station) : Bool :=
  match t.lane? with
  | some s => match st with | .ps => s.ps | .ra => s.ra | .rb => s.rb
  | none => false

/-- A roller station as a station. -/
def stationOf : Roller → Station
  | .ra => .ra
  | .rb => .rb

/-- A station as a roller station. -/
def stationRoller : Station → Option Roller
  | .ps => none
  | .ra => some .ra
  | .rb => some .rb

/-- The other roller station. -/
def otherRoller : Roller → Roller
  | .ra => .rb
  | .rb => .ra

/-- The drive head address of a roller station (R57). -/
def LaneSettings.drive (s : LaneSettings) : Roller → Nat
  | .ra => s.driveRA
  | .rb => s.driveRB

/-- The roller station whose drive head the LANE region names at an address (R8); address 0 names none. That an address which LANE
names for both, one of them absent, is RA's alone is the model's choice (log 64). -/
def Tables.driveStation (t : Tables) (address : Nat) : Option Roller :=
  match t.lane? with
  | some s =>
    if address = 0 then none else if address = s.driveRA then some .ra
    else if address = s.driveRB then some .rb else none
  | none => none

/-- The head at an address is the remote (R8). -/
def Tables.isRemote (t : Tables) (address : Nat) : Bool :=
  match t.lane? with
  | some s => address == s.remote
  | none => false

/-! ## CHANNELS and SEGMENTS (R39, R40, R43, R194) -/

/-- A channel map entry (R39); `station := none` is "none". -/
structure ChannelEntry where
  enabled : Bool
  head : Nat
  channel : Nat
  role : Role
  station : Option Station
  segment : Nat
  high : Int
  low : Int
  applicability : Applicability
  mirror : MirrorMode
  decimation : Nat
  tareLimit : Nat
  deriving DecidableEq, Repr

/-- Role codes (R194): FORCE_L 0 to AUX 13. -/
def roleOfCode : Nat → Role
  | 0 => .forceL | 1 => .forceR | 2 => .loadL | 3 => .loadR | 4 => .drumL | 5 => .drumR | 6 => .wheelL
  | 7 => .wheelR | 8 => .pedal | 9 => .plateDisp | 10 => .plateEntry | 11 => .plateExit | 12 => .pitGuard | _ => .aux

/-- Station codes read back (R189). -/
def stationOfCode : Nat → Option Station
  | 0 => some .ps
  | 1 => some .ra
  | 2 => some .rb
  | _ => none

/-- Applicability codes, in the order of R39. -/
def applicabilityOfCode : Nat → Applicability
  | 0 => .always
  | 1 => .active
  | _ => .never

/-- Mirror mode codes, in the order of R39. -/
def mirrorOfCode : Nat → MirrorMode
  | 1 => .raw
  | 2 => .scaled
  | _ => .none

/-- The layout of a channel entry (R194). -/
def ChannelEntry.ofBytes (b : List Byte) : ChannelEntry :=
  { enabled := rdBit b 0 0, head := rd b 1, channel := rd b 2, role := roleOfCode (rd b 3),
    station := stationOfCode (rd b 4), segment := rd b 5, high := rdSigned32 b 6, low := rdSigned32 b 10,
    applicability := applicabilityOfCode (rd b 14), mirror := mirrorOfCode (rd b 15), decimation := rd b 16,
    tareLimit := rd16 b 17 }

/-- Records of `size` bytes that stand one after another in a content. -/
def slicesAt (b : List Byte) (size : Nat) : Nat → List (List Byte)
  | 0 => []
  | n + 1 => b.take size :: slicesAt (b.drop size) size n

/-- The records of a content made of records of `size` bytes. -/
def slices (b : List Byte) (size : Nat) : List (List Byte) := slicesAt b size (b.length / size)

/-- The entries of a CHANNELS content. -/
def channelEntries (content : List Byte) : List ChannelEntry := (slices content 24).map ChannelEntry.ofBytes

/-- The channel map while CHANNELS is VALID (R39). -/
def Tables.entries (t : Tables) : List ChannelEntry := channelEntries (t.content .channels)

/-- Position of the first entry that meets a condition, counting from `i`. -/
def indexOfFirst {α : Type} (p : α → Bool) : List α → Nat → Option Nat
  | [], _ => none
  | a :: as, i => if p a then some i else indexOfFirst p as (i + 1)

/-- The enabled entry of a head address and channel (R42). -/
def Tables.entryOfHead (t : Tables) (head channel : Nat) : Option Nat :=
  indexOfFirst (fun e => e.enabled && e.head == head && e.channel == channel) t.entries 0

/-- The enabled entry of a station and role (R41 makes it unique but for AUX). -/
def Tables.entryOfRole (t : Tables) (st : Option Station) (role : Role) : Option Nat :=
  indexOfFirst (fun e => e.enabled && e.station == st && e.role == role) t.entries 0

/-- A segment set: its breakpoints, raw and value (R43). -/
abbrev SegmentSet := List (Int × Int)

/-- The values of a set are unsigned for FORCE, DRUM and WHEEL roles and signed for all others (R194). -/
def unsignedValues : Role → Bool
  | .forceL | .forceR | .drumL | .drumR | .wheelL | .wheelR => true
  | _ => false

/-- The breakpoints of a set's 34 bytes, read for a role (R194). -/
def SegmentSet.ofBytes (role : Role) (b : List Byte) : SegmentSet :=
  (List.range (rd b 0)).map fun i =>
    (rdSigned16 b (2 + 4 * i),
      if unsignedValues role then (rd16 b (4 + 4 * i) : Int) else rdSigned16 b (4 + 4 * i))

/-- Set `n` of the SEGMENTS region while it is VALID, read for a role. -/
def Tables.segmentSet (t : Tables) (n : Nat) (role : Role) : SegmentSet :=
  SegmentSet.ofBytes role ((t.content .segments).drop (34 * n))

/-! ## PLANS (R123, R124, R125, R194) -/

/-- A step record (R124, R125). `bad` is a record of an undefined kind. -/
inductive PlanStep
  | seat (st : Option Station)
  | spin (st : Option Station) (wait : Bool)
  | capture (st : Option Station) (b : List Byte)
  | release (st : Option Station) (wait : Bool)
  | tare (st : Option Station) (wait : Bool)
  | prompt (n : Nat) (stepEnd : Bool)
  | await (cond : AwaitCondition) (timeout : Nat) (halt : Bool)
  | advance
  | close
  | withStation (st : Option Station)
  | withLimit (row : Nat)
  | withPart (part : BrakePart)
  | bad
  deriving DecidableEq, Repr

/-- AWAIT condition codes, in the order of R124. -/
def awaitOfCode : Nat → AwaitCondition
  | 0 => .confirm
  | 1 => .stationReady
  | 2 => .stationSeated
  | 3 => .axleExit
  | _ => .delay

/-- Target part codes, in the order of R77 (log 14). -/
def brakePartOfCode : Nat → BrakePart
  | 0 => .service
  | 1 => .parking
  | 2 => .ovality
  | _ => .aux

/-- Test kind codes, in the order of R77. -/
def testKindOfCode : Nat → TestKind
  | 0 => .service
  | 1 => .parking
  | _ => .ovality

/-- The part named like a test kind (R77). -/
def partOfKind : TestKind → BrakePart
  | .service => .service
  | .parking => .parking
  | .ovality => .ovality

/-- A capture length by its code (R194): 64, 128, 256, 512, OPEN. -/
def lengthOfCode : Nat → Option Nat
  | 0 => some 64
  | 1 => some 128
  | 2 => some 256
  | 3 => some 512
  | _ => none

/-- A step record's 8 bytes (R194). A CAPTURE keeps its bytes 2-7. -/
def PlanStep.ofBytes (b : List Byte) : PlanStep :=
  let st := stationOfCode (rd b 1)
  match rd b 0 with
  | 0 => .seat st
  | 1 => .spin st (rdBit b 2 7)
  | 2 => .capture st ((b.drop 2).take 6)
  | 3 => .release st (rdBit b 2 7)
  | 4 => .tare st (rdBit b 2 7)
  | 5 => .prompt (rd b 1) (rd b 2 == 1)
  | 6 => .await (awaitOfCode (rd b 1)) (rd b 2) (rd b 3 == 1)
  | 7 => .advance
  | 8 => .close
  | 9 => .withStation st
  | 10 => .withLimit (rd b 1)
  | 11 => .withPart (brakePartOfCode (rd b 1))
  | _ => .bad

/-- The settings of a CAPTURE from bytes 2-7 of its record, the target part where one is given, and the limit row
(R77, R194). -/
def captureSettings (b : List Byte) (part : Option BrakePart) (row : Option Nat) : CaptureSettings :=
  let kind := testKindOfCode (rd b 0 % 4)
  { testKind := kind, part := part.getD (partOfKind kind), length := lengthOfCode (rd b 0 / 4 % 8),
    pedalTarget := if rdBit b 1 0 then some (rd16 b 2) else none,
    ceiling := if rdBit b 1 1 then some (rd16 b 4) else none,
    operator := rdBit b 1 2, autoRelease := rdBit b 0 5, joint := rdBit b 0 6, limitRow := row }

/-- The wait flag of a CAPTURE step (R194). -/
def captureWait (b : List Byte) : Bool := rdBit b 0 7

/-- A plan (R123): its header, and all 32 step records. -/
structure Plan where
  cls : Nat
  loopStart : Nat
  finish : Nat
  rollerOnly : Bool
  steps : List PlanStep
  deriving DecidableEq, Repr

/-- A plan's 272 bytes (R194). -/
def Plan.ofBytes (b : List Byte) : Plan :=
  { cls := rd b 0, loopStart := rd b 1, finish := rd b 2, rollerOnly := rdBit b 3 0,
    steps := (slicesAt (b.drop 16) 8 32).map PlanStep.ofBytes }

/-- The step records in use (R123). -/
def Plan.used (p : Plan) : List PlanStep := p.steps.take p.finish

/-- The number of plans while PLANS is VALID (R123). -/
def Tables.planCount (t : Tables) : Nat := (t.content .plans).length / 272

/-- Plan `n` of the PLANS region. -/
def Tables.plan (t : Tables) (n : Nat) : Plan := Plan.ofBytes ((t.content .plans).drop (272 * n))

/-- A step record that is a modifier (R125). -/
def PlanStep.isModifier : PlanStep → Bool
  | .withStation _ | .withLimit _ | .withPart _ => true
  | _ => false

/-- A unit (R125): the number of its step, the step, and what its modifiers give. -/
structure PlanUnit where
  step : Nat
  record : PlanStep
  mods : Modifiers
  deriving DecidableEq, Repr

/-- No modifier. -/
def Modifiers.none : Modifiers := { station := .none, limitRow := .none, part := .none }

/-- Read a unit's records from record number `i` on; of two modifiers of one kind the first applies (R125). -/
def readUnit : List PlanStep → Nat → Modifiers → Option PlanUnit
  | [], _, _ => none
  | .withStation st :: rest, i, m => readUnit rest (i + 1) { m with station := m.station.orElse fun _ => st }
  | .withLimit row :: rest, i, m => readUnit rest (i + 1) { m with limitRow := m.limitRow.orElse fun _ => some row }
  | .withPart p :: rest, i, m => readUnit rest (i + 1) { m with part := m.part.orElse fun _ => some p }
  | r :: _, i, m => some { step := i, record := r, mods := m }

/-- The unit of a plan that starts at `start`. -/
def Plan.unitAt (p : Plan) (start : Nat) : Option PlanUnit := readUnit (p.used.drop start) start Modifiers.none

/-- The unit start of the unit whose step is record `i`: the modifiers before it belong to it (R125). -/
def unitStartOf (steps : List PlanStep) : Nat → Nat
  | 0 => 0
  | i + 1 => if (steps.getD i .bad).isModifier then unitStartOf steps i else i + 1

/-- The station a step record names by itself (R124): an AWAIT's is RA. -/
def PlanStep.ownStation : PlanStep → Option Station
  | .seat st | .spin st _ | .capture st _ | .release st _ | .tare st _ => st
  | .await _ _ _ => some .ra
  | _ => none

/-- The effective station of a unit (R124, R125): its modifier's, else its step's; none where the step has none. -/
def PlanUnit.station (u : PlanUnit) : Option Station :=
  match u.record with
  | .seat _ | .spin _ _ | .capture _ _ | .release _ _ | .tare _ _ | .await _ _ _ =>
    match u.mods.station with
    | some st => some st
    | none => u.record.ownStation
  | _ => none

/-- The restart point of a CAPTURE unit (R136): the unit start of the nearest SPIN before it with its effective station,
else the loop start. -/
def Plan.restartPoint (p : Plan) (unitStart : Nat) (st : Option Station) : Nat :=
  (List.range unitStart).foldl
    (fun acc i =>
      match p.used.getD i .bad with
      | .spin _ _ =>
        let s := unitStartOf p.used i
        match p.unitAt s with
        | some u => if u.station == st then s else acc
        | none => acc
      | _ => acc)
    p.loopStart

/-- The step of the first CAPTURE at or after record `i`, before the finish index (R140). -/
def Plan.nextCapture (p : Plan) (i : Nat) : Option Nat :=
  indexOfFirst (fun r => match r with | .capture _ _ => true | _ => false) (p.used.drop i) i

/-! ## LIMITS (R143, R194) -/

/-- One field of a limit row. -/
structure LimitField where
  mode : Comparison
  fail : Nat
  advisory : Nat
  deriving DecidableEq, Repr

/-- A limit row (R143); `cls := none` is ANY. The six fields stand in R194's order. -/
structure LimitRow where
  cls : Option Nat
  applies : AppliesTo
  required : Nat
  fields : List LimitField
  deriving DecidableEq, Repr

/-- Comparison mode codes, in the order of R143. -/
def comparisonOfCode : Nat → Comparison
  | 1 => .failAbove
  | 2 => .failBelow
  | _ => .unused

/-- Applies-to codes (R194). -/
def appliesOfCode : Nat → AppliesTo
  | 0 => .kind .steer | 1 => .kind .drive | 2 => .kind .tag | 3 => .kind .trailer | 4 => .any | _ => .vehicle

/-- A limit row's 32 bytes (R194). -/
def LimitRow.ofBytes (b : List Byte) : LimitRow :=
  { cls := if rd b 0 = 8 then none else some (rd b 0), applies := appliesOfCode (rd b 1), required := rd b 2,
    fields := (List.range 6).map fun i =>
      { mode := comparisonOfCode (rd16 b 3 / 4 ^ i % 4), fail := rd16 b (5 + 4 * i), advisory := rd16 b (7 + 4 * i) } }

/-- The rows of a LIMITS content. -/
def limitRows (content : List Byte) : List LimitRow := (slices content 32).map LimitRow.ofBytes

/-- The limit rows while LIMITS is VALID. -/
def Tables.rows (t : Tables) : List LimitRow := limitRows (t.content .limits)

/-! ## FAULTS (R152, R153) -/

/-- The default actions of R152. -/
def defaultAction : Source → Action
  | .channelWindow | .headSilent | .driveFault | .driveTimeout | .axleLost | .mistrack => .hold
  | .tareRange | .tareStale | .linkNoise | .printer => .note
  | .linkWindow | .operatorStop => .stop
  | .pitGuard | .estop => .lock

/-- A conditioned source (R152); the others are latched. -/
def conditioned : Source → Bool
  | .channelWindow | .headSilent | .driveFault | .tareStale | .linkNoise | .pitGuard | .printer | .estop => true
  | .driveTimeout | .axleLost | .mistrack | .tareRange | .linkWindow | .operatorStop => false

/-- The action chosen for a raise (R153). -/
def Tables.actionFor (t : Tables) (src : Source) : Action :=
  match src with
  | .estop => .lock
  | _ =>
    if t.valid .faults then (actionOfCode (rd (t.content .faults) (2 * sourceCode src))).getD .ignore
    else defaultAction src

/-- The safety prompt chosen for a raise (R153). -/
def Tables.promptFor (t : Tables) (src : Source) : Option Nat :=
  if t.valid .faults then promptOrNone (rd (t.content .faults) (2 * sourceCode src + 1)) else none

/-! ## PROMPTS (R164, R194) -/

/-- A field slot of a prompt (R164). -/
structure FieldSlot where
  line : Nat
  column : Nat
  width : Nat
  kind : SlotKind
  live : Bool
  deriving DecidableEq, Repr

/-- A prompt (R164): class, hold time in s, slots, and the text lines given. -/
structure Prompt where
  cls : PromptClass
  hold : Nat
  slots : List FieldSlot
  lines : List (List Byte)
  deriving DecidableEq, Repr

/-- Prompt class codes, in the order of R164. -/
def promptClassOfCode : Nat → PromptClass
  | 0 => .safety
  | 1 => .action
  | _ => .info

/-- Slot kind codes (R194). -/
def slotKindOfCode : Nat → SlotKind
  | 0 => .axle | 1 => .forceL | 2 => .forceR | 3 => .sideSlip | 4 => .ident | 5 => .verdict | _ => .repeats

/-- The text lines of a prompt record: `n` times a length byte and that many characters. -/
def promptLines : Nat → List Byte → List (List Byte)
  | 0, _ => []
  | n + 1, b => (b.drop 1).take (rd b 0) :: promptLines n (b.drop (1 + rd b 0))

/-- A prompt record (R194). -/
def Prompt.ofBytes (b : List Byte) : Prompt :=
  { cls := promptClassOfCode (rd b 0), hold := rd b 1,
    slots := (List.range (rd b 3)).map fun i =>
      { line := rd b (4 + 4 * i), column := rd b (5 + 4 * i), width := rd b (6 + 4 * i),
        kind := slotKindOfCode (rd b (7 + 4 * i) % 128), live := rdBit b (7 + 4 * i) 7 },
    lines := promptLines (rd b 2) (b.drop (4 + 4 * rd b 3)) }

/-- The prompt of a number, while PROMPTS is VALID and its directory entry is not empty (R164). -/
def Tables.prompt? (t : Tables) (n : Nat) : Option Prompt :=
  let c := t.content .prompts
  let off := rd16 c (2 * n)
  if t.valid .prompts && off != 0 then some (Prompt.ofBytes (c.drop off)) else none

/-! ## FORM (R175, R194) -/

/-- A placement condition (R175), by its code. -/
inductive FormCondition
  | always
  | copyOnly
  | verdict (v : Verdict)
  | undefined
  deriving DecidableEq, Repr

/-- Placement condition codes, in the order of R175. -/
def formConditionOfCode : Nat → FormCondition
  | 0 => .always | 1 => .copyOnly | 2 => .verdict .pass | 3 => .verdict .fail | 4 => .verdict .advisory
  | 5 => .verdict .incomplete | _ => .undefined

/-- What a placement draws (R175). Field, format and part are kept as codes. -/
inductive PlacementBody
  | text (offset length : Nat)
  | field (field format width part : Nat)
  | rule (length thickness : Nat)
  | box (width height : Nat)
  | undefined
  deriving DecidableEq, Repr

/-- A placement (R175). -/
structure Placement where
  body : PlacementBody
  zoom : Nat
  solid : Bool
  axleBlock : Bool
  condition : FormCondition
  x : Nat
  y : Nat
  deriving DecidableEq, Repr

/-- A placement's 12 bytes (R194); `solid` is mode OPAQUE. -/
def Placement.ofBytes (b : List Byte) : Placement :=
  { body := match rd b 0 with
      | 0 => .text (rd16 b 7) (rd b 9)
      | 1 => .field (rd b 7) (rd b 8) (rd b 9) (rd b 10)
      | 2 => .rule (rd16 b 7) (rd b 9)
      | 3 => .box (rd16 b 7) (rd16 b 9)
      | _ => .undefined
    zoom := if rdBit b 1 0 then 2 else 1, solid := rdBit b 1 1, axleBlock := rdBit b 1 2,
    condition := formConditionOfCode (rd b 2), x := rd16 b 3, y := rd16 b 5 }

/-- A certificate form (R175). -/
structure Form where
  base : Nat
  block : Nat
  placements : List Placement
  pool : List Byte
  deriving DecidableEq, Repr

/-- A FORM content (R194). -/
def Form.ofBytes (b : List Byte) : Form :=
  { base := rd16 b 0, block := rd16 b 2, placements := (slicesAt (b.drop 8) 12 (rd b 4)).map Placement.ofBytes,
    pool := (b.drop (8 + 12 * rd b 4)).take (rd16 b 5) }

/-- Code of the CHECK_CODE field (R177, R194). -/
def fieldCheckCode : Nat := 11

/-- The number of fields of R177, PART_VERDICT last. -/
def fieldCount : Nat := 25

/-- Code of the PART_VERDICT field. -/
def fieldPartVerdict : Nat := 24

/-- Fields whose rendering is numeric (R177). -/
def numericField (f : Nat) : Bool := [0, 1, 2, 6, 7, 8, 12, 13, 16, 17, 18, 19, 20, 21, 22, 23].contains f

/-- Dot `col`, `row` of the glyph of a character code (R176, R194): a code outside 0x20-0x7F draws 0x20's. -/
def Tables.glyphDot (t : Tables) (code row col : Nat) : Bool :=
  let c := if 0x20 ≤ code ∧ code ≤ 0x7F then code - 0x20 else 0
  let bit := 12 * row + col
  rdBit (t.content .glyphs) (24 * c + bit / 8) (7 - bit % 8)

end Sys2Proof.Machine
end

