-- ==== Sys2Proof/Machine/Verdicts.lean ====
section
/-! DEFINITION. The verdict unit (chapter 9), the totals (R117, R149), the record items (R192) and the check code (R193):
functions of a record and of the limit rows, with no state of their own. -/

namespace Sys2Proof.Machine

/-! ## Parts -/

/-- No flag set. -/
def PartFlags.none : PartFlags :=
  { stale := false, joint := false, repeated := false, interrupted := false, timedOut := false, skipped := false,
    manual := false }

/-- A part never written: absent, no flags, verdict ABSENT (R113, R147). -/
def Part.empty {α : Type} : Part α := { values := none, flags := .none, repeats := 0, verdict := .absent }

/-- A fresh axle record (R107). -/
def AxleRecord.fresh (index : Nat) (kind : AxleKind) (state : AxleState) : AxleRecord :=
  { index := index, kind := kind, state := state, plate := .empty, load := .empty, service := .empty,
    parking := .empty, ovality := .empty, aux := .empty, verdict := .absent }

/-- The brake part of an axle by its name. -/
def AxleRecord.brake (a : AxleRecord) : BrakePart → Part BrakeResult
  | .service => a.service
  | .parking => a.parking
  | .ovality => a.ovality
  | .aux => a.aux

/-- An axle with a brake part replaced. -/
def AxleRecord.setBrake (a : AxleRecord) (p : BrakePart) (x : Part BrakeResult) : AxleRecord :=
  match p with
  | .service => { a with service := x }
  | .parking => { a with parking := x }
  | .ovality => { a with ovality := x }
  | .aux => { a with aux := x }

/-- The part verdicts of an axle, in the order of R192, each with whether the part holds values. -/
def AxleRecord.parts (a : AxleRecord) : List (Bool × Verdict) :=
  [ (a.plate.values.isSome, a.plate.verdict), (a.load.values.isSome, a.load.verdict),
    (a.service.values.isSome, a.service.verdict), (a.parking.values.isSome, a.parking.verdict),
    (a.ovality.values.isSome, a.ovality.verdict), (a.aux.values.isSome, a.aux.verdict) ]

/-! ## Rows (R144) -/

/-- A row's class is the record's or ANY. -/
def LimitRow.fitsClass (r : LimitRow) (cls : Nat) : Bool :=
  match r.cls with
  | some c => c == cls
  | none => true

/-- A row applies to an axle kind. -/
def LimitRow.fitsKind (r : LimitRow) (k : AxleKind) : Bool :=
  match r.applies with
  | .kind k' => k' == k
  | .any => true
  | .vehicle => false

/-- The axle row of an axle: the first axle row that matches. -/
def axleRow (rows : List LimitRow) (cls : Nat) (k : AxleKind) : Option LimitRow :=
  rows.find? fun r => r.fitsClass cls && r.fitsKind k

/-- The vehicle row of a record: the first vehicle row that matches. -/
def vehicleRow (rows : List LimitRow) (cls : Nat) : Option LimitRow :=
  rows.find? fun r => r.applies == .vehicle && r.fitsClass cls

/-- The override a capture's limit row gives, absent where no such row is loaded or it is a vehicle row. -/
def overrideRow (rows : List LimitRow) (n : Option Nat) : Option LimitRow :=
  match n with
  | some i => (rows[i]?).filter fun r => r.applies != .vehicle
  | none => none

/-- The row in use for a part (R147). -/
def rowInUse (rows : List LimitRow) (cls : Nat) (k : AxleKind) (override : Option Nat) : Option LimitRow :=
  match overrideRow rows override with
  | some r => some r
  | none => axleRow rows cls k

/-! ## Measures (R145, R146) -/

/-- The weight in daN of a load in kg (R145). -/
def weight (kg : Nat) : Nat := kg * 981 / 1000

/-- The imbalance of two peak forces, in 0.1 %. -/
def imbalance (l r : Nat) : Nat := if max l r = 0 then 0 else 1000 * (max l r - min l r) / max l r

/-- The force fraction, in 0.1 %: absent without an axle weight. -/
def forceFraction (l r : Nat) (load : Option LoadValues) : Option Nat :=
  match load with
  | some v => if weight v.axle = 0 then none else some (1000 * (l + r) / weight v.axle)
  | none => none

/-- Judge one measure against one field (R146). -/
def judgeField (f : LimitField) (m : Nat) : FieldResult :=
  match f.mode with
  | .unused => .pass
  | .failAbove => if m > f.fail then .fail else if m > f.advisory then .advisory else .pass
  | .failBelow => if m < f.fail then .fail else if m < f.advisory then .advisory else .pass

/-- Judge a measure, absent or not, against field `i` of a row, absent or not: an absent measure is not judged, and with
no row every field counts as UNUSED (R145, R147). -/
def judgeMeasure (row : Option LimitRow) (i : Nat) (m : Option Nat) : FieldResult :=
  match row, m with
  | some r, some v =>
    match r.fields[i]? with
    | some f => judgeField f v
    | none => .pass
  | _, _ => .pass

/-- The part verdict from its field results and its STALE flag (R147). -/
def partVerdict (results : List FieldResult) (stale : Bool) : Verdict :=
  if results.contains .fail then .fail else if stale then .unverified
  else if results.contains .advisory then .advisory else .pass

/-- The worse of two field results (R146). -/
def worse (a b : FieldResult) : FieldResult :=
  match a, b with
  | .fail, _ | _, .fail => .fail
  | .advisory, _ | _, .advisory => .advisory
  | .pass, .pass => .pass

/-- The field results of a brake part (R147): fields imbalance 0, ovality 1, force fraction 3. Two ovality measures give the
worse of their two results (R146). -/
def brakeResults (row : Option LimitRow) (p : BrakePart) (load : Option LoadValues) (v : BrakeResult) :
    List FieldResult :=
  let imb := judgeMeasure row 0 (some (imbalance v.peakL v.peakR))
  let oval := worse (judgeMeasure row 1 v.ovalityL) (judgeMeasure row 1 v.ovalityR)
  match p with
  | .service => [imb, judgeMeasure row 3 (forceFraction v.peakL v.peakR load)]
  | .parking => [imb]
  | .ovality => [oval]
  | .aux => [imb, oval]

/-- The verdict of a brake part as written. -/
def brakeVerdict (rows : List LimitRow) (cls : Nat) (a : AxleRecord) (p : BrakePart) (override : Option Nat)
    (stale : Bool) (v : BrakeResult) : Verdict :=
  partVerdict (brakeResults (rowInUse rows cls a.kind override) p a.load.values v) stale

/-- The verdict of a PLATE part as written: side-slip magnitude against field 2. -/
def plateVerdict (rows : List LimitRow) (cls : Nat) (k : AxleKind) (stale : Bool) (v : PlateValues) : Verdict :=
  partVerdict [judgeMeasure (axleRow rows cls k) 2 (some v.slip.natAbs)] stale

/-- The verdict of a LOAD part as written: no measure. -/
def loadVerdict (stale : Bool) : Verdict := partVerdict [] stale

/-! ## Axle and vehicle verdicts (R148, R149, R150) -/

/-- Part `i` is among the required parts of a row. -/
def requires (row : Option LimitRow) (i : Nat) : Bool :=
  match row with
  | some r => (r.required / 2 ^ i) % 2 == 1
  | none => false

/-- The axle verdict (R148). -/
def axleVerdict (rows : List LimitRow) (cls : Nat) (a : AxleRecord) : Verdict :=
  let row := axleRow rows cls a.kind
  let vs := a.parts.map (·.2)
  let missing := (List.range 6).any fun i => requires row i && (vs.getD i .absent == .absent)
  if vs.contains .fail then .fail
  else if missing || !a.parts.any (·.1) then .incomplete
  else if vs.contains .unverified then .unverified
  else if vs.contains .advisory then .advisory else .pass

/-- The total load (R117): absent if the list is empty or an axle lacks its LOAD part. -/
def totalLoad (axles : List AxleRecord) : Option Nat :=
  if axles.isEmpty then none
  else axles.foldl (fun acc a =>
    match acc, a.load.values with
    | some s, some v => some (s + v.axle)
    | _, _ => none) (some 0)

/-- The peak forces of a brake part of an axle, 0 where it holds no values. -/
def brakeForce (p : BrakePart) (a : AxleRecord) : Nat :=
  match (a.brake p).values with
  | some v => v.peakL + v.peakR
  | none => 0

/-- The position of a brake part among the six parts. -/
def brakeIndex : BrakePart → Nat
  | .service => 2
  | .parking => 3
  | .ovality => 4
  | .aux => 5

/-- An efficiency (R149), in 0.1 %. -/
def efficiency (rows : List LimitRow) (cls : Nat) (p : BrakePart) (axles : List AxleRecord) : Option Nat :=
  match totalLoad axles with
  | none => none
  | some load =>
    if weight load = 0 then none
    else if axles.any (fun a => requires (axleRow rows cls a.kind) (brakeIndex p) && (a.brake p).values.isNone) then none
    else if axles.all (fun a => (a.brake p).values.isNone) then none
    else some (min 65534 (1000 * (axles.map (brakeForce p)).sum / weight load))

/-- A row's field judges: its mode is not UNUSED. -/
def judges (row : Option LimitRow) (i : Nat) : Bool :=
  match row with
  | some r => (match r.fields[i]? with | some f => f.mode != .unused | none => false)
  | none => false

/-- The vehicle verdict (R150) of a record whose axles and efficiencies are set. -/
def vehicleVerdict (rows : List LimitRow) (r : VehicleRecord) : Verdict :=
  let row := vehicleRow rows r.cls
  let vs := r.axles.map (·.verdict)
  let effs := [judgeMeasure row 4 r.serviceEff, judgeMeasure row 5 r.parkingEff]
  let absentJudged := (judges row 4 && r.serviceEff.isNone) || (judges row 5 && r.parkingEff.isNone)
  if vs.contains .fail || effs.contains .fail then .fail
  else if vs.contains .incomplete || absentJudged || decide (r.axles.length < r.expected) then .incomplete
  else if vs.contains .unverified then .unverified
  else if vs.contains .advisory || effs.contains .advisory then .advisory else .pass

/-! ## Record items (R192) -/

/-- A text field of `n` bytes: its characters, then 0x00. -/
def textField (n : Nat) (t : Option (List Byte)) : List Byte :=
  let c := (t.getD []).take n
  c ++ List.replicate (n - c.length) 0

/-- The kinds list as one 24-bit number. -/
def kindsNumber : List AxleKind → Nat
  | [] => 0
  | k :: ks => axleKindCode k + 4 * kindsNumber ks

/-- HEADER content, 36 bytes. -/
def headerItem (state : SlotState) (r : VehicleRecord) : List Byte :=
  [ byte (slotStateCode state + 8 * r.cls + (if r.forced then 64 else 0) + (if r.rollerOnly then 128 else 0)),
    byte (r.plan.getD 0xFF), byte r.expected, byte r.axles.length, byte r.printCount ]
    ++ be24 (kindsNumber r.kinds) ++ textField 12 r.ident ++ textField 10 r.date ++ textField 6 r.operator

/-- TOTALS content, 10 bytes. -/
def totalsItem (r : VehicleRecord) : List Byte :=
  be24 (r.totalLoad.getD 0xFFFFFF) ++ be16OrFFFF r.serviceEff ++ be16OrFFFF r.parkingEff
    ++ [byte (verdictCode r.verdict)] ++ be16 ((r.checkCode.map BitVec.toNat).getD 0)

/-- The first byte of a part: flags in bits 0-6, present in bit 7. -/
def partFirstByte {α : Type} (p : Part α) : Byte :=
  byte (flagByte [p.flags.stale, p.flags.joint, p.flags.repeated, p.flags.interrupted, p.flags.timedOut,
    p.flags.skipped, p.flags.manual, p.values.isSome])

/-- The two bytes of a part in the AXLE item. -/
def partBytes {α : Type} (p : Part α) : List Byte := [partFirstByte p, byte (verdictCode p.verdict + 16 * p.repeats)]

/-- The five bytes of a brake part in the AXLE item. -/
def brakeBytes (p : BrakePart) (x : Part BrakeResult) : List Byte :=
  match x.values with
  | none => [0, 0, 0, 0, 0]
  | some v =>
    (match p with
      | .ovality => be16OrFFFF v.ovalityL ++ be16OrFFFF v.ovalityR
      | _ => be16 v.peakL ++ be16 v.peakR)
      ++ [byte ((if v.lockupL then 1 else 0) + (if v.lockupR then 2 else 0) + 4 * endReasonCode v.endReason
          + 64 * testKindCode v.testKind)]

/-- AXLE content, 43 bytes. -/
def axleItem (a : AxleRecord) : List Byte :=
  [byte a.index, byte (axleKindCode a.kind + 4 * axleStateCode a.state), byte (verdictCode a.verdict)]
    ++ partBytes a.plate ++ partBytes a.load ++ partBytes a.service ++ partBytes a.parking ++ partBytes a.ovality
    ++ partBytes a.aux
    ++ (match a.plate.values with | some v => beSigned16 v.peak ++ beSigned16 v.slip | none => [0, 0, 0, 0])
    ++ (match a.load.values with | some v => be16 v.left ++ be16 v.right | none => [0, 0, 0, 0])
    ++ brakeBytes .service a.service ++ brakeBytes .parking a.parking ++ brakeBytes .ovality a.ovality
    ++ brakeBytes .aux a.aux

/-- Item codes (R192): HEADER 0, AXLE 1-10, TOTALS 11, VEHICLE 12. -/
def itemTotals : Nat := 11
/-- VEHICLE. -/
def itemVehicle : Nat := 12

/-! ## Check code (R117, R193) -/

/-- A text field of the serialization: a length byte, then the characters. -/
def textSerial (t : Option (List Byte)) : List Byte := byte (t.getD []).length :: t.getD []

/-- A part in the serialization: first byte, repeat count, verdict, and its values where present. -/
def partSerial {α : Type} (values : α → List Byte) (p : Part α) : List Byte :=
  [partFirstByte p, byte p.repeats, byte (verdictCode p.verdict)]
    ++ (match p.values with | some v => values v | none => [])

/-- A brake result in the serialization. -/
def brakeSerial (v : BrakeResult) : List Byte :=
  [byte (testKindCode v.testKind), byte (endReasonCode v.endReason)] ++ be16 v.forceCount ++ be16 v.peakL
    ++ be16 v.peakR ++ be16OrFFFF v.pedalL ++ be16OrFFFF v.pedalR ++ be16OrFFFF v.ovalityL ++ be16OrFFFF v.ovalityR
    ++ [byte (flagByte [v.lockupL, v.lockupR])]

/-- An axle in the serialization. -/
def axleSerial (a : AxleRecord) : List Byte :=
  [byte a.index, byte (axleKindCode a.kind), byte (verdictCode a.verdict)]
    ++ partSerial (fun v => beSigned16 v.peak ++ beSigned16 v.slip) a.plate
    ++ partSerial (fun v => be16 v.left ++ be16 v.right ++ be16 v.axle) a.load
    ++ partSerial brakeSerial a.service ++ partSerial brakeSerial a.parking ++ partSerial brakeSerial a.ovality
    ++ partSerial brakeSerial a.aux

/-- The canonical serialization of a record's result fields (R193). -/
def serialization (r : VehicleRecord) : List Byte :=
  [byte r.cls, byte (r.plan.getD 0xFF), byte r.expected, byte r.axles.length,
    byte (flagByte [r.forced, r.rollerOnly])]
    ++ r.kinds.map (fun k => byte (axleKindCode k)) ++ textSerial r.ident ++ textSerial r.date ++ textSerial r.operator
    ++ r.axles.flatMap axleSerial
    ++ be32 (r.totalLoad.getD 0xFFFFFFFF) ++ be16OrFFFF r.serviceEff ++ be16OrFFFF r.parkingEff
    ++ [byte (verdictCode r.verdict)]

/-- The check code of a record whose results are final. -/
def checkCode (r : VehicleRecord) : Half := crc16 (serialization r)

end Sys2Proof.Machine
end

