-- ==== Sys2Proof/Machine/Ops.lean ====
section
/-! DEFINITION. The shared operations every block uses: access to stations, the two chain queues (chapter 1), EVENT,
REPLY and RESULT frames on their way into the up queue, the fault list's condition reports, and the open choices. Every
operation on `Live` reads the table store and cannot change it. -/

namespace Sys2Proof.Machine

/-! ## Stations -/

/-- A roller station's state record. -/
def Live.roller (s : Live) : Roller → RollerStation
  | .ra => s.ra
  | .rb => s.rb

/-- A roller station replaced. -/
def Live.setRoller (r : Roller) (x : RollerStation) (s : Live) : Live :=
  match r with
  | .ra => { s with ra := x }
  | .rb => { s with rb := x }

/-- A station's state (R61, R73). -/
def Live.stationState (s : Live) : Station → StationState
  | .ps => s.ps.state
  | .ra => s.ra.state
  | .rb => s.rb.state

/-- A station's state replaced, and nothing else. -/
def Live.putState (st : Station) (x : StationState) (s : Live) : Live :=
  match st with
  | .ps => { s with ps := { s.ps with state := x } }
  | .ra => { s with ra := { s.ra with state := x } }
  | .rb => { s with rb := { s.rb with state := x } }

/-- A station's tare (chapter 6). -/
def Live.tare (s : Live) : Station → Tare
  | .ps => s.ps.tare
  | .ra => s.ra.tare
  | .rb => s.rb.tare

/-- A station's tare replaced. -/
def Live.setTare (st : Station) (x : Tare) (s : Live) : Live :=
  match st with
  | .ps => { s with ps := { s.ps with tare := x } }
  | .ra => { s with ra := { s.ra with tare := x } }
  | .rb => { s with rb := { s.rb with tare := x } }

/-- The three stations in the order PS, RA, RB (R157). -/
def stations : List Station := [.ps, .ra, .rb]

/-- The bound axle of a station; PS is never bound (R106). -/
def Live.bound (s : Live) : Station → Option Nat
  | .ps => none
  | .ra => s.tracker.boundRA
  | .rb => s.tracker.boundRB

/-- The bound axle of a roller station set. -/
def Live.setBound (r : Roller) (a : Option Nat) (s : Live) : Live :=
  match r with
  | .ra => { s with tracker := { s.tracker with boundRA := a } }
  | .rb => { s with tracker := { s.tracker with boundRB := a } }

/-- The bound axle as an EVENT carries it: 0 for none. -/
def Live.boundOrZero (s : Live) (st : Station) : Nat := (s.bound st).getD 0

/-- The drums of a station are driven: SPINNING, READY or MEASURING. -/
def StationState.driven (x : StationState) : Bool := x == .spinning || x == .ready || x == .measuring

/-- A station at work: SPINNING, READY, MEASURING or TARING (R46, R49). -/
def StationState.atWork (x : StationState) : Bool := x.driven || x == .taring

/-- The latest value of the enabled entry of a station and role (R45); absent where there is none. -/
def Live.latest (T : Tables) (st : Station) (role : Role) (s : Live) : Option Int :=
  match T.entryOfRole (some st) role with
  | some i => (s.steer.channels[i]?).bind (·.latest)
  | none => none

/-- The load sum of a roller station; an absent value counts as 0 (R58). -/
def Live.loadSum (T : Tables) (r : Roller) (s : Live) : Int :=
  (s.latest T (stationOf r) .loadL).getD 0 + (s.latest T (stationOf r) .loadR).getD 0

/-! ## Open choices (log 7, 8) -/

/-- The next open choice is settled: the counter advances. -/
def Live.chosen (s : Live) : Live := { s with choices := s.choices + 1 }

/-! ## The up queue (R9 to R13) -/

/-- The number of mirror-class frames. -/
def mirrorCount (q : List UpFrame) : Nat := q.countP (·.mirror)

/-- The up queue replaced. -/
def Live.setUp (q : List UpFrame) (s : Live) : Live := { s with chain := { s.chain with up := q } }

/-- A mirror-class frame is offered (R10). -/
def Live.offerMirror (T : Tables) (f : Frame) (s : Live) : Live :=
  if s.chain.up.length < T.settings.trip then s.setUp (s.chain.up ++ [{ mirror := true, frame := f }]) else s

/-- The sticky indicators changed. -/
def Live.setSticky (x : Indicators) (s : Live) : Live := { s with mgmt := { s.mgmt with sticky := x } }

/-- An EVENT frame is offered: a full queue discards it and sets EVENT_OVERRUN (R11). -/
def Live.offerEvent (f : Frame) (s : Live) : Live :=
  if s.chain.up.length < Config.upCapacity then s.setUp (s.chain.up ++ [{ mirror := false, frame := f }])
  else s.setSticky { s.mgmt.sticky with eventOverrun := true }

/-- An EVENT with a 32-bit value. -/
def Live.event (code : EventCode) (st : Option Station) (axle value : Nat) (s : Live) : Live :=
  s.offerEvent (eventFrame code st axle (be32 value))

/-- The REPLY to a request is offered; a full queue makes it wait (R12, R20). -/
def Live.offerReply (f : Frame) (s : Live) : Live :=
  if s.chain.up.length < Config.upCapacity then s.setUp (s.chain.up ++ [{ mirror := false, frame := f }])
  else { s with mgmt := { s.mgmt with reply := some f } }

/-- A RESULT frame that has been made is offered, or joins the pending list (R120). -/
def Live.offerResult (slot : Fin 4) (f : Frame) (s : Live) : Live :=
  if s.records.pendingResults.isEmpty && decide (s.chain.up.length < Config.upCapacity) then
    s.setUp (s.chain.up ++ [{ mirror := false, frame := f }])
  else { s with records := { s.records with pendingResults := s.records.pendingResults ++ [(slot, f)] } }

/-- Pending RESULT frames enter the queue while there is room: the list left, and the queue (R120). -/
def enterResults : List (Fin 4 × Frame) → List UpFrame → List (Fin 4 × Frame) × List UpFrame
  | [], q => ([], q)
  | p :: rest, q =>
    if q.length < Config.upCapacity then enterResults rest (q ++ [{ mirror := false, frame := p.2 }]) else (p :: rest, q)

/-- Room is offered to the record store (R12, R120). -/
def Live.offerPending (s : Live) : Live :=
  let e := enterResults s.records.pendingResults s.chain.up
  { (s.setUp e.2) with records := { s.records with pendingResults := e.1 } }

/-- Freed places are offered: to a waiting REPLY first, then to the record store (R12). -/
def Live.offerFreedUp (s : Live) : Live :=
  match s.mgmt.reply with
  | none => s.offerPending
  | some f =>
    if s.chain.up.length < Config.upCapacity then
      Live.offerPending { (s.setUp (s.chain.up ++ [{ mirror := false, frame := f }])) with
        mgmt := { s.mgmt with reply := none } }
    else s

/-- The first `n` mirror-class frames of a list removed. -/
def dropMirrors : Nat → List UpFrame → List UpFrame
  | 0, q => q
  | _, [] => []
  | n + 1, f :: q => if f.mirror then dropMirrors n q else f :: dropMirrors (n + 1) q

/-- The newest mirror-class frames that are not started removed until as many as the level are left (R10). -/
def trimMirrors (level : Nat) : List UpFrame → List UpFrame
  | [] => []
  | h :: t => h :: (dropMirrors (mirrorCount (h :: t) - level) t.reverse).reverse

/-- Every mirror-class frame that is not started removed (R13, R18). -/
def flushMirrors : List UpFrame → List UpFrame
  | [] => []
  | h :: t => h :: t.filter (fun f => !f.mirror)

/-! ## The down queue (R14, R15) -/

/-- A frame of the DRIVE group, whoever sent it (R14). -/
def DownFrame.isDrive (f : DownFrame) : Bool := f.frame.kind == kindDrive

/-- A frame placed in the down queue: a DRIVE frame behind the started frame and the DRIVE frames already queued, any
other frame at the end (R14). -/
def placeDown (f : DownFrame) : List DownFrame → List DownFrame
  | [] => [f]
  | h :: t =>
    if f.isDrive then h :: (t.takeWhile (·.isDrive) ++ f :: t.dropWhile (·.isDrive)) else h :: (t ++ [f])

/-- The down queue replaced. -/
def Live.setDown (q : List DownFrame) (s : Live) : Live := { s with chain := { s.chain with down := q } }

/-- The level of a source (R15). -/
def downLevel : DownSource → Nat
  | .drive => Config.driveLevel
  | .board => Config.boardLevel
  | .host => Config.hostLevel

/-- A frame offered to the down queue and admitted by R15, or `none`. -/
def Live.admitDown? (f : DownFrame) (s : Live) : Option Live :=
  if s.chain.down.length < downLevel f.source then some (s.setDown (placeDown f s.chain.down)) else none

/-- A DRIVE frame of a station controller: side BOTH (R69, R190). -/
def driveFrame (T : Tables) (r : Roller) (start : Bool) : Frame :=
  { dest := byte (T.settings.drive r), src := 0, kind := kindDrive, payload := [if start then 0 else 1, 2] }

/-- A station's held DRIVE frame replaced. -/
def Live.setHeld (r : Roller) (f : Option Frame) (s : Live) : Live :=
  s.setRoller r { s.roller r with heldDrive := f }

/-- A station makes a DRIVE frame: offered, or held in place of the frame held before (R69). -/
def Live.offerDrive (T : Tables) (r : Roller) (start : Bool) (s : Live) : Live :=
  let f := driveFrame T r start
  match (s.roller r).heldDrive with
  | some _ => s.setHeld r (some f)
  | none =>
    match s.admitDown? { source := .drive, frame := f } with
    | some s' => s'
    | none => s.setHeld r (some f)

/-- A freed place is offered to one station's held frame (R69). -/
def Live.offerHeld (r : Roller) (s : Live) : Live :=
  match (s.roller r).heldDrive with
  | none => s
  | some f =>
    match s.admitDown? { source := .drive, frame := f } with
    | some s' => s'.setHeld r none
    | none => s

/-- Freed places are offered to RA's held frame, then to RB's (R15). -/
def Live.offerFreedDown (s : Live) : Live := (s.offerHeld .ra).offerHeld .rb

/-- Every host frame that is not started removed (R18). -/
def dropHost : List DownFrame → List DownFrame
  | [] => []
  | h :: t => h :: t.filter (fun f => f.source != .host)

/-! ## The active fault list (R155, R156) -/

/-- The lane fault level by its code: NONE 0, HOLD 1, STOP 2, LOCK 3 (R156, R191). -/
def faultLevel (l : List FaultEntry) : Nat :=
  if l.any (·.action == .lock) then 3
  else if l.any (·.action == .stop) then 2
  else if l.any (·.action == .hold) then 1 else 0

/-- The lane fault level. -/
def Live.level (s : Live) : Nat := faultLevel s.faults

/-- An entry is that of a source and scope. -/
def FaultEntry.is (src : Source) (scope : Scope) (e : FaultEntry) : Bool := e.source == src && e.scope == scope

/-- The report of the end of a condition: its entry is marked gone; without an entry it has no effect (R155). -/
def Live.endCondition (src : Source) (scope : Scope) (s : Live) : Live :=
  { s with faults := s.faults.map fun e => if e.is src scope then { e with present := false } else e }

/-- An entry covers a station (R157). -/
def FaultEntry.covers (T : Tables) (st : Station) (e : FaultEntry) : Bool :=
  match e.action with
  | .hold => e.scope == .station st || (e.scope == .lane && T.present st)
  | .lock => T.present st
  | _ => false

/-- Some entry of the list covers a station. -/
def Live.covered (T : Tables) (st : Station) (s : Live) : Bool := s.faults.any (·.covers T st)

/-! ## The OPEN record (R114) -/

/-- The OPEN slot; there is at most one (R114). -/
def Live.openSlot (s : Live) : Option (Fin 4) := fourIndices.find? fun i => (s.records.slots.get i).state == .opened

/-- The OPEN record. -/
def Live.openRecord (s : Live) : Option VehicleRecord := s.openSlot.bind fun i => (s.records.slots.get i).record

/-- A slot replaced. -/
def Live.setSlot (i : Fin 4) (x : RecordSlot) (s : Live) : Live :=
  { s with records := { s.records with slots := s.records.slots.set i x } }

/-- An axle record by its index. -/
def VehicleRecord.axle? (r : VehicleRecord) (index : Nat) : Option AxleRecord := r.axles.find? (·.index == index)

end Sys2Proof.Machine
end

