-- ==== Sys2Proof/Machine/Guidance.lean ====
section
/-! DEFINITION. The guidance unit (chapter 11): text formats, slot values, rendering, BOARD frames, the prompt queue. -/

namespace Sys2Proof.Machine

/-! ## Text (R170, R177) -/

/-- The space character. -/
def spaceChar : Byte := 0x20

/-- The decimal digits of a number. No width is above 20, so 21 digits are more than any field shows. -/
def decimalDigits : Nat → Nat → List Byte
  | 0, _ => []
  | k + 1, n => if n < 10 then [byte (0x30 + n)] else decimalDigits k (n / 10) ++ [byte (0x30 + n % 10)]

/-- A number in decimal, with a leading minus sign if negative. -/
def numberText (i : Int) : List Byte := (if i < 0 then [0x2D] else []) ++ decimalDigits 21 i.natAbs

/-- A number of tenths: one digit after a point and at least one before it. -/
def tenthsText (i : Int) : List Byte :=
  (if i < 0 then [0x2D] else []) ++ decimalDigits 21 (i.natAbs / 10) ++ [0x2E, byte (0x30 + i.natAbs % 10)]

/-- A number right-aligned in a width; "#" throughout when it needs more. -/
def fitRight (w : Nat) (t : List Byte) : List Byte :=
  if t.length > w then List.replicate w 0x23 else List.replicate (w - t.length) spaceChar ++ t

/-- A text left-aligned, cut to the width and filled out with spaces. -/
def fitLeft (w : Nat) (t : List Byte) : List Byte := t.take w ++ List.replicate (w - t.length) spaceChar

/-- An absent value: "-" throughout. -/
def dashes (w : Nat) : List Byte := List.replicate w 0x2D

/-- The word of a verdict. -/
def verdictWord : Verdict → List Byte
  | .absent => [0x41, 0x42, 0x53, 0x45, 0x4E, 0x54]
  | .pass => [0x50, 0x41, 0x53, 0x53]
  | .advisory => [0x41, 0x44, 0x56, 0x49, 0x53, 0x4F, 0x52, 0x59]
  | .unverified => [0x55, 0x4E, 0x56, 0x45, 0x52, 0x49, 0x46, 0x49, 0x45, 0x44]
  | .incomplete => [0x49, 0x4E, 0x43, 0x4F, 0x4D, 0x50, 0x4C, 0x45, 0x54, 0x45]
  | .fail => [0x46, 0x41, 0x49, 0x4C]

/-- The word PROMPT and a space. -/
def promptWord : List Byte := [0x50, 0x52, 0x4F, 0x4D, 0x50, 0x54, 0x20]

/-- A number in three digits with leading zeros. -/
def threeDigits (n : Nat) : List Byte :=
  [byte (0x30 + n / 100 % 10), byte (0x30 + n / 10 % 10), byte (0x30 + n % 10)]

/-! ## Slot values (R164) -/

/-- The values of the seven slot kinds as they stand. -/
def Live.slotValues (T : Tables) (s : Live) : SlotValues :=
  let focus := s.guide.focus.map stationOf
  { axle := focus.bind s.bound,
    forceL := focus.bind fun st => s.latest T st .forceL,
    forceR := focus.bind fun st => s.latest T st .forceR,
    sideSlip := s.ps.lastSlip,
    ident := s.openRecord.bind (·.ident),
    verdict := s.guide.last.map (·.verdict),
    repeats := s.guide.last.map (·.repeats) }

/-- A slot's characters in its width (R170). -/
def slotText (v : SlotValues) (k : SlotKind) (w : Nat) : List Byte :=
  let number := fun (o : Option Int) => match o with | some i => fitRight w (numberText i) | none => dashes w
  match k with
  | .axle => number (v.axle.map Int.ofNat)
  | .forceL => number v.forceL
  | .forceR => number v.forceR
  | .sideSlip => match v.sideSlip with | some i => fitRight w (tenthsText i) | none => dashes w
  | .ident => match v.ident with | some t => fitLeft w t | none => dashes w
  | .verdict => match v.verdict with | some x => fitLeft w (verdictWord x) | none => dashes w
  | .repeats => number (v.repeats.map Int.ofNat)

/-! ## Rendering (R170) -/

/-- Some characters of a line overwritten from a column on. -/
def overwrite (line : List Byte) (column : Nat) (t : List Byte) : List Byte :=
  line.take column ++ t ++ line.drop (column + t.length)

/-- One line of a known prompt: its text, then each slot of the line. -/
def promptLine (p : Prompt) (fixed now : SlotValues) (n : Nat) : List Byte :=
  p.slots.foldl
    (fun line sl =>
      if sl.line = n then overwrite line sl.column (slotText (if sl.live then now else fixed) sl.kind sl.width) else line)
    (fitLeft 20 (p.lines.getD n []))

/-- One rendered line of the board. -/
def Live.renderLine (T : Tables) (n : Nat) (s : Live) : List Byte :=
  match s.guide.queue with
  | [] => List.replicate 20 spaceChar
  | e :: _ =>
    match T.prompt? e.number with
    | some p => promptLine p e.fixed (s.slotValues T) n
    | none => if n = 0 then fitLeft 20 (promptWord ++ threeDigits e.number) else List.replicate 20 spaceChar

/-! ## BOARD frames (R171) -/

/-- The guidance unit replaced. -/
def Live.setGuide (g : Guide) (s : Live) : Live := { s with guide := g }

/-- A BOARD frame to the board address of the LANE region. -/
def boardFrame (T : Tables) (payload : List Byte) : Frame :=
  { dest := byte T.settings.board, src := 0, kind := kindBoard, payload := payload }

/-- One line rendered: marked dirty if it differs from its image. -/
def Live.markLine (T : Tables) (i : Fin 4) (s : Live) : Live :=
  let l := s.guide.board.get i
  if s.renderLine T i.val = l.text then s
  else s.setGuide { s.guide with board := s.guide.board.set i { l with dirty := true } }

/-- A BOARD line frame offered for a dirty line; admitted, it makes the image equal to the rendered line. -/
def Live.offerLine (T : Tables) (i : Fin 4) (s : Live) : Live :=
  let l := s.guide.board.get i
  if l.dirty then
    let text := s.renderLine T i.val
    match s.admitDown? { source := .board, frame := boardFrame T (byte i.val :: text) } with
    | some s' => s'.setGuide { s'.guide with board := s'.guide.board.set i { text := text, dirty := false } }
    | none => s
  else s

/-- A rendering (R171): lines that differ are marked dirty, and while the board is driven the dirty lines are offered in
line order (log 40). -/
def Live.render (T : Tables) (s : Live) : Live :=
  let marked := fourIndices.foldl (fun x i => x.markLine T i) s
  if T.valid .lane then fourIndices.foldl (fun x i => x.offerLine T i) marked else marked

/-- Every line marked dirty. -/
def Live.allDirty (s : Live) : Live :=
  let d := fun (l : BoardLine) => { l with dirty := true }
  s.setGuide { s.guide with
    board := { s0 := d s.guide.board.s0, s1 := d s.guide.board.s1, s2 := d s.guide.board.s2, s3 := d s.guide.board.s3 } }

/-! ## The prompt queue (R166 to R169) -/

/-- Classes from the highest: SAFETY, ACTION, INFO. -/
def classRank : PromptClass → Nat
  | .safety => 0
  | .action => 1
  | .info => 2

/-- Who an entry at the head is: its arrival order. -/
def headMark (q : List PromptEntry) : Option Nat := q.head?.map (·.arrival)

/-- The queue changed: when another entry has become head its hold timer restarts and the board is rendered (R168,
R171). -/
def Live.setQueue (T : Tables) (q : List PromptEntry) (s : Live) : Live :=
  let s' := s.setGuide { s.guide with queue := q }
  if headMark q = headMark s.guide.queue then s'
  else (s'.setGuide { s'.guide with holdTimer := if q.isEmpty then none else some 0 }).render T

/-- An entry inserted behind every entry of its class or higher. -/
def insertPrompt (e : PromptEntry) (q : List PromptEntry) : List PromptEntry :=
  let before := fun (x : PromptEntry) => decide (classRank x.cls ≤ classRank e.cls)
  q.takeWhile before ++ e :: q.dropWhile before

/-- The entry a post makes (R166); `links` are the links it starts with. -/
def Live.promptEntry (T : Tables) (n : Nat) (origin : PromptOrigin) (stepEnd : Bool) (links : List (Source × Scope))
    (s : Live) : PromptEntry :=
  let p := T.prompt? n
  { number := n,
    cls := match p with | some x => x.cls | none => (match origin with | .fault => .safety | _ => .info),
    hold := match p with | some x => x.hold | none => 0,
    stepEnd := stepEnd, links := links, arrival := s.guide.nextArrival, fixed := s.slotValues T }

/-- The oldest entry of the lowest class present, in a queue ordered by class. -/
def displaced (q : List PromptEntry) : Option PromptEntry :=
  match q.getLast? with
  | some l => q.find? (·.cls == l.cls)
  | none => none

/-- A post (R166): re-post, room, or full. That it changes the head once, with the queue as it then stands, is the model's
choice (log 62). -/
def Live.postPrompt (T : Tables) (n : Nat) (origin : PromptOrigin) (stepEnd : Bool) (links : List (Source × Scope))
    (s : Live) : Live :=
  let old := (s.guide.queue.filter (·.number == n)).flatMap (·.links)
  let e := s.promptEntry T n origin stepEnd (old ++ links)
  let rest := s.guide.queue.filter (fun x => x.number != n)
  let s1 := s.setGuide { s.guide with nextArrival := s.guide.nextArrival + 1 }
  if rest.length < Config.promptCapacity then s1.setQueue T (insertPrompt e rest)
  else
    match displaced rest with
    | some d =>
      if classRank e.cls < classRank d.cls then
        (s1.setQueue T (insertPrompt e (rest.filter (fun x => x.number != d.number)))).event .promptDropped none 0 d.number
      else s1.event .promptDropped none 0 n
    | none => s1

/-- A prompt number stands in the queue. -/
def Live.queued (n : Nat) (s : Live) : Bool := s.guide.queue.any (·.number == n)

/-- An entry after the removal of links: gone when it held one of them and none is left (R167). -/
def unlinkEntry (p : Source × Scope → Bool) (e : PromptEntry) : Option PromptEntry :=
  if e.links.any p then
    if e.links.all p then none else some { e with links := e.links.filter (fun l => !p l) }
  else some e

/-- The link to one fault entry is removed (R167). -/
def Live.unlink (T : Tables) (src : Source) (scope : Scope) (s : Live) : Live :=
  s.setQueue T (s.guide.queue.filterMap (unlinkEntry (· == (src, scope))))

/-- An entry after a step-end removal of its number (R168). -/
def stepEndEntry (n : Nat) (e : PromptEntry) : Option PromptEntry :=
  if e.number = n ∧ e.stepEnd then
    if e.links.isEmpty then none else some { e with stepEnd := false }
  else some e

/-- The sequencer's step-end removal (R168). -/
def Live.stepEndRemoval (T : Tables) (n : Nat) (s : Live) : Live :=
  s.setQueue T (s.guide.queue.filterMap (stepEndEntry n))

/-- The guidance unit at a lane reset (R173): unlinked entries and the links to removed fault entries go, every line is
dirty, and one rendering is made. -/
def Live.guideLaneReset (T : Tables) (removed : List FaultEntry) (s : Live) : Live :=
  let linked := s.guide.queue.filter (fun e => !e.links.isEmpty)
  let q := linked.filterMap (unlinkEntry fun l => removed.any fun e => e.is l.1 l.2)
  let timer := if headMark q = headMark s.guide.queue then s.guide.holdTimer else if q.isEmpty then none else some 0
  (s.setGuide { s.guide with queue := q, holdTimer := timer }).allDirty.render T

/-! ## Bars (R172) -/

/-- A fill: force times 100 over the bar scale, 0 to 100, 0 for an absent or negative force. -/
def barFill (scale : Nat) (force : Option Int) : Nat :=
  match force with
  | some f => min 100 (f.toNat * 100 / scale)
  | none => 0

/-- A bar frame offered; a refused one is discarded. -/
def Live.offerBar (T : Tables) (left right : Nat) (s : Live) : Live :=
  match s.admitDown? { source := .board, frame := boardFrame T [4, byte left, byte right] } with
  | some s' => s'
  | none => s

/-- The bars at a refresh expiry (R172). -/
def Live.refreshBars (T : Tables) (s : Live) : Live :=
  let closing := if s.guide.barsShown then (s.offerBar T 0 0).setGuide { s.guide with barsShown := false } else s
  match s.guide.focus with
  | none => closing
  | some r =>
    let x := (s.roller r).state
    if x == .ready || x == .measuring then
      let st := stationOf r
      (s.offerBar T (barFill T.settings.barScale (s.latest T st .forceL))
        (barFill T.settings.barScale (s.latest T st .forceR))).setGuide { s.guide with barsShown := true }
    else closing

end Sys2Proof.Machine
end

