-- ==== Sys2Proof/Machine/Records.lean ====
section
/-! DEFINITION. The record store and the axle tracker (chapter 7): part writes with their judgement (chapter 9), axles
created, moved and done, RESULT frames, the close and the abort of the OPEN record. -/

namespace Sys2Proof.Machine

/-! ## Writes to the OPEN record -/

/-- One axle record of a vehicle record changed. -/
def VehicleRecord.updAxle (index : Nat) (f : AxleRecord → AxleRecord) (r : VehicleRecord) : VehicleRecord :=
  { r with axles := r.axles.map fun a => if a.index = index then f a else a }

/-- The OPEN record changed; without one, nothing (R113). -/
def Live.updOpen (f : VehicleRecord → VehicleRecord) (s : Live) : Live :=
  match s.openSlot with
  | some i => s.setSlot i { s.records.slots.get i with record := (s.records.slots.get i).record.map f }
  | none => s

/-- One axle of the OPEN record changed. -/
def Live.updAxle (index : Nat) (f : AxleRecord → AxleRecord) (s : Live) : Live := s.updOpen (·.updAxle index f)

/-- An axle of the OPEN record. -/
def Live.axle? (index : Nat) (s : Live) : Option AxleRecord := s.openRecord.bind (·.axle? index)

/-- The class of the OPEN record. -/
def Live.openClass (s : Live) : Nat := (s.openRecord.map (·.cls)).getD 0

/-- A part verdict handed to the guidance unit (R147, R165). -/
def Live.judged {α : Type} (p : Part α) (s : Live) : Live :=
  s.setGuide { s.guide with last := some { verdict := p.verdict, repeats := p.repeats } }

/-- The mean of a load history, truncated, not below 0 (R64). -/
def loadMean (h : List Int) : Nat := (h.sum.tdiv h.length).toNat

/-- The LOAD part as an accepted SPIN writes it (R64, R101, R141). -/
def loadPart (old : Part LoadValues) (l r : List Int) (stale manual : Bool) : Part LoadValues :=
  { old with
    values := some { left := loadMean l, right := loadMean r, axle := loadMean l + loadMean r },
    flags := { old.flags with stale := stale, manual := old.flags.manual || manual }, verdict := loadVerdict stale }

/-- The LOAD part of the bound axle written at an accepted SPIN, if it is absent and both sides have a history (R64). -/
def Live.writeLoad (r : Roller) (manual : Bool) (s : Live) : Live :=
  let x := s.roller r
  match (s.bound (stationOf r)).bind fun i => s.axle? i with
  | some a =>
    if a.load.values.isSome || x.histL.isEmpty || x.histR.isEmpty then s
    else
      let p := loadPart a.load x.histL x.histR x.tare.stale manual
      (s.updAxle a.index fun b => { b with load := p }).judged p
  | none => s

/-- The flags of a part after a normal write (R86). -/
def normalFlags (old : PartFlags) (c : Capture) (reason : EndReason) (stale : Bool) : PartFlags :=
  { stale := stale, joint := c.settings.joint, repeated := old.repeated || c.marks.repeated, interrupted := false,
    timedOut := reason == .timeout, skipped := false, manual := old.manual || c.marks.manual }

/-- A brake part after a normal write (R85, R86, R147). -/
def brakePart (T : Tables) (cls : Nat) (a : AxleRecord) (c : Capture) (v : BrakeResult) (stale : Bool) :
    Part BrakeResult :=
  let old := a.brake c.settings.part
  { values := some v, flags := normalFlags old.flags c v.endReason stale,
    repeats := if c.marks.repeated then min 3 (old.repeats + 1) else old.repeats,
    verdict := brakeVerdict T.rows cls a c.settings.part c.settings.limitRow stale v }

/-- A brake result written to the target part of a station's bound axle (R85, R86); an unbound station writes nothing. -/
def Live.writeBrake (T : Tables) (st : Station) (c : Capture) (v : BrakeResult) (s : Live) : Live :=
  match (s.bound st).bind fun i => s.axle? i with
  | some a =>
    let p := brakePart T s.openClass a c v (s.tare st).stale
    (s.updAxle a.index fun b => b.setBrake c.settings.part p).judged p
  | none => s

/-- A brake part given flag SKIPPED (R140). -/
def skipPart (p : Part BrakeResult) : Part BrakeResult := { p with flags := { p.flags with skipped := true } }

/-- A brake part after an abnormal end: without values it is marked INTERRUPTED (R88), and a SKIP gives SKIPPED (R140). -/
def interruptPart (reason : EndReason) (p : Part BrakeResult) : Part BrakeResult :=
  let q := if p.values.isSome then p else { p with flags := { p.flags with interrupted := true } }
  if reason = .skip then skipPart q else q

/-- The target part of a station's bound axle marked. -/
def Live.markBrake (st : Station) (part : BrakePart) (f : Part BrakeResult → Part BrakeResult) (s : Live) : Live :=
  match s.bound st with
  | some i => s.updAxle i fun a => a.setBrake part (f (a.brake part))
  | none => s

/-! ## RESULT frames (R119) -/

/-- A slot's number, 1 to 4. -/
def slotNumber (i : Fin 4) : Nat := i.val + 1

/-- An axle RESULT. -/
def axleResult (slot : Fin 4) (a : AxleRecord) : Frame :=
  upstreamFrame kindResult (byte (slotNumber slot) :: byte a.index :: axleItem a)

/-- A vehicle RESULT, its state as it stands. -/
def vehicleResult (slot : Fin 4) (state : SlotState) (r : VehicleRecord) : Frame :=
  upstreamFrame kindResult (byte (slotNumber slot) :: byte itemVehicle :: (headerItem state r ++ totalsItem r))

/-- An axle becomes DONE: its verdict is computed and its RESULT made (R111, R148). -/
def Live.axleDone (T : Tables) (index : Nat) (s : Live) : Live :=
  let cls := s.openClass
  let s1 := s.updAxle index fun a => { a with state := .done, verdict := axleVerdict T.rows cls a }
  match s1.openSlot, s1.axle? index with
  | some i, some a => s1.offerResult i (axleResult i a)
  | _, _ => s1

/-! ## The axle tracker (R105 to R111)

Each operation answers the state and whether MISTRACK is to be raised with the station's scope. -/

/-- Axle `index` of the OPEN record appended (R107, R109). -/
def Live.appendAxle (a : AxleRecord) (s : Live) : Live := s.updOpen fun r => { r with axles := r.axles ++ [a] }

/-- The kind of a new axle: the entry of the kinds list at its index. -/
def VehicleRecord.kindOf (r : VehicleRecord) (index : Nat) : AxleKind := r.kinds.getD (index - 1) .steer

/-- The PLATE part written from a crossing with a measurement (R107, R113, R147). -/
def platePart (T : Tables) (cls : Nat) (k : AxleKind) (v : PlateValues) (stale : Bool) : Part PlateValues :=
  { values := some v, flags := { PartFlags.none with stale := stale }, repeats := 0,
    verdict := plateVerdict T.rows cls k stale v }

/-- A FORWARD crossing with a record OPEN (R107). -/
def Live.forwardCrossing (T : Tables) (r : VehicleRecord) (m : Option PlateValues) (stale : Bool) (s : Live) :
    Live × Bool :=
  let index := r.axles.length + 1
  let k := r.kindOf index
  if r.axles.length < r.expected ∧ s.tracker.g1.length < Config.gapCapacity then
    let inLane := T.present .ra || T.present .rb
    let fresh := AxleRecord.fresh index k (if inLane then .inGap else .done)
    let s1 := match m with
      | some v =>
        let p := platePart T r.cls k v stale
        (s.appendAxle { fresh with plate := p }).judged p
      | none => s.appendAxle fresh
    if inLane then ({ s1 with tracker := { s1.tracker with g1 := s1.tracker.g1 ++ [index] } }, false)
    else (s1.axleDone T index, false)
  else (s, true)

/-- A REVERSE crossing with a record OPEN (R108). -/
def Live.reverseCrossing (r : VehicleRecord) (s : Live) : Live × Bool :=
  match s.tracker.g1.getLast?, r.axles.getLast? with
  | some i, some a =>
    if i = a.index then
      let s1 := { s with tracker := { s.tracker with g1 := s.tracker.g1.dropLast } }
      ((s1.updOpen fun x => { x with axles := x.axles.dropLast }).event .axleWithdrawn (some .ps) i 0, false)
    else (s, true)
  | _, _ => (s, true)

/-- A crossing reported to the tracker (R107, R108). -/
def Live.takeCrossing (T : Tables) (d : Direction) (m : Option PlateValues) (stale : Bool) (s : Live) : Live × Bool :=
  match s.openRecord with
  | none => (s.event .strayAxle (some .ps) 0 (match d with | .forward => 0 | .reverse => 1), false)
  | some r => match d with
    | .forward => s.forwardCrossing T r m stale
    | .reverse => s.reverseCrossing r

/-- The axle at the oldest end of a gap queue bound to a station: it becomes ON_STATION. -/
def Live.bindAxle (r : Roller) (index : Nat) (s : Live) : Live :=
  (s.setBound r (some index)).updAxle index fun a => { a with state := .onStation }

/-- Roller-only entry is allowed: no plan, or a plan with ROLLER_ONLY_ALLOWED (R109). -/
def rollerOnlyAllowed (T : Tables) (r : VehicleRecord) : Bool :=
  match r.plan with
  | none => true
  | some n => (T.plan n).rollerOnly

/-- A seating reported by RA (R109). -/
def Live.seatRA (T : Tables) (s : Live) : Live × Bool :=
  match s.openRecord with
  | none => (s, false)
  | some r =>
    match s.tracker.g1 with
    | i :: rest => (({ s with tracker := { s.tracker with g1 := rest } }).bindAxle .ra i, false)
    | [] =>
      if rollerOnlyAllowed T r && decide (r.axles.length < r.expected) then
        let index := r.axles.length + 1
        let s1 := s.updOpen fun x =>
          { x with axles := x.axles ++ [AxleRecord.fresh index (r.kindOf index) .onStation], rollerOnly := true }
        (s1.setBound .ra (some index), false)
      else (s, true)

/-- A seating reported by RB (R110). -/
def Live.seatRB (s : Live) : Live × Bool :=
  match s.openRecord with
  | none => (s, false)
  | some _ =>
    match s.tracker.g2 with
    | i :: rest => (({ s with tracker := { s.tracker with g2 := rest } }).bindAxle .rb i, false)
    | [] => (s, true)

/-- A seating reported by a roller station. -/
def Live.trackSeating (T : Tables) (r : Roller) (s : Live) : Live × Bool :=
  match r with
  | .ra => s.seatRA T
  | .rb => s.seatRB

/-- An exit reported by a roller station (R111): the bound axle moves or becomes DONE, and the binding is cleared. -/
def Live.trackExit (T : Tables) (r : Roller) (s : Live) : Live × Bool :=
  match s.bound (stationOf r) with
  | none => (s, false)
  | some i =>
    let s1 := s.setBound r none
    if r = .ra ∧ T.present .rb = true then
      if s1.tracker.g2.length < Config.gapCapacity then
        (({ s1 with tracker := { s1.tracker with g2 := s1.tracker.g2 ++ [i] } }).updAxle i fun a =>
          { a with state := .inGap }, false)
      else (s1.axleDone T i, true)
    else (s1.axleDone T i, false)

/-! ## Close and abort (R116, R117, R118) -/

/-- The tracker emptied. -/
def Live.clearTracker (s : Live) : Live := { s with tracker := .reset }

/-- The indices of the axles that are not DONE, in creation order. -/
def VehicleRecord.unfinished (r : VehicleRecord) : List Nat := (r.axles.filter (fun a => a.state != .done)).map (·.index)

/-- The totals, the vehicle verdict and the check code (R117, R149, R150). -/
def finishRecord (rows : List LimitRow) (r : VehicleRecord) : VehicleRecord :=
  let r1 := { r with totalLoad := totalLoad r.axles, serviceEff := efficiency rows r.cls .service r.axles,
                     parkingEff := efficiency rows r.cls .parking r.axles }
  let r2 := { r1 with verdict := vehicleVerdict rows r1 }
  { r2 with checkCode := some (checkCode r2) }

/-- A slot appended to the print queue (R180). -/
def Live.appendPrint (i : Fin 4) (s : Live) : Live :=
  { s with printer := { s.printer with queue := s.printer.queue ++ [{ slot := i, restarts := 0 }] } }

/-- Steps 2 to 7 of the close of the OPEN record (R116), after its captures have ended. -/
def Live.closeRecord (T : Tables) (s : Live) : Live :=
  match s.openSlot, s.openRecord with
  | some i, some r =>
    let s1 := r.unfinished.foldl (fun x n => x.axleDone T n) s.clearTracker
    let s2 := s1.updOpen (finishRecord T.rows)
    match s2.openRecord with
    | some f =>
      let s3 := (s2.setSlot i { state := .closed, record := some f }).offerResult i (vehicleResult i .closed f)
      if T.settings.autoPrint then s3.appendPrint i else s3
    | none => s2
  | _, _ => s

/-- A part without its verdict. -/
def Part.unjudged {α : Type} (p : Part α) : Part α := { p with verdict := .absent }

/-- An axle of an aborted record: DONE, and every verdict cleared (R118). -/
def AxleRecord.aborted (a : AxleRecord) : AxleRecord :=
  { a with state := .done, verdict := .absent, plate := a.plate.unjudged, load := a.load.unjudged,
           service := a.service.unjudged, parking := a.parking.unjudged, ovality := a.ovality.unjudged,
           aux := a.aux.unjudged }

/-- The abort of the OPEN record (R118), after its captures have ended. -/
def Live.abortRecord (s : Live) : Live :=
  match s.openSlot, s.openRecord with
  | some i, some r =>
    let f := { r with axles := r.axles.map AxleRecord.aborted }
    (s.clearTracker.setSlot i { state := .aborted, record := some f }).offerResult i (vehicleResult i .aborted f)
  | _, _ => s

/-- The result-pending flag of a slot (R120; log 34). -/
def Live.resultPending (i : Fin 4) (s : Live) : Bool := s.records.pendingResults.any (·.1 == i)

end Sys2Proof.Machine
end

