-- ==== Sys2Proof/Machine/Sequencer.lean ====
section
/-! DEFINITION. The lane sequencer's reactions (chapter 8): how steps end, what station changes, capture and tare ends,
exits, pause and lock orders, RESUME and the end of the record do to it. It makes no request here: a unit is taken by its
own event (R128). -/

namespace Sys2Proof.Machine

/-- The sequencer's items replaced. -/
def Live.setSeq (q : Seq) (s : Live) : Live := { s with seq := q }

/-- The plan of the OPEN record (R123). -/
def Live.plan? (T : Tables) (s : Live) : Option Plan := (s.openRecord.bind (·.plan)).map T.plan

/-- The unit at the step pointer (R125). -/
def Live.currentUnit (T : Tables) (s : Live) : Option PlanUnit := (s.plan? T).bind (·.unitAt s.seq.pointer)

/-- The loop start of the plan. -/
def Live.loopStart (T : Tables) (s : Live) : Nat := ((s.plan? T).map (·.loopStart)).getD 0

/-- Button codes (R190): CONFIRM 0, REPEAT 1, SKIP 2, STOP 3. -/
def buttonConfirmCode : Nat := 0
/-- REPEAT. -/
def buttonRepeatCode : Nat := 1
/-- SKIP. -/
def buttonSkipCode : Nat := 2
/-- STOP. -/
def buttonStopCode : Nat := 3

/-- EVENT BUTTON_IGNORED (R137). -/
def Live.buttonIgnored (code : Nat) (s : Live) : Live := s.event .buttonIgnored none 0 code

/-- The sequencer HELD on a station (R133). -/
def Live.seqHold (st : Station) (s : Live) : Live :=
  s.setSeq { s.seq with state := .held, held := some st, wait := none, awaitTimer := none }

/-- The sequencer HALTED on its unit, with EVENT STEP_HALTED (R132). -/
def Live.seqHalt (T : Tables) (s : Live) : Live :=
  let s1 := s.setSeq { s.seq with state := .halted, held := none, wait := none, awaitTimer := none }
  match s.currentUnit T with
  | some u => s1.event .stepHalted u.station ((u.station.map s.boundOrZero).getD 0) u.step
  | none => s1

/-- The sequencer in a state in which it waits on nothing. -/
def Live.seqRest (x : SeqState) (s : Live) : Live :=
  s.setSeq { s.seq with state := x, held := none, wait := none, awaitTimer := none }

/-- A pending repeat discarded, with its EVENT (R139). -/
def Live.discardRepeat (s : Live) : Live :=
  if s.seq.pendingRepeat then (s.setSeq { s.seq with pendingRepeat := false }).buttonIgnored buttonRepeatCode else s

/-- A REPEAT acts (R139). -/
def Live.actRepeat (T : Tables) (s : Live) : Live :=
  match s.seq.last, s.plan? T with
  | some l, some p =>
    if l.axle = 0 ∨ s.bound (stationOf l.roller) ≠ some l.axle then s.buttonIgnored buttonRepeatCode
    else if ((s.axle? l.axle).map fun a => (a.brake l.part).repeats) = some 3 then
      match T.settings.noMoreRepeats with
      | some n => s.postPrompt T n .step false []
      | none => s
    else
      s.setSeq { s.seq with state := .running, pointer := l.restart, mods := none, wait := none, awaitTimer := none,
                            armedSkip := none, repeatMark := some (unitStartOf p.used l.step) }
  | _, _ => s.buttonIgnored buttonRepeatCode

/-- A pending repeat acts at the end of a step (R139). -/
def Live.actPendingRepeat (T : Tables) (s : Live) : Live :=
  if s.seq.pendingRepeat then (s.setSeq { s.seq with pendingRepeat := false }).actRepeat T else s

/-- A pause that was pending takes effect at the end of a step (R134). -/
def Live.pauseNow (s : Live) : Live :=
  let s1 := s.seqRest .paused
  (s1.setSeq { s1.seq with pausePending := false }).discardRepeat

/-- The step-end prompt is removed at the end of the next unit's step; the PROMPT step that records one is not that
step (R131; log 23). -/
def Live.endStepPrompt (T : Tables) (u : PlanUnit) (s : Live) : Live :=
  match u.record, s.seq.stepEndPrompt with
  | .prompt _ true, _ => s
  | _, some n => (s.setSeq { s.seq with stepEndPrompt := none }).stepEndRemoval T n
  | _, none => s

/-- The current step ends successfully, or at a timeout with CONTINUE: the pointer moves to the next unit start, and a
pending pause or repeat takes effect (R128, R129, R134, R139). -/
def Live.stepDone (T : Tables) (s : Live) : Live :=
  match s.currentUnit T with
  | none => s
  | some u =>
    let s1 := s.endStepPrompt T u
    let s2 := s1.setSeq { s1.seq with pointer := u.step + 1, mods := none }
    if s2.seq.pausePending then s2.pauseNow else (s2.seqRest .running).actPendingRepeat T

/-- The current step ends unsuccessfully (R129, R132, R133, R134). -/
def Live.stepFailed (T : Tables) (st : Station) (s : Live) : Live :=
  if s.seq.pausePending then s.pauseNow
  else if s.stationState st = .faulted then (s.seqHold st).discardRepeat
  else (s.seqHalt T).actPendingRepeat T

/-! ## Restarts (R136) -/

/-- The sequencer becomes RUNNING at the pending restart: at the loop start when the capture's station is unbound
(R136). That a restart which is itself the loop start keeps the repeat mark is the model's choice (R139; log 59). -/
def Live.makeRestart (T : Tables) (x : Restart) (s : Live) : Live :=
  let s1 := s.seqRest .running
  if (s.bound (stationOf x.roller)).isNone then
    s1.setSeq { s1.seq with pointer := s.loopStart T, repeatMark := none, restart := none, mods := none }
  else s1.setSeq { s1.seq with pointer := x.unit, restart := none, mods := none }

/-- The stations of the capture that a restart repeats: both of a joint one, RA first (R90, R136; log 53). -/
def Restart.rollers (x : Restart) : List Roller := if x.joint then [.ra, .rb] else [x.roller]

/-- Step 4 of R136: HELD on the first station of the capture given that is FAULTED (log 53), else the restart `x`. -/
def Live.judgeRestart (T : Tables) (broken x : Restart) (s : Live) : Live :=
  if s.level = 3 then s.seqRest .locked
  else if s.level = 2 then s.seqRest .paused
  else match broken.rollers.find? fun r => s.stationState (stationOf r) == .faulted with
    | some r => s.seqHold (stationOf r)
    | none => s.makeRestart T x

/-- Of two pending restarts, the earlier in step order is kept (R136; log 36). -/
def earlierRestart (old : Option Restart) (new : Restart) : Restart :=
  match old with
  | some o => if o.unit ≤ new.unit then o else new
  | none => new

/-- A plan capture has ended with FAULT or AXLE_LOST (R136); `broken` is its own restart. -/
def Live.captureBroken (T : Tables) (broken : Restart) (s : Live) : Live :=
  if s.seq.state = .standby then s
  else
    let x := earlierRestart s.seq.restart broken
    let s1 := s.discardRepeat
    let s2 := s1.setSeq { s1.seq with mods := none, wait := none, awaitTimer := none, restart := some x,
                                      armedSkip := none, pausePending := false }
    s2.judgeRestart T broken x

/-- The plan capture of a roller station. -/
def Seq.planCapture (q : Seq) : Roller → Option PlanCapture
  | .ra => q.planRA
  | .rb => q.planRB

/-- The plan capture of a roller station set. -/
def Seq.setPlanCapture (r : Roller) (x : Option PlanCapture) (q : Seq) : Seq :=
  match r with
  | .ra => { q with planRA := x }
  | .rb => { q with planRB := x }

/-- A normal end reason (section 5.3). -/
def EndReason.normal : EndReason → Bool
  | .count | .pedal | .ceiling | .operator | .lockup | .timeout => true
  | _ => false

/-- The sequencer waits on the capture of a station. -/
def Live.waitsOnCapture (r : Roller) (s : Live) : Bool := s.seq.state == .waiting && s.seq.wait == some (.capture r)

/-- The end of the capture held by a station is reported to the sequencer (R89, R129, R136); `axle` is the axle it
measured, 0 if none. -/
def Live.seqCaptureEnd (T : Tables) (r : Roller) (c : Capture) (reason : EndReason) (axle : Nat) (s : Live) : Live :=
  match s.seq.planCapture r with
  | none => s
  | some p =>
    let s1 := s.setSeq (s.seq.setPlanCapture r none)
    match reason with
    | .fault | .axleLost => s1.captureBroken T { unit := p.restart, roller := r, joint := c.settings.joint }
    | .skip | .released => if s1.waitsOnCapture r then s1.stepDone T else s1
    | .closed | .reset => s1
    | _ =>
      let s2 := s1.setSeq { s1.seq with
        last := some { step := p.step, roller := r, restart := p.restart, axle := axle, part := c.settings.part } }
      if s2.waitsOnCapture r then s2.stepDone T else s2

/-! ## Station changes (R128, R129, R130, R133) -/

/-- A hold on the held station has ended: the lane fault level is judged (R133). -/
def Live.heldEnds (T : Tables) (s : Live) : Live :=
  if s.level = 3 then s.seqRest .locked
  else if s.level = 2 then s.seqRest .paused
  else match s.seq.restart with
    | some x => s.makeRestart T x
    | none => s.seqRest .running

/-- What a station's new state does to a WAITING sequencer. -/
def Live.waitSees (T : Tables) (st : Station) (s : Live) : Live :=
  let x := s.stationState st
  match s.seq.wait with
  | some (.busy w) => if w = st then s.seqRest .running else s
  | some (.spin w) =>
    if w = st then
      if x = .ready then s.stepDone T
      else if x = .releasing ∨ x = .idle ∨ x = .faulted ∨ x = .offline then s.stepFailed T st else s
    else s
  | some (.release w) =>
    if w = st then
      if x = .faulted then s.stepFailed T st
      else if x.driven || x == .releasing then s else s.stepDone T
    else s
  | some (.seat w) =>
    if w = st then
      if x = .faulted then s.seqHold st
      else if x = .seated ∧ (s.bound st).isSome = true then s.stepDone T else s
    else s
  | some (.await c w _ _) =>
    if w = st then
      match c with
      | .stationReady => if x = .faulted then s.seqHold st else if x = .ready then s.stepDone T else s
      | .stationSeated => if x = .faulted then s.seqHold st else if x = .seated then s.stepDone T else s
      | .axleExit => if x = .faulted then s.seqHold st else s
      | .confirm | .delay => s
    else s
  | some (.capture _) | some (.tare _) | none => s

/-- A station's change of state reaches the sequencer. -/
def Live.seqSees (T : Tables) (st : Station) (s : Live) : Live :=
  match s.seq.state with
  | .waiting => s.waitSees T st
  | .held => if s.seq.held = some st ∧ s.stationState st ≠ .faulted then s.heldEnds T else s
  | _ => s

/-- A station enters a state, and the sequencer sees it. -/
def Live.enter (T : Tables) (st : Station) (x : StationState) (s : Live) : Live := (s.putState st x).seqSees T st

/-- The end of a tare is reported to the sequencer (R96, R97, R98, R129). -/
def Live.seqTareEnd (T : Tables) (st : Station) (o : TareOutcome) (s : Live) : Live :=
  if s.seq.state = .waiting ∧ s.seq.wait = some (.tare st) then
    match o with
    | .done => s.stepDone T
    | .range => s.stepFailed T st
    | .aborted => if s.stationState st = .faulted then s.stepFailed T st else s.stepDone T
  else s

/-- An exit is reported to the sequencer (R130). -/
def Live.seqExit (T : Tables) (st : Station) (s : Live) : Live :=
  match s.seq.state, s.seq.wait with
  | .waiting, some (.await .axleExit w _ _) => if w = st then s.stepDone T else s
  | _, _ => s

/-! ## Orders (R134, R135) -/

/-- The sequencer waits inside a unit: on a SPIN, CAPTURE, RELEASE or TARE (section 8.3). -/
def Seq.inside (q : Seq) : Bool :=
  q.state == .waiting &&
    match q.wait with
    | some (.spin _) | some (.capture _) | some (.release _) | some (.tare _) => true
    | _ => false

/-- A pause order (R134). -/
def Live.pauseOrder (s : Live) : Live :=
  if s.seq.inside then s.setSeq { s.seq with pausePending := true }
  else match s.seq.state with
    | .running | .halted | .waiting => s.seqRest .paused
    | .held | .standby | .paused | .locked => s

/-- A lock order (R135): LOCKED at once; a pending repeat is discarded with its EVENT (R139). -/
def Live.lockOrder (s : Live) : Live :=
  let s1 := s.discardRepeat.seqRest .locked
  s1.setSeq { s1.seq with pausePending := false }

/-- An accepted RESUME (R132, R134, R160). -/
def Live.seqResume (T : Tables) (s : Live) : Live :=
  let s1 := s.setSeq { s.seq with pausePending := false }
  match s.seq.state with
  | .paused =>
    match s1.seq.restart with
    | some x => s1.judgeRestart T x x
    | none =>
      match (s1.currentUnit T).bind (·.station) with
      | some st => if s1.stationState st = .faulted then s1.seqHold st else s1.seqRest .running
      | none => s1.seqRest .running
  | .halted => s1.seqRest .running
  | .running | .waiting | .held => s1
  | .locked | .standby => s

/-- The OPEN record has left OPEN: every item is emptied (R127). -/
def Live.seqEmpty (s : Live) : Live :=
  s.setSeq { Seq.reset with state := if s.level = 3 then .locked else .standby }

/-- The close or abort of the record is reported to the sequencer, which has its step-end prompt removed (R127). -/
def Live.seqClosed (T : Tables) (s : Live) : Live :=
  match s.seq.stepEndPrompt with
  | some n => s.seqEmpty.stepEndRemoval T n
  | none => s.seqEmpty

/-- A record is opened in AUTO mode (R127). -/
def Live.seqBegin (s : Live) : Live :=
  s.setSeq { Seq.reset with state := if s.level = 2 then .paused else .running }

/-- An accepted CLEAR_LOCKOUT (R135). -/
def Live.seqUnlock (s : Live) : Live :=
  match s.seq.state with
  | .locked => s.seqRest (if (s.openRecord.bind (·.plan)).isSome then .paused else .standby)
  | _ => s

end Sys2Proof.Machine
end

