-- ==== Sys2Proof/Machine/Stations.lean ====
section
/-! DEFINITION. What stations do to themselves (chapters 4 to 6): entering states, captures and their ends, tares and
their ends, and the hold, stop and release orders. Nothing here raises a fault. -/

namespace Sys2Proof.Machine

/-! ## Entering states -/

/-- A roller station's timers and counts stopped (R55, R71). -/
def RollerStation.stopTimers (x : RollerStation) : RollerStation :=
  { x with settleTimer := none, spinTimer := none, readyTimer := none, releaseTimer := none }

/-- A roller station stops its drums: DRIVE STOP, RELEASING, release timer at 0 (R67). -/
def Live.enterReleasing (T : Tables) (r : Roller) (s : Live) : Live :=
  let s1 := s.offerDrive T r false
  (s1.setRoller r { (s1.roller r).stopTimers with releaseTimer := some 0 }).enter T (stationOf r) .releasing

/-- A roller station enters READY, ready timer at 0 (R63, R87). -/
def Live.enterReady (T : Tables) (r : Roller) (s : Live) : Live :=
  (s.setRoller r { (s.roller r).stopTimers with readyTimer := some 0 }).enter T (stationOf r) .ready

/-- A roller station enters SETTLING, settle timer at 0; with the seated flag clear its history is emptied (R58, R59). -/
def Live.enterSettling (T : Tables) (r : Roller) (s : Live) : Live :=
  let x := (s.roller r).stopTimers
  let y := if x.seated then x else { x with histL := [], histR := [] }
  (s.setRoller r { y with settleTimer := some 0 }).enter T (stationOf r) .settling

/-- A roller station enters a state in which no timer runs. -/
def Live.enterStill (T : Tables) (r : Roller) (x : StationState) (s : Live) : Live :=
  (s.setRoller r (s.roller r).stopTimers).enter T (stationOf r) x

/-- A driven roller station becomes FAULTED, offering DRIVE STOP (R71). -/
def Live.faultDriven (T : Tables) (r : Roller) (s : Live) : Live := (s.offerDrive T r false).enterStill T r .faulted

/-- A station becomes OFFLINE: it loses its seated flag, history, ready counts, timers and crossing context (R55). -/
def Live.enterOffline (T : Tables) (st : Station) (s : Live) : Live :=
  match stationRoller st with
  | some r =>
    (s.setRoller r { (s.roller r).stopTimers with seated := false, readyL := 0, readyR := 0, histL := [], histR := [] }).enter
      T st .offline
  | none => ({ s with ps := { s.ps with crossing := none } }).enter T .ps .offline

/-! ## The capture context (R77, R79) -/

/-- The reductions of a side at the start of a capture. -/
def SideReduction.start : SideReduction :=
  { peak := 0, pedalAtPeak := none, count := 0, minimum := none, maximum := none, lockupRun := 0, lockup := false }

/-- A capture context as an accepted CAPTURE fills it (R79). -/
def Capture.start (c : CaptureSettings) (m : Marks) (order : Nat) : Capture :=
  { settings := c, marks := m, startOrder := order, timer := 0, pedal := none, left := .start, right := .start,
    rbLeft := .start, rbRight := .start, endReason := none }

/-- The station that holds the capture a MEASURING station takes part in: RA for a joint capture (R77). -/
def Live.captureHolder (r : Roller) (s : Live) : Option Roller :=
  match s.ra.capture with
  | some c => if c.settings.joint then some .ra else if (s.roller r).capture.isSome then some r else none
  | none => if (s.roller r).capture.isSome then some r else none

/-- The stations a capture runs on, RA first. -/
def captureStations (holder : Roller) (c : Capture) : List Roller := if c.settings.joint then [.ra, .rb] else [holder]

/-- The two sides of a station in a capture, left then right (R91). -/
def Capture.sides (c : Capture) (holder r : Roller) : SideReduction × SideReduction :=
  if r = holder then (c.left, c.right) else (c.rbLeft, c.rbRight)

/-- One side of a station in a capture. -/
def Capture.side (c : Capture) (holder r : Roller) : Side → SideReduction
  | .left => (c.sides holder r).1
  | .right => (c.sides holder r).2

/-- One side of a station in a capture set. -/
def Capture.setSide (c : Capture) (holder r : Roller) (d : Side) (x : SideReduction) : Capture :=
  if r = holder then (match d with | .left => { c with left := x } | .right => { c with right := x })
  else (match d with | .left => { c with rbLeft := x } | .right => { c with rbRight := x })

/-- A station's capture context replaced. -/
def Live.setCapture (r : Roller) (c : Option Capture) (s : Live) : Live := s.setRoller r { s.roller r with capture := c }

/-- Ovality of a side (R85). -/
def SideReduction.ovality (x : SideReduction) : Option Nat :=
  match x.maximum with
  | some mx => if mx = 0 then none else some (1000 * (mx - x.minimum.getD mx) / mx)
  | none => none

/-- The brake result of one station of a capture (R85, R92): the force count is the holder's FORCE_L count. -/
def Capture.result (c : Capture) (holder r : Roller) (reason : EndReason) : BrakeResult :=
  let l := (c.sides holder r).1
  let x := (c.sides holder r).2
  { testKind := c.settings.testKind, endReason := reason, forceCount := min 65535 c.left.count, peakL := l.peak,
    peakR := x.peak, pedalL := l.pedalAtPeak, pedalR := x.pedalAtPeak, ovalityL := l.ovality, ovalityR := x.ovality,
    lockupL := l.lockup, lockupR := x.lockup }

/-! ## The end of a capture (R85 to R89, R92) -/

/-- How a station leaves MEASURING. -/
inductive Leaving
  | ready
  | releasing
  | faulted
  deriving DecidableEq, Repr

/-- First phase: each station's part is written and judged, or marked (R85, R86, R88, R92). -/
def Live.captureWrite (T : Tables) (holder : Roller) (c : Capture) (reason : EndReason) (r : Roller) (s : Live) : Live :=
  if reason.normal then s.writeBrake T (stationOf r) c (c.result holder r reason)
  else s.markBrake (stationOf r) c.settings.part (interruptPart reason)

/-- Second phase: a station leaves MEASURING, offering its DRIVE STOP (R87, R88). -/
def Live.captureLeave (T : Tables) (how : Leaving) (r : Roller) (s : Live) : Live :=
  match how with
  | .ready => s.enterReady T r
  | .releasing => s.enterReleasing T r
  | .faulted => s.faultDriven T r

/-- Third phase: EVENT CAPTURE_END of a station with its axle (R89). -/
def Live.captureEvent (reason : EndReason) (r : Roller) (s : Live) : Live :=
  s.event .captureEnd (some (stationOf r)) (s.boundOrZero (stationOf r)) (endReasonCode reason)

/-- The first three phases of the end of the capture that `holder` holds. -/
def Live.captureStop (T : Tables) (holder : Roller) (c : Capture) (reason : EndReason) (how : Roller → Leaving)
    (s : Live) : Live :=
  let rs := captureStations holder c
  let s1 := rs.foldl (fun x r => x.captureWrite T holder c reason r)
    (s.setCapture holder (some { c with endReason := some reason }))
  let s2 := rs.foldl (fun x r => x.captureLeave T (how r) r) s1
  rs.foldl (fun x r => x.captureEvent reason r) s2

/-- The last phase: the report to the sequencer, and the context is emptied (R77, R89). That a joint capture is reported
once, after both EVENT frames, is the model's choice (log 60). -/
def Live.captureReport (T : Tables) (holder : Roller) (c : Capture) (reason : EndReason) (axle : Nat) (s : Live) : Live :=
  (s.seqCaptureEnd T holder c reason axle).setCapture holder none

/-- A capture ends, whole (R87, R88, R92). -/
def Live.endCapture (T : Tables) (holder : Roller) (reason : EndReason) (how : Roller → Leaving) (s : Live) : Live :=
  match (s.roller holder).capture with
  | some c =>
    (s.captureStop T holder c reason how).captureReport T holder c reason (s.boundOrZero (stationOf holder))
  | none => s

/-- How stations leave at a normal end, and at a SKIP (R87, R88). -/
def normalLeaving (c : CaptureSettings) (reason : EndReason) : Leaving :=
  if reason = .lockup ∨ c.autoRelease = true then .releasing else .ready

/-- Every capture in progress ends with a reason that sends its stations to RELEASING (R75, R88, R116). That RA's ends whole
before RB's is the model's choice (log 51). -/
def Live.endAllCaptures (T : Tables) (reason : EndReason) (s : Live) : Live :=
  (s.endCapture T .ra reason fun _ => .releasing).endCapture T .rb reason fun _ => .releasing

/-! ## The tare (R95 to R99) -/

/-- The tared roles of a station, in the order of R97. -/
def taredRoles : Station → List Role
  | .ps => [.plateDisp]
  | .ra | .rb => [.forceL, .forceR, .loadL, .loadR]

/-- The tared channels of a station as the map stands (R95). -/
def tareChannels (T : Tables) (st : Station) : List TareChannel :=
  (taredRoles st).filterMap fun role =>
    (T.entryOfRole (some st) role).map fun i => { entry := i, role := role, count := 0, sum := 0 }

/-- An offset by its role. -/
def Offsets.get (o : Offsets) : Role → Int
  | .forceL => o.forceL
  | .forceR => o.forceR
  | .loadL => o.loadL
  | .loadR => o.loadR
  | .plateDisp => o.plateDisp
  | _ => 0

/-- An offset set by its role. -/
def Offsets.put (o : Offsets) (role : Role) (v : Int) : Offsets :=
  match role with
  | .forceL => { o with forceL := v }
  | .forceR => { o with forceR := v }
  | .loadL => { o with loadL := v }
  | .loadR => { o with loadR := v }
  | .plateDisp => { o with plateDisp := v }
  | _ => o

/-- The mean of a tared channel at completion (R96). -/
def TareChannel.mean (c : TareChannel) : Int := c.sum.tdiv 64

/-- A channel's mean exceeds the tare limit of its entry (R96). -/
def TareChannel.fails (T : Tables) (c : TareChannel) : Bool :=
  match T.entries[c.entry]? with
  | some e => decide (c.mean.natAbs > e.tareLimit)
  | none => false

/-- A tare after its completion (R96). -/
def Tare.completed (t : Tare) (c : TareContext) : Tare :=
  { offsets := c.channels.foldl (fun o x => o.put x.role x.mean) t.offsets, age := some 0, ageMs := 0, stale := false,
    bar := false, context := none }

/-- A station leaves TARING at the end of its tare: for IDLE, or for OFFLINE after a service tare (R56, R96, R97). -/
def Live.leaveTaring (T : Tables) (st : Station) (service : Bool) (s : Live) : Live :=
  if service then s.enterOffline T st else s.enter T st .idle

/-- A tare completes with every mean within its limit (R96). -/
def Live.tareDone (T : Tables) (st : Station) (c : TareContext) (s : Live) : Live :=
  let s1 := (s.setTare st ((s.tare st).completed c)).endCondition .tareStale (.station st)
  ((s1.leaveTaring T st c.service).event .tareDone (some st) 0 0).seqTareEnd T st .done

/-- A tare in progress is discarded (R98, R99). -/
def Live.dropTare (st : Station) (s : Live) : Live := s.setTare st { s.tare st with context := none }

/-- EVENT TARE_ABORTED and the report to the sequencer (R98, R99). -/
def Live.tareAborted (T : Tables) (st : Station) (value : Int) (s : Live) : Live :=
  (s.offerEvent (eventFrame .tareAborted (some st) 0 (beSigned32 value))).seqTareEnd T st .aborted

/-! ## Orders of the fault action unit (R71, R72) -/

/-- A hold reaches one station; `held` are the stations that receive it with the same entry (R71, R92; log 18). -/
def Live.holdStation (T : Tables) (held : List Station) (s : Live) (st : Station) : Live :=
  match stationRoller st, s.stationState st with
  | _, .faulted => s
  | some r, .measuring =>
    match s.captureHolder r with
    | some h => s.endCapture T h .fault fun q => if stationOf q ∈ held then .faulted else .releasing
    | none => s.faultDriven T r
  | some r, .spinning | some r, .ready | some r, .releasing => s.faultDriven T r
  | some r, .taring => ((s.dropTare st).enterStill T r .faulted).tareAborted T st 0
  | some r, _ => s.enterStill T r .faulted
  | none, .taring => ((s.dropTare .ps).enter T .ps .faulted).tareAborted T .ps 0
  | none, _ => ({ s with ps := { s.ps with crossing := none } }).enter T .ps .faulted

/-- Holds reach stations in the order PS, RA, RB (log 35). -/
def Live.holdStations (T : Tables) (held : List Station) (s : Live) : Live := held.foldl (Live.holdStation T held) s

/-- A stop order reaches one roller station (R72). -/
def Live.stopStation (T : Tables) (s : Live) (r : Roller) : Live :=
  match (s.roller r).state with
  | .spinning | .ready => s.enterReleasing T r
  | .measuring =>
    match s.captureHolder r with
    | some h => s.endCapture T h .fault fun _ => .releasing
    | none => s.enterReleasing T r
  | _ => s

/-- A stop order reaches every station (R72). -/
def Live.stopStations (T : Tables) (s : Live) : Live := [Roller.ra, Roller.rb].foldl (Live.stopStation T) s

/-- A release from hold reaches a FAULTED station (R72). -/
def Live.releaseHold (T : Tables) (st : Station) (s : Live) : Live :=
  if s.mode = .service ∨ T.present st = false then s.enterOffline T st
  else match stationRoller st with
    | none => s.enter T st .idle
    | some r =>
      let sum := s.loadSum T r
      if ((s.roller r).seated = true ∧ sum ≥ T.settings.empty) ∨ sum ≥ T.settings.seat then s.enterSettling T r
      else s.enter T st .idle

/-- After entries have been removed, each FAULTED station that none covers is released (R157). -/
def Live.releaseStations (T : Tables) (s : Live) : Live :=
  stations.foldl (fun x st => if x.stationState st = .faulted ∧ x.covered T st = false then x.releaseHold T st else x) s

end Sys2Proof.Machine
end

