-- ==== Sys2Proof/Machine/Faults.lean ====
section
/-! DEFINITION. The fault action unit (chapter 10): raising a fault as one shared operation, its orders, the removal of
entries, and the raises that follow a station's entry into work (R49) and a stale tare (R100). -/

namespace Sys2Proof.Machine

/-! ## Raising (R154, R157) -/

/-- The station a scope names. -/
def scopeStation : Scope → Option Station
  | .station st => some st
  | .lane => none

/-- EVENT FAULT (R154, R190). -/
def faultEvent (src : Source) (scope : Scope) (a : Action) (again : Bool) (axle detail : Nat) : Frame :=
  eventFrame .fault (scopeStation scope) axle
    [byte (sourceCode src), byte (actionCode a), if again then 1 else 0, byte detail]

/-- The entry a raise makes (R155): a latched entry with its condition gone, a conditioned one present. -/
def newEntry (src : Source) (scope : Scope) (a : Action) (prompt : Option Nat) : FaultEntry :=
  { source := src, scope := scope, action := a, present := conditioned src, prompt := prompt }

/-- The stations that receive a hold when an entry is made (R157). -/
def heldBy (T : Tables) (e : FaultEntry) : List Station := stations.filter fun st => T.present st && e.covers T st

/-- The orders of a new entry (R157). The sequencer takes its order first: a pause is pending, or the lock in force, when a
step ends by what the stations then do (R134, R135; log 9). -/
def Live.giveOrders (T : Tables) (e : FaultEntry) (s : Live) : Live :=
  match e.action with
  | .hold => s.holdStations T (heldBy T e)
  | .stop => s.pauseOrder.stopStations T
  | .lock => s.lockOrder.holdStations T (heldBy T e)
  | .ignore | .note => s

/-- An entry is made: it joins the list, its orders are given, and its safety prompt is posted and linked (R154). -/
def Live.makeEntry (T : Tables) (e : FaultEntry) (s : Live) : Live :=
  let s1 := ({ s with faults := s.faults ++ [e] }).giveOrders T e
  match e.prompt with
  | some n => s1.postPrompt T n .fault false [(e.source, e.scope)]
  | none => s1

/-- The axle index of an EVENT FAULT: the bound axle of the scope station (R154). -/
def Live.scopeAxle (scope : Scope) (s : Live) : Nat := ((scopeStation scope).map s.boundOrZero).getD 0

/-- A repeat raise: a conditioned entry's condition is marked present (R154). -/
def Live.markPresent (src : Source) (scope : Scope) (s : Live) : Live :=
  { s with faults := s.faults.map fun e => if e.is src scope && conditioned src then { e with present := true } else e }

/-- A raise with the axle index its EVENT carries (R154). -/
def Live.raiseWith (T : Tables) (src : Source) (scope : Scope) (axle detail : Nat) (s : Live) : Live :=
  match s.faults.find? (·.is src scope) with
  | some e => (s.offerEvent (faultEvent src scope e.action true axle detail)).markPresent src scope
  | none =>
    match T.actionFor src with
    | .ignore => s
    | .note => s.offerEvent (faultEvent src scope .note false axle detail)
    | a =>
      (s.makeEntry T (newEntry src scope a (T.promptFor src))).offerEvent (faultEvent src scope a false axle detail)

/-- A raise of a source with a scope and a detail (R154). -/
def Live.raise (T : Tables) (src : Source) (scope : Scope) (detail : Nat) (s : Live) : Live :=
  s.raiseWith T src scope (s.scopeAxle scope) detail

/-- MISTRACK raised where the tracker asks for it (R107 to R111). -/
def Live.raiseMistrack (T : Tables) (st : Station) (x : Live × Bool) : Live :=
  if x.2 then x.1.raise T .mistrack (.station st) 0 else x.1

/-! ## Removing entries (R155, R157) -/

/-- The entries that satisfy a condition removed, each with its link (R155, R167). That the links go one by one in list
order, with a rendering at each change of head, is the model's choice (log 61, log 62). -/
def Live.removeEntries (T : Tables) (p : FaultEntry → Bool) (s : Live) : Live :=
  (s.faults.filter p).foldl (fun x e => x.unlink T e.source e.scope) { s with faults := s.faults.filter fun e => !p e }

/-! ## Silence at the start of work (R49) -/

/-- The silence monitor's raise of one entry: silent, its station at work, not yet raised (R49). -/
def Live.judgeEntrySilence (T : Tables) (i : Nat) (s : Live) : Live :=
  match T.entries[i]?, s.steer.channels[i]? with
  | some e, some c =>
    match e.station with
    | some st =>
      if e.enabled && c.silent && !c.silenceRaised && T.present st && (s.stationState st).atWork then
        ({ s with steer := { s.steer with channels := s.steer.channels.set i { c with silenceRaised := true } } }).raise T
          .headSilent (.station st) i
      else s
    | none => s
  | _, _ => s

/-- A station has entered SPINNING, READY, MEASURING or TARING: the silence of each of its entries is judged (R49). That the
entries are judged in the order of the channel map is the model's choice (log 50). -/
def Live.judgeSilence (T : Tables) (st : Station) (s : Live) : Live :=
  (List.range T.entries.length).foldl
    (fun x i => if (T.entries[i]?).bind (·.station) = some st then x.judgeEntrySilence T i else x) s

/-- After a capture has ended: stations that are READY have entered it (R49, R87). -/
def Live.judgeReady (T : Tables) (s : Live) : Live :=
  [Roller.ra, Roller.rb].foldl
    (fun x r => if (x.roller r).state = .ready then x.judgeSilence T (stationOf r) else x) s

/-- Work that a station's entry into TARING brings, after the sequencer knows of it: a tare without tared channels
completes at once, any other has the silence of its entries judged (R95, R96, R49). That the first judges no silence is the
model's choice (log 58). -/
def Live.startTare (T : Tables) (st : Station) (s : Live) : Live :=
  match (s.tare st).context with
  | some c => if c.channels.isEmpty then s.tareDone T st c else s.judgeSilence T st
  | none => s

/-! ## Stations come into use (R55, R157) -/

/-- A station that leaves OFFLINE for IDLE receives a hold within the same event if an entry covers it (R157). -/
def Live.coverIdle (T : Tables) (s : Live) (st : Station) : Live :=
  if s.stationState st = .idle ∧ s.covered T st = true then s.holdStation T [st] st else s

/-- A present station becomes IDLE from OFFLINE, and is held if covered (R55, R157). -/
def Live.bringUp (T : Tables) (s : Live) (st : Station) : Live :=
  if T.present st = true ∧ s.stationState st = .offline then (s.enter T st .idle).coverIdle T st else s

/-! ## Staleness (R100, R103) -/

/-- A present station's tare becomes STALE: TARE_STALE is raised if it was fresh (R100). -/
def Live.makeStale (T : Tables) (s : Live) (st : Station) : Live :=
  let t := s.tare st
  let s1 := s.setTare st { t with stale := true }
  if t.stale = false ∧ T.present st = true then s1.raise T .tareStale (.station st) 0 else s1

/-- The interval at or below which an age is STALE has been reached (R100). -/
def Tare.due (T : Tables) (t : Tare) : Bool :=
  match t.age with
  | some a => decide (T.settings.tareInterval ≤ a)
  | none => false

/-- A station has become present: its age is judged against the interval, and a STALE tare raises TARE_STALE (R100). -/
def Live.presentTare (T : Tables) (s : Live) (st : Station) : Live :=
  let t := s.tare st
  let s1 := if t.due T then s.setTare st { t with stale := true } else s
  if T.present st = true ∧ (s1.tare st).stale = true then s1.raise T .tareStale (.station st) 0 else s1

end Sys2Proof.Machine
end

