-- ==== Sys2Proof/Machine/Requests.lean ====
section
/-! DEFINITION. The answers of the stations to SPIN, CAPTURE, RELEASE and TARE (R61, R73, R90), whoever asks. A request
answers its effect without the silence judgement of the state entered, which `startWork` makes after the requester has
taken the answer (R49). -/

namespace Sys2Proof.Machine

/-! ## SPIN (R61, R63) -/

/-- An accepted SPIN (R63): the load part, SPINNING, DRIVE START, ready counts and spin timer; the bar focus moves
(R172). `manual` marks a load part written in MANUAL mode (R141). -/
def Live.acceptSpin (T : Tables) (r : Roller) (manual : Bool) (s : Live) : Live :=
  let s1 := (s.writeLoad r manual).offerDrive T r true
  let s2 := s1.setRoller r { (s1.roller r).stopTimers with readyL := 0, readyR := 0, spinTimer := some 0 }
  (s2.setGuide { s2.guide with focus := some r }).enter T (stationOf r) .spinning

/-- SPIN to a roller station (R61). -/
def Live.requestSpin (T : Tables) (r : Roller) (manual : Bool) (s : Live) : Answer × Live :=
  if s.level ≥ 2 then (.locked, s)
  else match (s.roller r).state with
    | .seated => (.accepted, s.acceptSpin T r manual)
    | .spinning | .ready | .measuring => (.noChange, s)
    | .settling | .releasing | .taring => (.busy, s)
    | .faulted => (.locked, s)
    | .idle | .offline | .crossing => (.state, s)

/-! ## CAPTURE (R61, R79, R90) -/

/-- A station enters MEASURING: its ready timer stops (R65). -/
def Live.enterMeasuring (T : Tables) (r : Roller) (s : Live) : Live := s.enterStill T r .measuring

/-- An accepted CAPTURE held by a station (R79, R90). -/
def Live.acceptCapture (T : Tables) (holder : Roller) (c : CaptureSettings) (m : Marks) (s : Live) : Live :=
  let x := Capture.start c m s.nextStart
  (captureStations holder x).foldl (fun y r => y.enterMeasuring T r)
    ({ s with nextStart := s.nextStart + 1 }.setCapture holder (some x))

/-- The station that holds a capture made to `r`: RA for a joint one (R90). -/
def holderOf (c : CaptureSettings) (r : Roller) : Roller := if c.joint then .ra else r

/-- CAPTURE to a roller station, its settings checked (R61, R90). -/
def Live.requestCapture (T : Tables) (r : Roller) (c : CaptureSettings) (m : Marks) (s : Live) : Answer × Live :=
  if c.joint then
    if s.ra.state = .ready ∧ s.rb.state = .ready then (.accepted, s.acceptCapture T .ra c m) else (.state, s)
  else match (s.roller r).state with
    | .ready => (.accepted, s.acceptCapture T r c m)
    | .measuring => (.busy, s)
    | .faulted => (.locked, s)
    | _ => (.state, s)

/-! ## RELEASE (R61, R67) -/

/-- RELEASE to a roller station. -/
def Live.requestRelease (T : Tables) (r : Roller) (s : Live) : Answer × Live :=
  match (s.roller r).state with
  | .spinning | .ready => (.accepted, s.enterReleasing T r)
  | .measuring =>
    match s.captureHolder r with
    | some h => (.accepted, s.endCapture T h .released fun _ => .releasing)
    | none => (.accepted, s.enterReleasing T r)
  | .offline => (.state, s)
  | _ => (.noChange, s)

/-! ## TARE (R56, R61, R73, R95) -/

/-- An accepted TARE: TARING with a fresh context; one from the sequencer or the host clears the bar (R95, R102). -/
def Live.acceptTare (T : Tables) (st : Station) (service clearBar : Bool) (s : Live) : Live :=
  let t := s.tare st
  (s.setTare st { t with context := some { service := service, channels := tareChannels T st },
                         bar := t.bar && !clearBar }).enter T st .taring

/-- TARE to a station (R56, R61, R73). -/
def Live.requestTare (T : Tables) (st : Station) (clearBar : Bool) (s : Live) : Answer × Live :=
  match s.stationState st with
  | .idle => (.accepted, s.acceptTare T st false clearBar)
  | .taring => (.noChange, s)
  | .faulted => (.locked, s)
  | .offline =>
    if s.mode = .service ∧ T.present st = true then (.accepted, s.acceptTare T st true clearBar) else (.state, s)
  | _ => (.state, s)

/-! ## After an accepted request -/

/-- The silence of a station's entries is judged as it begins to spin or to measure (R49). -/
def Live.startWork (T : Tables) (st : Station) (a : Answer) (s : Live) : Live :=
  match a with
  | .accepted => if (s.stationState st).driven then s.judgeSilence T st else s
  | _ => s

/-- The same for a capture, on every station it runs on, RA first. -/
def Live.startCapture (T : Tables) (r : Roller) (c : CaptureSettings) (a : Answer) (s : Live) : Live :=
  (if c.joint then [Roller.ra, Roller.rb] else [r]).foldl (fun x q => x.startWork T (stationOf q) a) s

/-- A tare begins (R49, R95, R96). -/
def Live.beginTare (T : Tables) (st : Station) (a : Answer) (s : Live) : Live :=
  match a with
  | .accepted => s.startTare T st
  | _ => s

/-- The status of a request by its answer (R61). -/
def answerStatus : Answer → Status
  | .accepted | .noChange => .ok
  | .busy => .busy
  | .state => .state
  | .locked => .locked
  | .arg => .arg

end Sys2Proof.Machine
end

