-- ==== Sys2Proof/Machine/Delivery.lean ====
section
/-! DEFINITION. What a station does with a value delivered to it (R45): the tare (R95 to R98), seating and exit (R58 to
R60), readiness and release (R63, R67), the capture (R80 to R82, R91) and the plate crossing (R73, R74). -/

namespace Sys2Proof.Machine

/-! ## Exits (R60, R68, R111) -/

/-- An exit is reported: the seated flag is cleared, the tracker moves the axle, the sequencer is told. The answer's flag
asks for MISTRACK (R111). -/
def Live.reportExit (T : Tables) (r : Roller) (s : Live) : Live × Bool :=
  let x := (s.setRoller r { s.roller r with seated := false }).trackExit T r
  (x.1.seqExit T (stationOf r), x.2)

/-- MISTRACK raised where the exit asks for it: its EVENT carries the axle that was bound before the exit, for the
binding is cleared last (R111, R154; log 43). -/
def Live.raiseExitMistrack (T : Tables) (r : Roller) (axle : Nat) (x : Live × Bool) : Live :=
  if x.2 then x.1.raiseWith T .mistrack (.station (stationOf r)) axle 0 else x.1

/-- An exit reported where the seated flag is set, with the raise it may ask for (R60). -/
def Live.exitIfSeated (T : Tables) (r : Roller) (s : Live) : Live :=
  if (s.roller r).seated then Live.raiseExitMistrack T r (s.boundOrZero (stationOf r)) (s.reportExit T r) else s

/-- AXLE_LOST (R68): the capture is aborted, the drums are stopped, the exit is reported, and the fault is raised with
the axle bound before the exit. -/
def Live.axleLost (T : Tables) (r : Roller) (s : Live) : Live :=
  let axle := s.boundOrZero (stationOf r)
  let held := if (s.roller r).state = .measuring then (s.captureHolder r).bind fun h =>
      ((s.roller h).capture).map fun c => (h, c) else none
  let x := match held with
    | some (h, c) =>
      let e := (s.captureStop T h c .axleLost fun _ => .releasing).reportExit T r
      (e.1.captureReport T h c .axleLost (s.boundOrZero (stationOf h)), e.2)
    | none => (s.enterReleasing T r).reportExit T r
  (Live.raiseExitMistrack T r axle x).raiseWith T .axleLost (.station (stationOf r)) axle 0

/-! ## The tare takes a value (R95 to R97) -/

/-- A tared channel after one more calibrated value: at a count of 64 it takes no more (R95). -/
def TareChannel.take (entry : Nat) (cal : Int) (c : TareChannel) : TareChannel :=
  if c.entry = entry ∧ c.count < Config.tareCount then { c with count := c.count + 1, sum := c.sum + cal } else c

/-- A tare ends by range failure (R97): `entry` is the first failing channel's. -/
def Live.tareRange (T : Tables) (st : Station) (c : TareContext) (entry : Nat) (s : Live) : Live :=
  let s1 := (s.setTare st { s.tare st with context := none, bar := true }).leaveTaring T st c.service
  (s1.raise T .tareRange (.station st) entry).seqTareEnd T st .range

/-- The tare of a station takes a value of a tared channel, and may complete (R95, R96, R97). -/
def Live.tareTake (T : Tables) (st : Station) (entry : Nat) (cal : Int) (s : Live) : Live :=
  match s.stationState st, (s.tare st).context with
  | .taring, some c =>
    if c.channels.any (fun x => x.entry == entry && decide (x.count < Config.tareCount)) then
      let c1 := { c with channels := c.channels.map (TareChannel.take entry cal) }
      if c1.channels.all (fun x => x.count == Config.tareCount) then
        match c1.channels.find? (·.fails T) with
        | some x => s.tareRange T st c1 x.entry
        | none => s.tareDone T st c1
      else s.setTare st { s.tare st with context := some c1 }
    else s
  | _, _ => s

/-! ## Load, seating and exit (R58, R59, R60, R98) -/

/-- A load history with one more value (R58). -/
def joinHistory (h : List Int) (v : Int) : List Int :=
  if h.length < Config.loadHistory then h ++ [v] else h.drop 1 ++ [v]

/-- A rising load aborts a tare (R56, R98). -/
def Live.tareInterrupted (T : Tables) (r : Roller) (sum : Int) (s : Live) : Live :=
  let st := stationOf r
  let service := ((s.tare st).context.map (·.service)).getD false
  let s1 := s.dropTare st
  let s2 := if service then s1.enterOffline T st else s1.enterSettling T r
  s2.tareAborted T st sum

/-- The load sum is judged (R59, R60, R68, R98). -/
def Live.judgeLoad (T : Tables) (r : Roller) (s : Live) : Live :=
  let sum := s.loadSum T r
  let low := decide (sum < T.settings.empty)
  let high := decide (sum ≥ T.settings.seat)
  match (s.roller r).state with
  | .idle => if high then s.enterSettling T r else s
  | .settling | .seated => if low then (s.enterStill T r .idle).exitIfSeated T r else s
  | .spinning | .ready | .measuring => if low then s.axleLost T r else s
  | .releasing | .faulted => if low then s.exitIfSeated T r else s
  | .taring => if high then s.tareInterrupted T r sum else s
  | .offline | .crossing => s

/-- A LOAD value joins its side's history, and the load sum is judged (R58). -/
def Live.takeLoad (T : Tables) (r : Roller) (d : Side) (v : Int) (s : Live) : Live :=
  let x := s.roller r
  let y := match d with
    | .left => { x with histL := joinHistory x.histL v }
    | .right => { x with histR := joinHistory x.histR v }
  (s.setRoller r y).judgeLoad T r

/-! ## Drums (R63, R67) -/

/-- The release is complete (R67). -/
def Live.releaseComplete (T : Tables) (r : Roller) (s : Live) : Live :=
  let sum := s.loadSum T r
  if sum < T.settings.empty then s.enterStill T r .idle
  else if (s.roller r).seated then s.enterStill T r .seated
  else if sum ≥ T.settings.seat then s.enterSettling T r
  else s.enterStill T r .idle

/-- Both latest DRUM values are below the stopped speed; an absent one counts as 0 (R67). -/
def Live.drumsStopped (T : Tables) (r : Roller) (s : Live) : Bool :=
  let below := fun (role : Role) => decide ((s.latest T (stationOf r) role).getD 0 < T.settings.stopped)
  below .drumL && below .drumR

/-- A ready count after a DRUM value (R63). -/
def readyCount (T : Tables) (n : Nat) (v : Int) : Nat := if v ≥ T.settings.ready then n + 1 else 0

/-- A DRUM value delivered to a roller station (R63, R65, R67). -/
def Live.takeDrum (T : Tables) (r : Roller) (d : Side) (v : Int) (s : Live) : Live :=
  let x := s.roller r
  match x.state with
  | .spinning =>
    let y := match d with
      | .left => { x with readyL := readyCount T x.readyL v }
      | .right => { x with readyR := readyCount T x.readyR v }
    let s1 := s.setRoller r y
    if 5 ≤ y.readyL ∧ 5 ≤ y.readyR then (s1.enterReady T r).judgeSilence T (stationOf r) else s1
  | .releasing => if s.drumsStopped T r then s.releaseComplete T r else s
  | _ => s

/-! ## The capture takes a value (R80, R81, R82, R91) -/

/-- The capture of a MEASURING station and the station that holds it. -/
def Live.measuringCapture (r : Roller) (s : Live) : Option (Roller × Capture) :=
  if (s.roller r).state = .measuring then
    (s.captureHolder r).bind fun h => ((s.roller h).capture).map fun c => (h, c)
  else none

/-- The smaller of a value and a minimum that may be absent. -/
def minWith (o : Option Nat) (v : Nat) : Option Nat := some (match o with | some m => min m v | none => v)

/-- The greater of a value and a maximum that may be absent. -/
def maxWith (o : Option Nat) (v : Nat) : Option Nat := some (match o with | some m => max m v | none => v)

/-- The reductions of a side after a FORCE value (R80, steps 1 to 3). -/
def SideReduction.force (x : SideReduction) (pedal : Option Nat) (v : Nat) : SideReduction :=
  let spread := decide (x.count + 1 > Config.settlingValues)
  { x with
    count := x.count + 1,
    peak := if v > x.peak then v else x.peak,
    pedalAtPeak := if v > x.peak then pedal else x.pedalAtPeak,
    minimum := if spread then minWith x.minimum v else x.minimum,
    maximum := if spread then maxWith x.maximum v else x.maximum }

/-- What a FORCE value ends the capture with (R80, steps 4 and 5; R91). -/
def forceEnd (c : Capture) (holder r : Roller) (d : Side) (v : Nat) : Option EndReason :=
  if (match c.settings.ceiling with | some n => decide (n ≤ v) | none => false) then some .ceiling
  else if r = holder ∧ d = .left then
    match c.settings.length with
    | some n => if n ≤ c.left.count then some .count else none
    | none => none
  else none

/-- A capture after a value: it goes on, or ends normally, and stations back in READY have their silence judged (R49). -/
def Live.goOn (T : Tables) (h : Roller) (c : Capture) (e : Option EndReason) (s : Live) : Live :=
  let s1 := s.setCapture h (some c)
  match e with
  | some reason => (s1.endCapture T h reason fun _ => normalLeaving c.settings reason).judgeReady T
  | none => s1

/-- A FORCE value delivered to a roller station (R80). -/
def Live.takeForce (T : Tables) (r : Roller) (d : Side) (v : Int) (s : Live) : Live :=
  match s.measuringCapture r with
  | some (h, c) =>
    let c1 := c.setSide h r d ((c.side h r d).force c.pedal v.toNat)
    s.goOn T h c1 (forceEnd c1 h r d v.toNat)
  | none => s

/-- A PEDAL value delivered to a roller station (R81); a joint capture takes RA's alone (R91). -/
def Live.takePedal (T : Tables) (r : Roller) (v : Int) (s : Live) : Live :=
  match s.measuringCapture r with
  | some (h, c) =>
    if h = r then
      s.goOn T h { c with pedal := some v.toNat }
        (match c.settings.pedalTarget with | some n => if n ≤ v.toNat then some .pedal else none | none => none)
    else s
  | none => s

/-- The DRUM role of a side. -/
def drumRole : Side → Role
  | .left => .drumL
  | .right => .drumR

/-- The lockup run of a side after a WHEEL value (R82). -/
def lockupRun (T : Tables) (run : Nat) (drum : Option Int) (wheel : Int) : Nat :=
  match drum with
  | none => 0
  | some dv =>
    if 2 * dv < T.settings.ready then 0
    else if (1000 * (dv - wheel)).tdiv dv ≥ T.settings.lockup then run + 1 else 0

/-- A WHEEL value delivered to a roller station (R82). -/
def Live.takeWheel (T : Tables) (r : Roller) (d : Side) (v : Int) (s : Live) : Live :=
  match s.measuringCapture r with
  | some (h, c) =>
    let x := c.side h r d
    let run := lockupRun T x.lockupRun (s.latest T (stationOf r) (drumRole d)) v
    let locked := decide (3 ≤ run)
    s.goOn T h (c.setSide h r d { x with lockupRun := run, lockup := x.lockup || locked })
      (if locked then some .lockup else none)
  | none => s

/-- A value delivered to a roller station: first the tare, then the station (R95). -/
def Live.deliverRoller (T : Tables) (r : Roller) (role : Role) (entry : Nat) (cal v : Int) (s : Live) : Live :=
  let s1 := s.tareTake T (stationOf r) entry cal
  match role with
  | .loadL => s1.takeLoad T r .left v
  | .loadR => s1.takeLoad T r .right v
  | .forceL => s1.takeForce T r .left v
  | .forceR => s1.takeForce T r .right v
  | .drumL => s1.takeDrum T r .left v
  | .drumR => s1.takeDrum T r .right v
  | .wheelL => s1.takeWheel T r .left v
  | .wheelR => s1.takeWheel T r .right v
  | _ => s1

/-! ## The plate station (R73, R74) -/

/-- PS replaced. -/
def Live.setPS (x : PlateStation) (s : Live) : Live := { s with ps := x }

/-- A crossing begins (R74). -/
def Live.startCrossing (T : Tables) (d : Direction) (s : Live) : Live :=
  (s.setPS { s.ps with crossing := some { direction := d, peak := none, stale := none } }).enter T .ps .crossing

/-- A peak displacement after a value (R74). -/
def takePeak (peak : Option Int) (v : Int) : Option Int :=
  match peak with
  | none => some v
  | some p => if v.natAbs > p.natAbs then some v else some p

/-- Side-slip in 0.1 m/km (R74). -/
def sideSlip (T : Tables) (peak : Int) : Int := (peak * 1000).tdiv T.settings.plateLength

/-- The crossing ends (R74): it is reported to the tracker, and PS returns to IDLE (log 20). -/
def Live.endCrossing (T : Tables) (c : Crossing) (s : Live) : Live :=
  let stale := s.ps.tare.stale
  let m := c.peak.map fun p => ({ peak := p, slip := sideSlip T p } : PlateValues)
  let x := s.takeCrossing T c.direction m stale
  let slip := match c.direction, m with
    | .forward, some v => some v.slip
    | _, _ => x.1.ps.lastSlip
  Live.raiseMistrack T .ps ((x.1.setPS { x.1.ps with crossing := none, lastSlip := slip }).enter T .ps .idle, x.2)

/-- A contact rise aborts a tare: a crossing starts, or PS returns to OFFLINE after a service tare (R73, R98). -/
def Live.riseInTare (T : Tables) (d : Direction) (s : Live) : Live :=
  let service := (s.ps.tare.context.map (·.service)).getD false
  let s1 := s.dropTare .ps
  (if service then s1.enterOffline T .ps else s1.startCrossing T d).tareAborted T .ps 0

/-- A contact value delivered to PS (R73, R74); FORWARD is PLATE_ENTRY. -/
def Live.takeContact (T : Tables) (d : Direction) (closed : Bool) (s : Live) : Live :=
  let before := match d with | .forward => s.ps.contactIn | .reverse => s.ps.contactOut
  let rise := closed && !before
  let s1 := s.setPS (match d with
    | .forward => { s.ps with contactIn := closed }
    | .reverse => { s.ps with contactOut := closed })
  match s1.ps.state with
  | .idle => if rise then s1.startCrossing T d else s1
  | .taring => if rise then s1.riseInTare T d else s1
  | .crossing =>
    match s1.ps.crossing with
    | some c => if s1.ps.contactIn || s1.ps.contactOut then s1 else s1.endCrossing T c
    | none => s1
  | _ => s1

/-- A PLATE_DISP value delivered to PS (R74, R95). -/
def Live.takeDisplacement (T : Tables) (entry : Nat) (cal v : Int) (s : Live) : Live :=
  let s1 := s.tareTake T .ps entry cal
  match s1.ps.state, s1.ps.crossing with
  | .crossing, some c => s1.setPS { s1.ps with crossing := some { c with peak := takePeak c.peak v } }
  | _, _ => s1

end Sys2Proof.Machine
end

