-- ==== Sys2Proof/Machine/PlanWalk.lean ====
section
/-! DEFINITION. The lane sequencer's own events (chapter 8): taking a unit, the timeout of an AWAIT, the remote's
buttons. -/

namespace Sys2Proof.Machine

/-! ## Taking a unit (R128 to R131) -/

/-- The plan ends, or a CLOSE step is taken: the OPEN record is closed without FORCED (R116, R131). -/
def Live.planClose (T : Tables) (s : Live) : Live := ((s.endAllCaptures T .closed).closeRecord T).seqClosed T

/-- The sequencer WAITING on something, which is judged at once (R128, R129, R130). -/
def Live.seqWaits (T : Tables) (w : SeqWait) (st : Station) (s : Live) : Live :=
  (s.setSeq { s.seq with state := .waiting, wait := some w }).waitSees T st

/-- The answer to a unit's request (R128); `w` is what the sequencer waits on where the step's wait flag is set. -/
def Live.seqAnswered (T : Tables) (st : Station) (w : Option SeqWait) (a : Answer) (s : Live) : Live :=
  match a with
  | .accepted | .noChange =>
    match w with
    | some x => s.seqWaits T x st
    | none => s.stepDone T
  | .busy => s.setSeq { s.seq with state := .waiting, wait := some (.busy st) }
  | .locked => if s.stationState st = .faulted then s.seqHold st else s.seqRest .paused
  | .state | .arg => s.seqHalt T

/-- Something if a flag is set. -/
def whenSet {α : Type} (flag : Bool) (a : α) : Option α := if flag then some a else none

/-- A SPIN step (R124, R128). -/
def Live.takeSpin (T : Tables) (r : Roller) (wait : Bool) (s : Live) : Live :=
  let st := stationOf r
  let x := s.requestSpin T r false
  (x.2.seqAnswered T st (whenSet wait (.spin st)) x.1).startWork T st x.1

/-- A RELEASE step. -/
def Live.takeRelease (T : Tables) (r : Roller) (wait : Bool) (s : Live) : Live :=
  let st := stationOf r
  let x := s.requestRelease T r
  x.2.seqAnswered T st (whenSet wait (.release st)) x.1

/-- A TARE step: the sequencer waits before a tare without channels completes (R95, R129). -/
def Live.takeTare (T : Tables) (st : Station) (wait : Bool) (s : Live) : Live :=
  let x := s.requestTare T st true
  (x.2.seqAnswered T st (whenSet wait (.tare st)) x.1).beginTare T st x.1

/-- A CAPTURE step (R128, R136, R139): an accepted one is recorded as the plan capture of the station that holds it. -/
def Live.takeCapture (T : Tables) (p : Plan) (u : PlanUnit) (r : Roller) (b : List Byte) (s : Live) : Live :=
  let c := captureSettings b u.mods.part u.mods.limitRow
  let h := holderOf c r
  let marked := s.seq.repeatMark == some s.seq.pointer
  let s1 := if marked then s.setSeq { s.seq with repeatMark := none } else s
  let x := s1.requestCapture T r c { repeated := marked, manual := false }
  let s2 := match x.1 with
    | .accepted =>
      x.2.setSeq (x.2.seq.setPlanCapture h (some { step := u.step, restart := p.restartPoint s.seq.pointer u.station }))
    | _ => x.2
  (s2.seqAnswered T (stationOf r) (whenSet (captureWait b) (.capture h)) x.1).startCapture T r c x.1

/-- A PROMPT step (R131). -/
def Live.takePrompt (T : Tables) (n : Nat) (stepEnd : Bool) (s : Live) : Live :=
  let s1 := s.postPrompt T n .step stepEnd []
  (if stepEnd then s1.setSeq { s1.seq with stepEndPrompt := some n } else s1).stepDone T

/-- The number of DONE axles of a record. -/
def VehicleRecord.doneCount (r : VehicleRecord) : Nat := r.axles.countP (·.state == .done)

/-- An ADVANCE step (R131): while fewer axles are DONE than expected it jumps to the loop start. -/
def Live.takeAdvance (T : Tables) (p : Plan) (s : Live) : Live :=
  match s.openRecord with
  | some r =>
    if r.doneCount < r.expected then
      s.setSeq { s.seq with pointer := p.loopStart, mods := none, armedSkip := none, repeatMark := none }
    else s.stepDone T
  | none => s

/-- An AWAIT step (R130): its timer starts at 0. -/
def Live.takeAwait (T : Tables) (c : AwaitCondition) (st : Station) (timeout : Nat) (halt : Bool) (s : Live) : Live :=
  (s.setSeq { s.seq with awaitTimer := some 0 }).seqWaits T (.await c st timeout halt) st

/-- A step whose request goes to a roller station; to the plate station it is answered ARG (R73). -/
def Live.onRoller (T : Tables) (st : Station) (f : Roller → Live → Live) (s : Live) : Live :=
  match stationRoller st with
  | some r => f r s
  | none => s.seqHalt T

/-- Step 6 of R128: the step is taken. -/
def Live.takeStep (T : Tables) (p : Plan) (u : PlanUnit) (s : Live) : Live :=
  match u.record, u.station with
  | .seat _, some st => s.seqWaits T (.seat st) st
  | .spin _ w, some st => s.onRoller T st fun r x => x.takeSpin T r w
  | .capture _ b, some st => s.onRoller T st fun r x => x.takeCapture T p u r b
  | .release _ w, some st => s.onRoller T st fun r x => x.takeRelease T r w
  | .tare _ w, some st => s.takeTare T st w
  | .await c t h, some st => s.takeAwait T c st t h
  | .prompt n e, _ => s.takePrompt T n e
  | .advance, _ => s.takeAdvance T p
  | .close, _ => s.planClose T
  | _, _ => s.seqHalt T

/-- The stations a CAPTURE unit measures: RA and RB for a joint one (R140). -/
def captureUnitStations (c : CaptureSettings) (st : Option Station) : List Station :=
  if c.joint then [.ra, .rb] else st.toList

/-- The armed skip is reached (R140): its parts are marked SKIPPED, no request is made. -/
def Live.takeSkipped (u : PlanUnit) (b : List Byte) (s : Live) : Live :=
  let c := captureSettings b u.mods.part u.mods.limitRow
  let s1 := (captureUnitStations c u.station).foldl (fun x st => x.markBrake st c.part skipPart) s
  s1.setSeq { s1.seq with
    armedSkip := none, mods := none, pointer := u.step + 1,
    repeatMark := if s1.seq.repeatMark = some s1.seq.pointer then none else s1.seq.repeatMark }

/-- A SEAT, or an AWAIT with a station condition (R128 step 5). -/
def PlanStep.needsStation : PlanStep → Bool
  | .seat _ => true
  | .await .stationReady _ _ | .await .stationSeated _ _ | .await .axleExit _ _ => true
  | _ => false

/-- A unit's station is in a state. -/
def Live.unitStationIs (u : PlanUnit) (x : StationState) (s : Live) : Bool :=
  match u.station with
  | some st => s.stationState st == x
  | none => false

/-- Steps 3 to 6 of R128. -/
def Live.judgeUnit (T : Tables) (p : Plan) (u : PlanUnit) (s : Live) : Live :=
  match u.station.filter (fun st => s.stationState st == .faulted) with
  | some st => s.seqHold st
  | none =>
    match u.record, s.seq.armedSkip == some s.seq.pointer with
    | .capture _ b, true => s.takeSkipped u b
    | _, _ => if u.record.needsStation && s.unitStationIs u .offline then s.seqHalt T else s.takeStep T p u

/-- The RUNNING sequencer takes the unit at its step pointer; where there is none, the plan has ended (R128). -/
def Live.takeUnit (T : Tables) (s : Live) : Live :=
  match s.plan? T with
  | none => s
  | some p =>
    match p.unitAt s.seq.pointer with
    | none => s.planClose T
    | some u =>
      if s.level = 3 then s.seqRest .locked
      else if s.level = 2 then s.seqRest .paused
      else (s.setSeq { s.seq with mods := some u.mods }).judgeUnit T p u

/-! ## The timeout of an AWAIT (R130) -/

/-- The await timer has reached the timeout (R130). -/
def Live.awaitExpires (T : Tables) (c : AwaitCondition) (st : Station) (halt : Bool) (s : Live) : Live :=
  match c with
  | .delay => s.stepDone T
  | _ =>
    if halt then s.seqHalt T
    else
      match s.currentUnit T with
      | some u => (s.event .awaitTimeout (some st) 0 u.step).stepDone T
      | none => s

/-! ## Buttons (R84, R138, R139, R140) -/

/-- The captures in progress that hold OPERATOR, with their start orders. -/
def Live.operatorCapture? (r : Roller) (s : Live) : Option (Nat × Roller × Capture) :=
  match (s.roller r).capture with
  | some c => if c.settings.operator then some (c.startOrder, r, c) else none
  | none => none

/-- The operator capture with the greatest start order (R84). -/
def Live.latestOperatorCapture (s : Live) : Option (Roller × Capture) :=
  match s.operatorCapture? .ra, s.operatorCapture? .rb with
  | some (n, a), some (m, b) => some (if n < m then b else a)
  | some (_, a), none => some a
  | none, some (_, b) => some b
  | none, none => none

/-- The sequencer waits in an AWAIT CONFIRM. -/
def Seq.awaitsConfirm (q : Seq) : Bool :=
  q.state == .waiting && (match q.wait with | some (.await .confirm _ _ _) => true | _ => false)

/-- CONFIRM (R84, R138). -/
def Live.takeConfirm (T : Tables) (s : Live) : Live :=
  match s.latestOperatorCapture with
  | some (h, c) => (s.endCapture T h .operator fun _ => normalLeaving c.settings .operator).judgeReady T
  | none => if s.seq.awaitsConfirm then s.stepDone T else s.buttonIgnored buttonConfirmCode

/-- The sequencer takes REPEAT and SKIP in RUNNING, WAITING and HALTED (R139, R140). -/
def SeqState.takesButtons (x : SeqState) : Bool := x == .running || x == .waiting || x == .halted

/-- REPEAT (R139). -/
def Live.takeRepeat (T : Tables) (s : Live) : Live :=
  if s.seq.state.takesButtons then
    if s.seq.inside then
      if s.seq.pendingRepeat then s.buttonIgnored buttonRepeatCode
      else s.setSeq { s.seq with pendingRepeat := true }
    else s.actRepeat T
  else s.buttonIgnored buttonRepeatCode

/-- The next CAPTURE becomes the armed skip (R140). -/
def Live.armSkip (T : Tables) (s : Live) : Live :=
  match s.plan? T with
  | some p =>
    match p.nextCapture s.seq.pointer with
    | some i => s.setSeq { s.seq with armedSkip := some (unitStartOf p.used i) }
    | none => s.buttonIgnored buttonSkipCode
  | none => s.buttonIgnored buttonSkipCode

/-- The current CAPTURE is given up (R140). -/
def Live.skipCurrent (T : Tables) (r : Roller) (s : Live) : Live :=
  match (s.roller r).capture with
  | some c => (s.endCapture T r .skip fun _ => normalLeaving c.settings .skip).judgeReady T
  | none => s

/-- SKIP (R140). -/
def Live.takeSkip (T : Tables) (s : Live) : Live :=
  if s.seq.state.takesButtons then
    match s.seq.state, s.seq.wait with
    | .waiting, some (.capture r) => s.skipCurrent T r
    | _, _ => s.armSkip T
  else s.buttonIgnored buttonSkipCode

end Sys2Proof.Machine
end

