-- ==== Sys2Proof/Machine/Print.lean ====
section
/-! DEFINITION. The composer and the print line (chapter 12): page drawing, the print queue, jobs, the handshake, printer
faults. -/

namespace Sys2Proof.Machine

/-! ## Fields (R177) -/

/-- A field's value before it is formatted. -/
inductive FieldValue
  | number (v : Int)
  | text (t : List Byte)
  | absent
  deriving DecidableEq, Repr

/-- An optional number as a field value. -/
def FieldValue.ofNat? (o : Option Nat) : FieldValue :=
  match o with
  | some n => .number n
  | none => .absent

/-- The word of an axle kind. -/
def kindWord : AxleKind → List Byte
  | .steer => [0x53, 0x54, 0x45, 0x45, 0x52]
  | .drive => [0x44, 0x52, 0x49, 0x56, 0x45]
  | .tag => [0x54, 0x41, 0x47]
  | .trailer => [0x54, 0x52, 0x41, 0x49, 0x4C, 0x45, 0x52]

/-- The word FORCED. -/
def forcedWord : List Byte := [0x46, 0x4F, 0x52, 0x43, 0x45, 0x44]

/-- One hexadecimal digit, 0-9 and A-F. -/
def hexDigit (n : Nat) : Byte := if n < 10 then byte (0x30 + n) else byte (0x41 + (n - 10))

/-- The check code as four hexadecimal digits. -/
def hexText (c : Half) : List Byte :=
  [hexDigit (c.toNat / 4096 % 16), hexDigit (c.toNat / 256 % 16), hexDigit (c.toNat / 16 % 16), hexDigit (c.toNat % 16)]

/-- An optional text as a field value. -/
def FieldValue.ofText? (o : Option (List Byte)) : FieldValue :=
  match o with
  | some t => .text t
  | none => .absent

/-- A verdict as a field value; an absent verdict is absent. -/
def FieldValue.ofVerdict (v : Verdict) : FieldValue :=
  match v with
  | .absent => .absent
  | _ => .text (verdictWord v)

/-- The verdict of a part by its code (log 14). -/
def AxleRecord.partVerdictOf (a : AxleRecord) (part : Nat) : Verdict := (a.parts.map (·.2)).getD part .absent

/-- The value of an axle field (R177). A part without values holds the verdict ABSENT, so its word is drawn (log 41). -/
def axleField (a : AxleRecord) (field part : Nat) : FieldValue :=
  match field with
  | 13 => .number a.index
  | 14 => .text (kindWord a.kind)
  | 15 => .ofVerdict a.verdict
  | 16 => match a.plate.values with | some v => .number v.slip | none => .absent
  | 17 => .ofNat? (a.load.values.map (·.axle))
  | 18 => .ofNat? (a.service.values.map (·.peakL))
  | 19 => .ofNat? (a.service.values.map (·.peakR))
  | 20 => .ofNat? (a.parking.values.map (·.peakL))
  | 21 => .ofNat? (a.parking.values.map (·.peakR))
  | 22 => .ofNat? (a.ovality.values.bind (·.ovalityL))
  | 23 => .ofNat? (a.ovality.values.bind (·.ovalityR))
  | 24 => .text (verdictWord (a.partVerdictOf part))
  | _ => .absent

/-- The value of a field by its code, in the order of R177; `axle` is that of the repetition. The digits of CHECK_CODE are
drawn as a text (log 55). -/
def fieldValue (j : Job) (r : VehicleRecord) (axle : Option AxleRecord) (field part : Nat) : FieldValue :=
  match field with
  | 0 => .number (slotNumber j.slot)
  | 1 => .number r.cls
  | 2 => .number r.axles.length
  | 3 => .ofText? r.ident
  | 4 => .ofText? r.date
  | 5 => .ofText? r.operator
  | 6 => .ofNat? r.totalLoad
  | 7 => .ofNat? r.serviceEff
  | 8 => .ofNat? r.parkingEff
  | 9 => .ofVerdict r.verdict
  | 10 => if r.forced then .text forcedWord else .absent
  | 11 => match r.checkCode with | some c => .text (hexText c) | none => .absent
  | 12 => .number j.copyNumber
  | _ => match axle with | some a => axleField a field part | none => .absent

/-- A field's characters: format 1 is TENTHS (R177). -/
def formatField (v : FieldValue) (fmt width : Nat) : List Byte :=
  match v with
  | .number i => fitRight width (if fmt = 1 then tenthsText i else numberText i)
  | .text t => fitLeft width t
  | .absent => dashes width

/-! ## Dots (R175, R176, R178) -/

/-- What a placement does to a dot. -/
inductive Ink
  | keep
  | clear
  | set
  deriving DecidableEq, Repr

/-- A row of character cells at a dot relative to its top-left corner (R176). -/
def cellInk (T : Tables) (chars : List Byte) (zoom : Nat) (solid : Bool) (dx dy : Nat) : Ink :=
  let col := dx / zoom
  if dy < 16 * zoom ∧ col / 12 < chars.length then
    if T.glyphDot (chars.getD (col / 12) 0).toNat (dy / zoom) (col % 12) then .set else if solid then .clear else .keep
  else .keep

/-- A placement drawn with its top-left dot at the origin (R176). -/
def placementInk (T : Tables) (pool : List Byte) (j : Job) (r : VehicleRecord) (axle : Option AxleRecord) (p : Placement)
    (dx dy : Nat) : Ink :=
  match p.body with
  | .text off n => cellInk T ((pool.drop off).take n) p.zoom p.solid dx dy
  | .field f fmt w part =>
    cellInk T (formatField (fieldValue j r axle f part) fmt w) p.zoom (p.solid || f == fieldCheckCode) dx dy
  | .rule n th => if dx < n ∧ dy < th * p.zoom then .set else .keep
  | .box w h =>
    if dx < w ∧ dy < h then
      if dx < p.zoom ∨ w ≤ dx + p.zoom ∨ dy < p.zoom ∨ h ≤ dy + p.zoom then .set else if p.solid then .clear else .keep
    else .keep
  | .undefined => .keep

/-- The condition of a placement holds for a job (R175). -/
def conditionHolds (j : Job) (p : Placement) : Bool :=
  match p.condition with
  | .always => true
  | .copyOnly => j.copy
  | .verdict v => j.verdict == v
  | .undefined => false

/-- One drawing of a placement: its position, and the axle of the repetition (R175). -/
structure Drawing where
  place : Placement
  x : Nat
  y : Nat
  axle : Option AxleRecord
  deriving DecidableEq, Repr

/-- The drawings of one placement: one, or one for each axle in creation order (R175). -/
def drawingsOf (f : Form) (r : VehicleRecord) (p : Placement) : List Drawing :=
  if p.axleBlock then
    r.axles.mapIdx fun k a => { place := p, x := p.x, y := f.base + k * f.block + p.y, axle := some a }
  else [{ place := p, x := p.x, y := p.y, axle := none }]

/-- A CHECK_CODE placement (R178). -/
def Placement.isCheckCode (p : Placement) : Bool :=
  match p.body with
  | .field f _ _ _ => f == fieldCheckCode
  | _ => false

/-- Every drawing of a job's page, in table order, the CHECK_CODE placements last (R174, R178). -/
def drawings (f : Form) (j : Job) (r : VehicleRecord) : List Drawing :=
  let ps := f.placements.filter (conditionHolds j)
  (ps.filter (fun p => !p.isCheckCode) ++ ps.filter (·.isCheckCode)).flatMap (drawingsOf f r)

/-- A dot of the page after the drawings given (R176). -/
def dotAt (T : Tables) (pool : List Byte) (j : Job) (r : VehicleRecord) (ds : List Drawing) (x y : Nat) : Bool :=
  ds.foldl
    (fun on d =>
      if d.x ≤ x ∧ d.y ≤ y then
        match placementInk T pool j r d.axle d.place (x - d.x) (y - d.y) with
        | .set => true
        | .clear => false
        | .keep => on
      else on)
    false

/-- Eight dots as a byte, the leftmost on PD7 (R174). -/
def dotsByte (dot : Nat → Bool) (x : Nat) : Byte :=
  byte ((List.range 8).foldl (fun n i => 2 * n + (if dot (x + i) then 1 else 0)) 0)

/-- The 2304 bytes of a band: 32 rows of 72 bytes, from the top row down, each from left to right (R174). -/
def bandBytes (dot : Nat → Nat → Bool) : List Byte :=
  (List.range 32).flatMap fun row => (List.range 72).map fun col => dotsByte (fun x => dot x row) (8 * col)

/-- The VOID band: a dot is set where x + y within the band is a multiple of 8 (R181). -/
def voidBand : List Byte := bandBytes fun x y => (x + y) % 8 == 0

/-- Page band `k` of a job (R174). -/
def pageBand (T : Tables) (j : Job) (r : VehicleRecord) (k : Nat) : List Byte :=
  let f := Form.ofBytes (T.content .form)
  let ds := drawings f j r
  bandBytes fun x y => dotAt T f.pool j r ds x (32 * k + y)

/-- The bands of a page: the height rounded up to whole bands of 32 rows, at least one (R174; log 44). -/
def pageBands (f : Form) (axles : Nat) : Nat := max 1 ((f.base + axles * f.block + 31) / 32)

/-! ## The job's bands (R181) -/

/-- The length of a job's band list: its page bands, after one VOID band if it has one. -/
def Job.length (j : Job) : Nat := j.pageBands + (if j.void then 1 else 0)

/-- The bytes of position `k` of a job's band list. -/
def Live.bandContent (T : Tables) (j : Job) (k : Nat) (s : Live) : List Byte :=
  if j.void && k == 0 then voidBand
  else match (s.records.slots.get j.slot).record with
    | some r => pageBand T j r (if j.void then k - 1 else k)
    | none => []

/-- The printer unit replaced. -/
def Live.setPrinter (p : Printer) (s : Live) : Live := { s with printer := p }

/-- A band buffer by its name. -/
def Printer.buffer (p : Printer) : BufferName → BandBuffer
  | .a => p.bufA
  | .b => p.bufB

/-- A band buffer replaced. -/
def Printer.setBuffer (n : BufferName) (b : BandBuffer) (p : Printer) : Printer :=
  match n with
  | .a => { p with bufA := b }
  | .b => { p with bufB := b }

/-- The buffer of a list position: bands go alternately into A and B, the first into A (R181). -/
def bufferOf (k : Nat) : BufferName := if k % 2 = 0 then .a else .b

/-- Some buffer is being composed (log 26). -/
def Printer.composing (p : Printer) : Bool := p.bufA.state == .composing || p.bufB.state == .composing

/-- The next band's composition begins, if its buffer is FREE and bands remain (R181; log 26). -/
def Printer.beginBand (p : Printer) : Printer :=
  match p.job with
  | some j =>
    let n := bufferOf j.nextCompose
    if j.nextCompose < j.length ∧ (p.buffer n).state = .free ∧ p.composing = false then
      { p with job := some { j with nextCompose := j.nextCompose + 1 } }.setBuffer n
        { state := .composing, band := j.nextCompose, content := [] }
    else p
  | none => p

/-! ## Readiness and job start (R180, R181) -/

/-- The printer is ready (R180). -/
def printerReady (l : InputLines) : Bool := l.ready && !l.paperOut && !l.headHot && !l.bandAck

/-- A job begins for the head slot (R181). -/
def Live.startJob (T : Tables) (s : Live) : Live :=
  match s.printer.queue with
  | [] => s
  | e :: _ =>
    let x := s.records.slots.get e.slot
    match x.record with
    | some r =>
      let f := Form.ofBytes (T.content .form)
      let j : Job :=
        { slot := e.slot, axleCount := r.axles.length, pageBands := pageBands f r.axles.length,
          copy := x.state == .issued, verdict := r.verdict, copyNumber := r.printCount + 1, void := s.printer.voidDue,
          nextCompose := 0, nextSend := 0 }
      s.setPrinter (Printer.beginBand { s.printer with composer := .composing, job := some j, bufA := .free, bufB := .free })
    | none => s

/-- All conditions of a job start hold (R180). -/
def Live.jobStarts (T : Tables) (s : Live) : Bool :=
  s.printer.composer == .idle && !s.printer.queue.isEmpty && T.valid .form && T.valid .glyphs && printerReady s.lines
    && s.printer.line == .idle

/-- An entry leaves the print queue; COMPOSER_FREE is set when it becomes empty (R23, R179). -/
def Live.setPrintQueue (q : List PrintEntry) (s : Live) : Live :=
  let s1 := s.setPrinter { s.printer with queue := q }
  if q.isEmpty then s1.setSticky { s1.mgmt.sticky with composerFree := true } else s1

/-! ## Faults of the printer (R184, R185) -/

/-- BAND_REQ dropped and the line left as the job's end finds it; both buffers FREE; void-due set (R185, R187). In TAKEN
the handshake timer runs on to the fall of BAND_ACK or its expiry, with or without a job (R182; log 56). -/
def Printer.abandon (p : Printer) (bandAck : Bool) : Printer :=
  { p with bandReq := false, line := if bandAck then .taken else .idle, timer := if bandAck then p.timer else none,
           bufA := .free, bufB := .free, voidDue := true, job := none }

/-- A job is under way. -/
def Printer.underWay (p : Printer) : Bool := p.composer == .composing || p.composer == .draining

/-- The head entry is judged after a fault (R185, step 4). -/
def Live.spendRestart (s : Live) : Live :=
  match s.printer.queue with
  | [] => s
  | e :: rest =>
    if e.restarts < Config.restartLimit then
      s.setPrinter { s.printer with queue := { e with restarts := e.restarts + 1 } :: rest }
    else (s.setPrintQueue rest).event .printFailed none 0 (slotNumber e.slot)

/-- The job is abandoned by a printer fault (R185). -/
def Live.abandonJob (s : Live) : Live :=
  if s.printer.underWay then
    let s1 := (s.setPrinter (s.printer.abandon s.lines.bandAck)).spendRestart
    s1.setPrinter { s1.printer with composer := .paused }
  else s

/-- A fault event of the printer (R184, R185): the flag, the raise unless it was set, and the job. That the raise with its EVENT
FAULT comes before EVENT PRINT_FAILED is the model's choice (log 66). -/
def Live.printerFault (T : Tables) (s : Live) : Live :=
  let s1 := if s.printer.fault then s
    else (s.setPrinter { s.printer with fault := true }).raise T .printer .lane 0
  s1.abandonJob

/-- The printer has become ready: the flag is cleared with the end of the condition, and a PAUSED composer starts the
head entry's job or becomes IDLE (R184, R186). -/
def Live.becomeReady (T : Tables) (s : Live) : Live :=
  if printerReady s.lines then
    let s1 := if s.printer.fault then
        (s.setPrinter { s.printer with fault := false }).endCondition .printer .lane else s
    if s1.printer.composer = .paused then
      if s1.printer.queue.isEmpty then s1.setPrinter { s1.printer with composer := .idle } else s1.startJob T
    else s1
  else s

/-! ## The end of a job (R183) -/

/-- A record's slot after the last band of its job has been taken. -/
def issue (x : RecordSlot) : RecordSlot :=
  { state := .issued,
    record := x.record.map fun r =>
      { r with printCount := if x.state = .issued then min 255 (r.printCount + 1) else 1 } }

/-- The job ends at the rise of BAND_ACK for its last band (R183). -/
def Live.endJob (j : Job) (s : Live) : Live :=
  let s1 := s.setSlot j.slot (issue (s.records.slots.get j.slot))
  let s2 := (s1.setPrintQueue (s1.printer.queue.drop 1)).event .printDone none 0 (slotNumber j.slot)
  s2.setPrinter { s2.printer with
    voidDue := if j.void then false else s2.printer.voidDue, composer := .idle, job := none }

end Sys2Proof.Machine
end

