-- ==== Sys2Proof/Machine/Steering.lean ====
section
/-! DEFINITION. The sample steering unit (chapter 3): calibration, windows, silence, the pit guard, mirrors, and what
becomes of them when tables change. -/

namespace Sys2Proof.Machine

/-! ## Calibration (R43, R44) -/

/-- A raw sample on the segment of two breakpoints, truncated toward zero (R43). -/
def interpolate (a b : Int × Int) (x : Int) : Int := a.2 + ((x - a.1) * (b.2 - a.2)).tdiv (b.1 - a.1)

/-- A raw sample converted by a segment set: the end segments extend outside the set (R43). -/
def calibrate : SegmentSet → Int → Int
  | a :: b :: c :: rest, x => if x < b.1 then interpolate a b x else calibrate (b :: c :: rest) x
  | [a, b], x => interpolate a b x
  | _, _ => 0

/-- The range of a role after calibration (R40). -/
def roleRange : Role → Int × Int
  | .forceL | .forceR | .drumL | .drumR | .wheelL | .wheelR => (0, 65535)
  | .loadL | .loadR => (0, 30000)
  | .pedal => (0, 2000)
  | .plateEntry | .plateExit | .pitGuard => (0, 1)
  | .plateDisp | .aux => (-32768, 32767)

/-- A value clamped to a range: the lower end, then the upper. -/
def clampTo (range : Int × Int) (v : Int) : Int := max range.1 (min range.2 v)

/-- The calibrated value of a raw sample for an entry (R43, R44). -/
def calibrated (T : Tables) (e : ChannelEntry) (x : Int) : Int :=
  clampTo (roleRange e.role) (calibrate (T.segmentSet e.segment e.role) x)

/-- The tare offset of an entry, 0 for a role that is not tared (R44). -/
def Live.offset (e : ChannelEntry) (s : Live) : Int :=
  match e.station with
  | some st => (s.tare st).offsets.get e.role
  | none => 0

/-! ## Per-entry state -/

/-- A fresh entry without a running timer. -/
def ChannelState.fresh : ChannelState :=
  { latest := none, silence := none, silent := false, silenceRaised := false, outside := false, windowRaised := false,
    decimation := 0 }

/-- The steering unit replaced. -/
def Live.setSteer (x : Steering) (s : Live) : Live := { s with steer := x }

/-- One entry's state changed. -/
def Live.updChannel (i : Nat) (f : ChannelState → ChannelState) (s : Live) : Live :=
  match s.steer.channels[i]? with
  | some c => s.setSteer { s.steer with channels := s.steer.channels.set i (f c) }
  | none => s

/-- The station of an entry is present, or it names none (R39). -/
def ChannelEntry.acts (T : Tables) (e : ChannelEntry) : Bool :=
  match e.station with
  | some st => T.present st
  | none => true

/-- An enabled entry whose station is present has a silence timer (R48). -/
def ChannelEntry.timed (T : Tables) (e : ChannelEntry) : Bool :=
  match e.station with
  | some st => e.enabled && T.present st
  | none => false

/-- The scope of an entry's window raise (R47). -/
def entryScope (e : ChannelEntry) : Scope :=
  match e.station with
  | some st => .station st
  | none => .lane

/-- Some entry of a station, or of none, has a flag set. -/
def Live.anyEntry (T : Tables) (st : Option Station) (flag : ChannelState → Bool) (s : Live) : Bool :=
  (T.entries.zip s.steer.channels).any fun p => p.1.station == st && flag p.2

/-! ## Windows (R46, R47) -/

/-- Some present station is at work. -/
def Live.anyAtWork (T : Tables) (s : Live) : Bool := stations.any fun st => T.present st && (s.stationState st).atWork

/-- The window of an entry applies (R46). -/
def Live.windowApplies (T : Tables) (e : ChannelEntry) (s : Live) : Bool :=
  e.acts T &&
    match e.applicability with
    | .always => true
    | .never => false
    | .active => match e.station with
      | some st => (s.stationState st).atWork
      | none => s.anyAtWork T

/-- A value is outside the entry's window; a window NEVER has no outside (R47). -/
def ChannelEntry.outsideOf (e : ChannelEntry) (v : Int) : Bool :=
  e.applicability != .never && (decide (v > e.high) || decide (v < e.low))

/-- The window monitor's flags after a value, with the end of the condition where the last outside flag of the scope is
cleared; the answer's flag asks for CHANNEL_WINDOW (R47). -/
def Live.judgeWindow (T : Tables) (i : Nat) (e : ChannelEntry) (v : Int) (s : Live) : Live × Bool :=
  match s.steer.channels[i]? with
  | none => (s, false)
  | some c =>
    if e.acts T then
      if e.outsideOf v then
        let raises := s.windowApplies T e && !c.windowRaised
        (s.updChannel i fun x => { x with outside := true, windowRaised := x.windowRaised || raises }, raises)
      else
        let s1 := s.updChannel i fun x => { x with outside := false, windowRaised := false }
        (if c.outside && !s1.anyEntry T e.station (·.outside) then s1.endCondition .channelWindow (entryScope e) else s1,
          false)
    else (s, false)

/-! ## The pit guard (R50) -/

/-- A value of the PIT_GUARD entry judged (R50). -/
def Live.judgeGuard (T : Tables) (v : Int) (s : Live) : Live :=
  if v = 1 then
    let s1 := s.setSteer { s.steer with guardOpen := true, guardRaised := true }
    if s.steer.guardRaised then s1 else s1.raise T .pitGuard .lane 0
  else
    let s1 := s.setSteer { s.steer with guardOpen := false, guardRaised := false }
    if s.steer.guardOpen then s1.endCondition .pitGuard .lane else s1

/-! ## Delivery (R40, R45) -/

/-- A value handed to the consumer its role names (R40, R45). That RA takes a PEDAL value before RB is the model's choice
(log 49). -/
def Live.deliver (T : Tables) (i : Nat) (e : ChannelEntry) (cal v : Int) (s : Live) : Live :=
  match e.role, e.station with
  | .aux, _ => s
  | .pitGuard, _ => s.judgeGuard T v
  | .pedal, _ => (s.takePedal T .ra v).takePedal T .rb v
  | .plateDisp, _ => s.takeDisplacement T i cal v
  | .plateEntry, _ => s.takeContact T .forward (v == 1)
  | .plateExit, _ => s.takeContact T .reverse (v == 1)
  | role, some .ra => s.deliverRoller T .ra role i cal v
  | role, some .rb => s.deliverRoller T .rb role i cal v
  | _, _ => s

/-- One raw sample (R42 step 2): it becomes the latest value, is judged by the window and delivered. Where the window
monitor raises, raise and delivery come in either order: a free choice (R45, R94; log 7). -/
def Live.takeSample (T : Tables) (i : Nat) (e : ChannelEntry) (s : Live) (x : Half) : Live :=
  let cal := calibrated T e (signed16 x.toNat)
  let v := cal - s.offset e
  let w := (s.updChannel i fun c => { c with latest := some v }).judgeWindow T i e v
  if w.2 then
    let s1 := w.1.chosen
    if Config.raiseBeforeDelivery w.1.choices then
      (s1.raise T .channelWindow (entryScope e) i).deliver T i e cal v
    else (s1.deliver T i e cal v).raise T .channelWindow (entryScope e) i
  else w.1.deliver T i e cal v

/-! ## Silence (R48, R49) -/

/-- A SAMPLE frame restarts the silence timer and ends the silence (R42 step 1, R48, R49). -/
def Live.endSilence (T : Tables) (i : Nat) (e : ChannelEntry) (s : Live) : Live :=
  if e.timed T then
    let was := (s.steer.channels[i]?.map (·.silent)).getD false
    let s1 := s.updChannel i fun c => { c with silence := some 0, silent := false, silenceRaised := false }
    match e.station with
    | some st =>
      if was && !s1.anyEntry T (some st) (·.silent) then s1.endCondition .headSilent (.station st) else s1
    | none => s1
  else s

/-- The silence limit of an entry is reached: it is silent, and is judged (R48, R49). -/
def Live.fallSilent (T : Tables) (i : Nat) (s : Live) : Live :=
  (s.updChannel i fun c => { c with silent := true }).judgeEntrySilence T i

/-! ## Mirrors (R51, R52) -/

/-- The engineering values of a frame's samples, as computed for the entry: for SCALED mirrors. -/
def mirrorFrame (i : Nat) (values : List Int) : Frame :=
  upstreamFrame kindMirror (byte i :: byte values.length :: values.flatMap beSigned32)

/-- A frame of the up queue is an EVENT FAULT. -/
def UpFrame.isFaultEvent (f : UpFrame) : Bool :=
  !f.mirror && f.frame.kind == kindEvent && rd f.frame.payload 0 == eventNumber .fault

/-- The number of EVENT FAULT frames that stand last in the up queue behind its first `n` frames. -/
def Live.lateFaults (n : Nat) (s : Live) : Nat := ((s.chain.up.drop n).reverse.takeWhile (·.isFaultEvent)).length

/-- The mirror of a SAMPLE frame is offered, `n` frames having stood in the up queue as that frame was taken: behind whatever
the frame has sent, but that EVENT FAULT frames which it has sent last may come after the mirror: a free choice (R42, R52;
log 8). -/
def Live.offerMirrorOf (T : Tables) (n : Nat) (f : Frame) (s : Live) : Live :=
  match s.lateFaults n with
  | 0 => s.offerMirror T f
  | m + 1 =>
    let q := s.chain.up
    let k := q.length - Config.eventsAfterMirror s.choices % (m + 2)
    (q.drop k).foldl (fun x e => x.offerEvent e.frame) ((s.chosen.setUp (q.take k)).offerMirror T f)

/-- The decimation count advances, and a mirror may be produced, `n` frames having stood in the up queue as the SAMPLE frame was
taken (R51, R52). -/
def Live.mirror (T : Tables) (i : Nat) (e : ChannelEntry) (raw : Frame) (values : List Int) (n : Nat) (s : Live) : Live :=
  if e.mirror = .none then s
  else
    let d := (s.steer.channels[i]?.map (·.decimation)).getD 0 + 1
    if e.decimation ≤ d then
      (s.updChannel i fun c => { c with decimation := 0 }).offerMirrorOf T n
        (match e.mirror with | .scaled => mirrorFrame i values | _ => raw)
    else s.updChannel i fun c => { c with decimation := d }

/-- The samples of a frame, oldest first, with the engineering values computed. -/
def Live.takeSamples (T : Tables) (i : Nat) (e : ChannelEntry) : List Half → Live → Live × List Int
  | [], s => (s, [])
  | x :: rest, s =>
    let v := calibrated T e (signed16 x.toNat) - s.offset e
    let y := (s.takeSample T i e x).takeSamples T i e rest
    (y.1, v :: y.2)

/-- A SAMPLE frame steered to an entry, taken whole (R42). -/
def Live.steer1 (T : Tables) (i : Nat) (e : ChannelEntry) (raw : Frame) (samples : List Half) (s : Live) : Live :=
  let y := (s.endSilence T i e).takeSamples T i e samples
  y.1.mirror T i e raw y.2 s.chain.up.length

/-! ## Tables change (R50, R53) -/

/-- A fresh entry, its timer started if it has one (R48). -/
def startChannel (T : Tables) (e : ChannelEntry) : ChannelState :=
  { ChannelState.fresh with silence := if e.timed T then some 0 else none }

/-- CHANNELS and SEGMENTS are both VALID: steering begins with the new map (R53). -/
def Live.startSteering (T : Tables) (s : Live) : Live :=
  s.setSteer { s.steer with channels := T.entries.map (startChannel T) }

/-- The scopes a window or silence condition can have. -/
def scopes : List Scope := [.station .ps, .station .ra, .station .rb, .lane]

/-- CHANNELS or SEGMENTS leaves VALID: every entry's state is discarded and its conditions end (R53); the latest values of
the contacts are absent too, and PS reads them as 0 (R73). -/
def Live.stopSteering (s : Live) : Live :=
  let s1 := s.setSteer { s.steer with channels := [] }
  scopes.foldl (fun x sc => (x.endCondition .channelWindow sc).endCondition .headSilent sc)
    (s1.setPS { s1.ps with contactIn := false, contactOut := false })

/-- CHANNELS becomes VALID without an enabled PIT_GUARD entry: the guard's flags are cleared (R50). -/
def Live.checkGuardEntry (T : Tables) (s : Live) : Live :=
  if (T.entryOfRole none .pitGuard).isSome then s
  else
    let s1 := s.setSteer { s.steer with guardOpen := false, guardRaised := false }
    if s.steer.guardOpen then s1.endCondition .pitGuard .lane else s1

/-- An entry bound to a station, when LANE leaves VALID (R53). -/
def ChannelState.unbound (c : ChannelState) : ChannelState :=
  { c with silence := none, silent := false, silenceRaised := false, outside := false }

/-- LANE leaves VALID: entries bound to stations lose timers and flags, and their conditions end (R53). -/
def Live.stationsUnsteered (T : Tables) (s : Live) : Live :=
  stations.foldl (fun x st => (x.endCondition .channelWindow (.station st)).endCondition .headSilent (.station st))
    (s.setSteer { s.steer with
      channels := (T.entries.zip s.steer.channels).map fun p => if p.1.station.isSome then p.2.unbound else p.2 })

/-- LANE becomes VALID: the timers of entries bound to present stations start (R48, R53). -/
def Live.stationsSteered (T : Tables) (s : Live) : Live :=
  s.setSteer { s.steer with
    channels := (T.entries.zip s.steer.channels).map fun p =>
      if p.1.timed T then { p.2 with silence := some 0, silenceRaised := false } else p.2 }

/-- A lane reset (R54): raised flags are cleared and running silence timers restart. -/
def Live.steerLaneReset (s : Live) : Live :=
  s.setSteer { s.steer with
    guardRaised := false,
    channels := s.steer.channels.map fun c =>
      { c with windowRaised := false, silenceRaised := false, silence := c.silence.map fun _ => 0 } }

end Sys2Proof.Machine
end

