-- ==== Sys2Proof/Machine/Management.lean ====
section
/-! DEFINITION. The table store's loads and what follows when a region becomes or leaves VALID (R29 to R36, R19, R53, R55,
R171), the abandonment of a load, and the lane reset (R38, R18, R54, R75, R104, R122, R142, R162, R173). -/

namespace Sys2Proof.Machine

/-! ## Chain settings (R5, R10, R19) -/

/-- LINK_NOISE raised for a port, its detail the port (R5, R154). -/
def Live.raiseNoise (T : Tables) (port : Port) (s : Live) : Live :=
  ({ s with chain := { s.chain with noise := true } }).raise T .linkNoise .lane (match port with | .up => 0 | .down => 1)

/-- The bad-frame limit has changed: a port whose count has reached the new one raises (R5), upstream before downstream
(log 47). -/
def Live.rejudgeNoise (T : Tables) (old : Nat) (s : Live) : Live :=
  let limit := T.settings.badLimit
  if limit = old then s
  else
    let s1 := if limit ≤ s.chain.badUp then s.raiseNoise T .up else s
    if limit ≤ s.chain.badDown then s1.raiseNoise T .down else s1

/-- The chain interface re-reads its settings: mirror-class frames above a lowered trip level go, with the places they
free offered (log 38), and then the bad-frame counts are judged against a new limit (R5, R10, R19). The order of the two is the
model's choice (log 47). -/
def Live.rereadChain (T : Tables) (oldLimit : Nat) (s : Live) : Live :=
  let s1 := if T.settings.trip < mirrorCount s.chain.up then
      (s.setUp (trimMirrors T.settings.trip s.chain.up)).offerFreedUp else s
  s1.rejudgeNoise T oldLimit

/-! ## LANE leaves and becomes VALID -/

/-- A roller station stops being present: its drive-fault flag is cleared, with the end of the condition (R70). -/
def Live.dropDriveFault (s : Live) (r : Roller) : Live :=
  if (s.roller r).driveFault then
    (s.setRoller r { s.roller r with driveFault := false }).endCondition .driveFault (.station (stationOf r))
  else s

/-- LANE leaves VALID (R19, R53, R55, R70, R171; log 28). `T` is the table store without it. -/
def Live.laneLeaves (T : Tables) (oldLimit : Nat) (s : Live) : Live :=
  let s1 := s.rereadChain T oldLimit
  let s2 := stations.foldl (fun x st => x.enterOffline T st) s1
  let s3 := [Roller.ra, Roller.rb].foldl Live.dropDriveFault s2
  let s4 := s3.stationsUnsteered T
  s4.setGuide { s4.guide with refreshTimer := none }

/-- LANE becomes VALID (R5, R10, R55, R100, R157, R48, R171; log 28). -/
def Live.laneBecomes (T : Tables) (oldLimit : Nat) (s : Live) : Live :=
  let s1 := s.rereadChain T oldLimit
  let s2 := if s1.mode = .service then s1 else stations.foldl (Live.bringUp T) s1
  let s3 := stations.foldl (Live.presentTare T) s2
  let s4 := s3.stationsSteered T
  ((s4.setGuide { s4.guide with refreshTimer := some 0, resend := 0 }).allDirty).render T

/-! ## Regions -/

/-- A region has left VALID: its users see it (R19, R29, R36, R53, R55, R171). -/
def Live.regionLeaves (T : Tables) (oldLimit : Nat) (n : RegionName) (s : Live) : Live :=
  let cursor := match s.mgmt.tableCursor with
    | some (m, off) => if m = n then none else some (m, off)
    | none => none
  let s1 := { s with mgmt := { s.mgmt with tableCursor := cursor } }
  match n with
  | .lane => s1.laneLeaves T oldLimit
  | .channels | .segments => s1.stopSteering
  | .prompts => s1.render T
  | _ => s1

/-- A region has become VALID (R33, R50, R53, R171). -/
def Live.regionBecomes (T : Tables) (oldLimit : Nat) (n : RegionName) (s : Live) : Live :=
  match n with
  | .lane => s.laneBecomes T oldLimit
  | .channels =>
    let s1 := s.checkGuardEntry T
    if T.steering then s1.startSteering T else s1
  | .segments => if T.steering then s.startSteering T else s
  | .prompts => s.render T
  | _ => s

/-! ## Loads (R30 to R34) -/

/-- Some region is LOADING (R31). -/
def Tables.loading (t : Tables) : Bool := regionNames.any fun n => (t.get n).state == .loading

/-- Every station is IDLE or OFFLINE. -/
def Live.stationsQuiet (s : Live) : Bool :=
  stations.all fun st => s.stationState st == .idle || s.stationState st == .offline

/-- The load class of a region is met (R30). -/
def Live.classMet (n : RegionName) (s : Live) : Bool :=
  match n with
  | .lane | .channels | .segments => s.openSlot.isNone && s.stationsQuiet
  | .plans | .limits => s.openSlot.isNone
  | .faults | .prompts => true
  | .form | .glyphs => s.printer.composer == .idle

/-- The table store after an accepted TABLE_BEGIN (R31). -/
def Tables.begin (t : Tables) (n : RegionName) (total : Nat) : Tables :=
  { t.set n { state := .loading, content := [] } with load := some { region := n, total := total, expected := 0 } }

/-- The table store after an accepted TABLE_DATA (R32). -/
def Tables.append (t : Tables) (c : LoadContext) (data : List Byte) : Tables :=
  { t.set c.region { state := .loading, content := (t.get c.region).content ++ data } with
    load := some { c with expected := c.expected + data.length } }

/-- The table store after a load has ended with its region in a state (R33, R34). -/
def Tables.finish (t : Tables) (n : RegionName) (r : Region) : Tables := { t.set n r with load := none }

/-- The load in progress abandoned: its region becomes INVALID (R34). -/
def Tables.abandon (t : Tables) : Tables :=
  match t.load with
  | some c => t.finish c.region .empty
  | none => t

/-- A raise of LINK_WINDOW, reported to the fault action unit and to the table store (R28, R34). That the raise with its EVENT
comes before LOAD_ABANDONED is the model's choice (log 48). -/
def linkWindow (t : Tables) (s : Live) : Tables × Live :=
  let s1 := s.raise t .linkWindow .lane 0
  match t.load with
  | some c => (t.abandon, s1.event .loadAbandoned none 0 (regionCode c.region))
  | none => (t, s1)

/-! ## The lane reset (R38) -/

/-- The chain interface at a lane reset (R18; log 38). -/
def Live.chainLaneReset (s : Live) : Live :=
  let s1 := (s.setUp (flushMirrors s.chain.up)).offerFreedUp
  (s1.setDown (dropHost s1.chain.down)).offerFreedDown

/-- A tare in progress ends at a lane reset: IDLE, or OFFLINE after a service tare (R75, R99). -/
def Live.tareLaneReset (T : Tables) (st : Station) (s : Live) : Live :=
  let service := ((s.tare st).context.map (·.service)).getD false
  ((s.dropTare st).leaveTaring T st service).tareAborted T st 0

/-- A station at a lane reset (R75); every auto-tare bar is cleared (R104). -/
def Live.stationLaneReset (T : Tables) (s : Live) (st : Station) : Live :=
  let s1 := s.setTare st { s.tare st with bar := false }
  match s1.stationState st, stationRoller st with
  | .spinning, some r | .ready, some r | .measuring, some r => s1.enterReleasing T r
  | .taring, _ => s1.tareLaneReset T st
  | .crossing, none => ({ s1 with ps := { s1.ps with crossing := none } }).enter T .ps .idle
  | _, _ => s1

/-- The OPEN record aborted with every capture ended with reason RESET; without one, the tracker is emptied all the same
(R118, R122). -/
def Live.recordLaneReset (T : Tables) (s : Live) : Live :=
  let s1 := s.endAllCaptures T .reset
  if s1.openSlot.isSome then s1.abortRecord.seqEmpty else s1.clearTracker

/-- The fault action unit at a lane reset: HOLD and STOP entries go, stations are released, and the guidance unit drops
their prompts (R162, R173). -/
def Live.faultsLaneReset (T : Tables) (s : Live) : Live :=
  let gone := fun (e : FaultEntry) => e.action == .hold || e.action == .stop
  let removed := s.faults.filter gone
  (({ s with faults := s.faults.filter fun e => !gone e }).releaseStations T).guideLaneReset T removed

/-- The lane reset of everything but the table store, in the order of log 17. -/
def Live.laneReset (T : Tables) (s : Live) : Live :=
  let s1 := (s.chainLaneReset).recordLaneReset T
  let s2 := stations.foldl (Live.stationLaneReset T) s1
  ((s2.faultsLaneReset T).seqEmpty).steerLaneReset

end Sys2Proof.Machine
end

