-- ==== Sys2Proof/Machine/Commands.lean ====
section
/-! DEFINITION. The frame around every command: nothing but the lines acts while RESET is asserted (R17), and a request
row takes its request from the buffer, is answered, and has its REPLY offered (R7, R20, R21). -/

namespace Sys2Proof.Machine

/-- A command's answer: always a next state. -/
abbrev Out := Host.Outcome State Fault Refusal

/-- A command of the blocks, with nothing done while RESET is asserted (R17; log 12). -/
def State.onLive (f : Tables → Live → Live) (s : State) : State :=
  if s.live.resetAsserted then s else { s with live := f s.tables s.live }

/-- A command that may end a load (R34). -/
def State.onBoth (f : Tables → Live → Tables × Live) (s : State) : State :=
  if s.live.resetAsserted then s
  else
    let x := f s.tables s.live
    { s with tables := x.1, live := x.2 }

/-- The row that takes a request, by its code and, for STATION, by its request argument (R191; log 5). -/
def requestRow (p : List Byte) : Instr :=
  match rd p 0 with
  | 1 => .status | 2 => .laneMode | 3 => .window | 4 => .tableBegin | 5 => .tableData | 6 => .tableEnd
  | 7 => .tableAbort | 8 => .tableRead | 9 => .recordRead | 10 => .laneReset | 11 => .upFlush | 12 => .vehicleBegin
  | 13 => .vehicleClose | 14 => .vehicleAbort | 15 => .recordRelease
  | 16 =>
    if p.length < 3 then .mgmtUnknownRequest
    else match rd p 2 with
      | 0 => .stationSpin
      | 1 => .stationCapture
      | 2 => .stationRelease
      | 3 => .stationTare
      | _ => .mgmtUnknownRequest
  | 17 => .clearFault | 18 => .resume | 19 => .clearLockout | 20 => .promptPost | 21 => .promptClear | 22 => .print
  | 23 => .printCancel
  | _ => .mgmtUnknownRequest

/-- What a request's owner answers: the table store and the rest after it, the status and the data (R20). -/
structure Answered where
  tables : Tables
  live : Live
  status : Status
  data : List Byte

/-- A refusal: it leaves the part as it found it (R20). -/
def refuse (T : Tables) (s : Live) (x : Status) : Answered := { tables := T, live := s, status := x, data := [] }

/-- An OK reply of a request that leaves the table store alone. -/
def accept (T : Tables) (s : Live) (data : List Byte) : Answered := { tables := T, live := s, status := .ok, data := data }

/-- The request of a row that the management unit can take: RESET is not asserted, no REPLY waits, and the buffer holds
such a request (R7, R12). -/
def Live.requestOf (row : Instr) (s : Live) : Option (List Byte) :=
  match s.mgmt.request with
  | some p => if !s.resetAsserted && s.mgmt.reply.isNone && decide (requestRow p = row) then some p else none
  | none => none

/-- A request row (R7, R20, R21): the buffer is emptied, the request is judged and carried out with its arguments, and
its REPLY is offered. -/
def takeRequest (row : Instr) (h : Tables → List Byte → Live → Answered) (s : State) : State :=
  match s.live.requestOf row with
  | some p =>
    let x := h s.tables (p.drop 1) { s.live with mgmt := { s.live.mgmt with request := none } }
    { s with tables := x.tables, live := x.live.offerReply (replyFrame (p.getD 0 0) x.status x.data) }
  | none => s

end Sys2Proof.Machine
end

