-- ==== Sys2Proof/Machine/Frames.lean ====
section
/-! DEFINITION. Frames at the two ports (chapter 1): bad frames, classification, the down filter, the keepalive monitor,
HEAD_STATUS, and the commands of the ports. -/

namespace Sys2Proof.Machine

/-! ## Bad frames (R4, R5) -/

/-- A port's bad-frame count and indicator after one more bad frame (R4). -/
def Live.countBad (port : Port) (s : Live) : Live :=
  match port with
  | .up => { s with chain := { s.chain with badUp := s.chain.badUp + 1 },
                    mgmt := { s.mgmt with sticky := { s.mgmt.sticky with badFrameUp := true } } }
  | .down => { s with chain := { s.chain with badDown := s.chain.badDown + 1 },
                      mgmt := { s.mgmt with sticky := { s.mgmt.sticky with badFrameDown := true } } }

/-- A port's bad-frame count. -/
def Chain.bad (c : Chain) : Port → Nat
  | .up => c.badUp
  | .down => c.badDown

/-- A bad frame is discarded at its port (R4); the count becoming equal to the limit raises LINK_NOISE (R5). -/
def Live.badFrame (T : Tables) (port : Port) (s : Live) : Live :=
  let s1 := s.countBad port
  if s1.chain.bad port = T.settings.badLimit then s1.raiseNoise T port else s1

/-- A bad-frame window ends (R5): both counts below the limit end a condition that was present; the counts return to 0. -/
def Live.windowEnds (T : Tables) (s : Live) : Live :=
  let limit := T.settings.badLimit
  let c := { s.chain with badUp := 0, badDown := 0, windowTimer := s.chain.windowTimer - Config.badFrameWindow }
  if s.chain.badUp < limit ∧ s.chain.badDown < limit then
    ({ s with chain := { c with noise := false } }).endCondition .linkNoise .lane
  else { s with chain := c }

/-! ## The down filter (R16) -/

/-- A host frame offered to the down queue; refused, EVENT DOWN_FULL is offered (R15). -/
def Live.offerHost (f : Frame) (s : Live) : Live :=
  match s.admitDown? { source := .host, frame := f } with
  | some s' => s'
  | none => s.event .downFull none 0 f.dest.toNat

/-- The first FAULTED station a host DRIVE frame reaches, in the order RA, RB (R16). -/
def Live.driveBlocked (T : Tables) (dest : Nat) (s : Live) : Option Station :=
  if dest = 31 then
    if s.ra.state = .faulted then some .ra else if s.rb.state = .faulted then some .rb else none
  else match T.driveStation dest with
    | some r => if (s.roller r).state = .faulted then some (stationOf r) else none
    | none => none

/-- The station EVENT FILTERED names for a DRIVE frame (R16). -/
def Live.driveConcerned (T : Tables) (dest : Nat) (s : Live) : Option Station :=
  if dest = 31 then s.driveBlocked T dest else (T.driveStation dest).map stationOf

/-- Some enabled entry with this head address is bound to a station (R16). -/
def headBound (T : Tables) (dest : Nat) (st : Station) : Bool :=
  T.entries.any fun e => e.enabled && e.head == dest && e.station == some st

/-- The first station in the order PS, RA, RB that blocks a HEAD_SETUP: bound to the head and neither IDLE nor OFFLINE. -/
def Live.setupBlocked (T : Tables) (dest : Nat) (s : Live) : Option Station :=
  stations.find? fun st =>
    headBound T dest st && s.stationState st != .idle && s.stationState st != .offline

/-- EVENT FILTERED (R16). -/
def Live.filtered (st : Option Station) (dest : Nat) (s : Live) : Live := s.event .filtered st 0 dest

/-- A host frame with destination 1-31 judged by the down filter (R16). -/
def Live.hostFrame (T : Tables) (f : Frame) (s : Live) : Live :=
  let dest := f.dest.toNat
  if f.kind = kindDrive then
    if s.mode = .service ∧ s.driveBlocked T dest = none then s.offerHost f else s.filtered (s.driveConcerned T dest) dest
  else if dest = 31 then s.offerHost f
  else if f.kind = kindHeadSetup then
    match s.setupBlocked T dest with
    | some st => s.filtered (some st) dest
    | none => s.offerHost f
  else s.offerHost f

/-! ## The keepalive monitor (R27) -/

/-- The monitor after a KEEPALIVE, and whether LINK_WINDOW is raised (R27). -/
def Mgmt.keepalive (m : Mgmt) : Mgmt × Bool :=
  match m.keepState with
  | .disabled => (m, false)
  | .first | .lapsed => ({ m with keepState := .timing, keepTimer := some 0 }, false)
  | .timing => ({ m with keepTimer := some 0 }, decide (m.keepTimer.getD 0 < m.lower))

/-- A KEEPALIVE taken by the monitor (R27, R28). -/
def takeKeepalive (T : Tables) (s : Live) : Tables × Live :=
  let x := s.mgmt.keepalive
  let s1 := { s with mgmt := x.1 }
  if x.2 then linkWindow T s1 else (T, s1)

/-! ## Classification (R6, R7, R8) -/

/-- An MGMT frame enters an empty request buffer; into a full one it is discarded (R7). -/
def Live.bufferRequest (payload : List Byte) (s : Live) : Live :=
  match s.mgmt.request with
  | none => { s with mgmt := { s.mgmt with request := some payload } }
  | some _ => s

/-- A frame taken at the upstream port (R4, R6); a destination above 31 is no chain address (log 10). -/
def takeUp (f : Frame) (T : Tables) (s : Live) : Tables × Live :=
  if frameBad .up f then (T, s.badFrame T .up)
  else if f.dest = 0 then
    if f.kind = kindMgmt then (T, s.bufferRequest f.payload) else takeKeepalive T s
  else if f.dest.toNat ≤ 31 then (T, s.hostFrame T f)
  else (T, s)

/-- A SAMPLE frame addressed to 0 (R8, R42). -/
def Live.sampleFrame (T : Tables) (f : Frame) (channel : Byte) (samples : List Half) (s : Live) : Live :=
  if T.steering then
    match T.entryOfHead f.src.toNat channel.toNat with
    | some i =>
      match T.entries[i]? with
      | some e => s.steer1 T i e f samples
      | none => s
    | none => s.offerMirror T f
  else s

/-- Drive states of HEAD_STATUS (R190): FAULT. -/
def driveStateFault : Nat := 2

/-- A HEAD_STATUS delivered to its station (R70); a drive state code above 2 has no effect. -/
def Live.headStatus (T : Tables) (r : Roller) (drive code : Nat) (s : Live) : Live :=
  let x := s.roller r
  if drive = driveStateFault then
    if x.driveFault then s
    else (s.setRoller r { x with driveFault := true }).raise T .driveFault (.station (stationOf r)) code
  else if drive < driveStateFault then
    if x.driveFault then
      (s.setRoller r { x with driveFault := false }).endCondition .driveFault (.station (stationOf r))
    else s
  else s

/-- A button of the remote by its code (R137, R138, R139, R140, R158). -/
def Live.button (T : Tables) (code : Nat) (s : Live) : Live :=
  if code = buttonConfirmCode then s.takeConfirm T
  else if code = buttonRepeatCode then s.takeRepeat T
  else if code = buttonSkipCode then s.takeSkip T
  else if code = buttonStopCode then s.raise T .operatorStop .lane 0
  else s.buttonIgnored code

/-- The raw samples of a SAMPLE payload. -/
def payloadSamples (p : List Byte) : List Half := (List.range (rd p 1)).map fun i => BitVec.ofNat 16 (rd16 p (2 + 2 * i))

/-- A frame from a head taken at the downstream port (R4, R8). -/
def Live.takeDown (f : Frame) (T : Tables) (s : Live) : Live :=
  if frameBad .down f then s.badFrame T .down
  else if f.dest = 0 then
    if f.kind = kindSample then s.sampleFrame T f (f.payload.getD 0 0) (payloadSamples f.payload)
    else if f.kind = kindHeadStatus then
      match T.driveStation f.src.toNat with
      | some r => s.headStatus T r (rd f.payload 0) (rd f.payload 1)
      | none => s.offerMirror T f
    else if f.kind = kindButton then
      if T.isRemote f.src.toNat then s.button T (rd f.payload 0) else s.offerMirror T f
    else s.offerMirror T f
  else if f.dest.toNat ≤ 31 then s.offerMirror T f
  else s

/-- A frame from a head to address 0. -/
def headFrame (src kind : Byte) (payload : List Byte) : Frame := { dest := 0, src := src, kind := kind, payload := payload }

/-- A frame from the host to address 0; the host has no chain address, and its source is 0. -/
def hostToController (kind : Byte) (payload : List Byte) : Frame := { dest := 0, src := 0, kind := kind, payload := payload }

/-- The payload of a SAMPLE frame (R190). -/
def samplePayload (channel : Byte) (samples : List Half) : List Byte :=
  channel :: byte samples.length :: samples.flatMap fun x => be16 x.toNat

/-! ## The commands -/

/-- MGMT_FRAME (R7). -/
def execMgmtFrame (payload : List Byte) (s : State) : Out := .next (s.onBoth (takeUp (hostToController kindMgmt payload)))

/-- KEEPALIVE (R27). -/
def execKeepalive (s : State) : Out := .next (s.onBoth (takeUp (hostToController kindKeepalive [])))

/-- HOST_PASS_THROUGH (R16). -/
def execHostPassThrough (f : Frame) (s : State) : Out := .next (s.onBoth (takeUp f))

/-- BAD_FRAME (R4): bytes that pass every check are no bad frame (log 4). -/
def execBadFrame (port : Port) (bytes : List Byte) (s : State) : Out :=
  .next (s.onLive fun T l => if bytesBad port bytes then l.badFrame T port else l)

/-- BAD_FRAME_WINDOW_END (R5). -/
def execBadFrameWindowEnd (s : State) : Out :=
  .next (s.onLive fun T l => if Config.badFrameWindow ≤ l.chain.windowTimer then l.windowEnds T else l)

/-- SAMPLE_FRAME (R42). -/
def execSampleFrame (src channel : Byte) (samples : List Half) (s : State) : Out :=
  .next (s.onLive (Live.takeDown (headFrame src kindSample (samplePayload channel samples))))

/-- HEAD_STATUS (R70). -/
def execHeadStatus (src driveState faultCode : Byte) (s : State) : Out :=
  .next (s.onLive (Live.takeDown (headFrame src kindHeadStatus [driveState, faultCode])))

/-- HEAD_FRAME_PASSED_UP (R8). -/
def execHeadFramePassedUp (f : Frame) (s : State) : Out := .next (s.onLive (Live.takeDown f))

/-- BUTTON_CONFIRM (R138). -/
def execButtonConfirm (src : Byte) (s : State) : Out :=
  .next (s.onLive (Live.takeDown (headFrame src kindButton [byte buttonConfirmCode])))

/-- BUTTON_REPEAT (R139). -/
def execButtonRepeat (src : Byte) (s : State) : Out :=
  .next (s.onLive (Live.takeDown (headFrame src kindButton [byte buttonRepeatCode])))

/-- BUTTON_SKIP (R140). -/
def execButtonSkip (src : Byte) (s : State) : Out :=
  .next (s.onLive (Live.takeDown (headFrame src kindButton [byte buttonSkipCode])))

/-- BUTTON_UNKNOWN (R137). -/
def execButtonUnknown (src code : Byte) (s : State) : Out :=
  .next (s.onLive (Live.takeDown (headFrame src kindButton [code])))

/-- OPERATOR_STOP (R158). -/
def execOperatorStop (src : Byte) (s : State) : Out :=
  .next (s.onLive (Live.takeDown (headFrame src kindButton [byte buttonStopCode])))

/-- A frame has left the up queue, and the freed place is offered (R9, R12). Both are one step, so that no other frame is taken
between them (log 46). -/
def Live.upSent (s : Live) : Live :=
  match s.chain.up with
  | [] => s
  | _ :: rest => (s.setUp rest).offerFreedUp

/-- UP_FRAME_SENT (R9). -/
def execUpFrameSent (s : State) : Out := .next (s.onLive fun _ l => l.upSent)

/-- A frame has left the down queue, and the freed place is offered (R14, R15). Both are one step, so that no new DRIVE frame
is taken between them (log 46). -/
def Live.downSent (s : Live) : Live :=
  match s.chain.down with
  | [] => s
  | _ :: rest => (s.setDown rest).offerFreedDown

/-- DOWN_FRAME_SENT (R14). -/
def execDownFrameSent (s : State) : Out := .next (s.onLive fun _ l => l.downSent)

end Sys2Proof.Machine
end

