-- ==== Sys2Proof/Machine/Checks.lean ====
section
/-! DEFINITION. The settings checks of a capture (R78) and the structure checks of the nine regions (R41, R126, R143,
R178, R195). Each check answers the index it fails at, or none; `structureCheck` tries them in the order of their
numbers and answers the number and index of the first that fails. -/

namespace Sys2Proof.Machine

/-! ## Capture settings (R78) -/

/-- The settings checks of R78 on bytes 2-7 of a CAPTURE record; `part` is the raw target part where one is given, `row`
the raw limit row where one is given. -/
def captureSettingsValid (b : List Byte) (part : Option Nat) (row : Option Nat) : Bool :=
  let s := captureSettings b (part.map brakePartOfCode) row
  decide (rd b 0 / 4 % 8 ≤ 4)
    && (match s.pedalTarget with | some n => decide (1 ≤ n ∧ n ≤ 2000) | none => true)
    && (match s.ceiling with | some n => decide (1 ≤ n) | none => true)
    && (s.length.isSome || s.pedalTarget.isSome || s.ceiling.isSome || s.operator)
    && (s.length.isSome || !s.autoRelease)
    && (match part with | some n => decide (n ≤ 3) | none => true)
    && (!s.joint || (s.testKind == .parking && s.part == .parking))
    && (match row with | some n => decide (n ≤ 15) | none => true)

/-! ## Helpers -/

/-- A value lies in a range that includes both ends. -/
def inRange (lo hi v : Nat) : Bool := decide (lo ≤ v ∧ v ≤ hi)

/-- A whole-region check: it fails with index 0. -/
def whole (ok : Bool) : Option Nat := if ok then none else some 0

/-- The first record that is not as it should be. -/
def firstBad {α : Type} (ok : α → Bool) (l : List α) : Option Nat := indexOfFirst (fun a => !ok a) l 0

/-- The first record that is not as it should be beside the records before it. That of two clashing entries of CHANNELS the
later gives the index is the model's choice (R41, R195; log 57). -/
def firstClash {α : Type} (clash : α → α → Bool) : List α → List α → Nat → Option Nat
  | [], _, _ => none
  | a :: rest, before, i => if before.any (clash a) then some i else firstClash clash rest (a :: before) (i + 1)

/-! ## LANE -/

/-- LANE check 2: every field in its range, after defaults (R57, R48, R82, R100, R172, R194). -/
def laneRanges (b : List Byte) : Bool :=
  let s := LaneSettings.ofBytes b
  inRange 0 30 s.driveRA && inRange 0 30 s.driveRB && inRange 1 30 s.board && inRange 1 30 s.remote
    && (s.plateLength == 0 || inRange 200 2000 s.plateLength)
    && inRange 50 5000 s.seat && inRange 20 4999 s.empty && inRange 100 2000 s.settle
    && inRange 5 200 s.ready && inRange 1 199 s.stopped && inRange 20 1000 s.silence
    && inRange 60 3600 s.tareInterval && inRange 50 1000 s.lockup && inRange 4 24 s.trip
    && inRange 1 255 s.badLimit && inRange 1 65535 s.barScale
    && (match s.noMoreRepeats with | some n => inRange 0 127 n | none => true)

/-- LANE check 8: the addresses of the board, the remote and the drive heads of present roller stations. -/
def laneAddresses (s : LaneSettings) : List Nat :=
  [s.board, s.remote] ++ (if s.ra then [s.driveRA] else []) ++ (if s.rb then [s.driveRB] else [])

/-- The checks of LANE. -/
def laneChecks (b : List Byte) : List (Option Nat) :=
  let s := LaneSettings.ofBytes b
  [ whole (b.length == 64), whole (laneRanges b), whole (decide (s.empty < s.seat)), whole (decide (s.stopped < s.ready)),
    whole (!s.ps || s.plateLength != 0), whole ((!s.ra || s.driveRA != 0) && (!s.rb || s.driveRB != 0)),
    whole (!s.rb || s.ra), whole (firstClash (· == ·) (laneAddresses s) [] 0).isNone ]

/-! ## CHANNELS and SEGMENTS -/

/-- CHANNELS check 2 for one entry's bytes (R39). -/
def channelRanges (b : List Byte) : Bool :=
  inRange 1 30 (rd b 1) && inRange 0 7 (rd b 2) && inRange 0 13 (rd b 3) && inRange 0 3 (rd b 4)
    && inRange 0 15 (rd b 5) && inRange 0 2 (rd b 14) && inRange 0 2 (rd b 15) && inRange 1 16 (rd b 16)

/-- The stations a role may name (R40). -/
def roleMayName (r : Role) (st : Option Station) : Bool :=
  match r with
  | .forceL | .forceR | .loadL | .loadR | .drumL | .drumR | .wheelL | .wheelR => st == some .ra || st == some .rb
  | .pedal | .pitGuard => st == none
  | .plateDisp | .plateEntry | .plateExit => st == some .ps
  | .aux => true

/-- Every enabled entry names an existing segment set (R41): the first that does not. -/
def missingSet (entries : List ChannelEntry) (sets : Nat) : Option Nat :=
  firstBad (fun e => !e.enabled || decide (e.segment < sets)) entries

/-- The checks of CHANNELS (R41), against the tables as they stand. -/
def channelChecks (t : Tables) (b : List Byte) : List (Option Nat) :=
  let es := channelEntries b
  [ whole (b.length % 24 == 0),
    firstBad channelRanges (slices b 24),
    firstClash (fun e f => e.enabled && f.enabled && e.head == f.head && e.channel == f.channel) es [] 0,
    firstClash (fun e f => e.enabled && f.enabled && e.station == f.station && e.role == f.role && e.role != .aux) es [] 0,
    firstBad (fun e => !e.enabled || roleMayName e.role e.station) es,
    firstBad (fun e => !e.enabled || e.applicability == .never || decide (e.low ≤ e.high)) es,
    if t.valid .segments then missingSet es ((t.content .segments).length / 34) else none ]

/-- Raw values strictly ascending. -/
def ascending : List (Int × Int) → Bool
  | (x, _) :: (y, v) :: rest => decide (x < y) && ascending ((y, v) :: rest)
  | _ => true

/-- The checks of SEGMENTS (R41), against the tables as they stand; check 4 reports the channel entry. -/
def segmentChecks (t : Tables) (b : List Byte) : List (Option Nat) :=
  [ whole (b.length % 34 == 0),
    firstBad (fun s => inRange 2 8 (rd s 0)) (slices b 34),
    firstBad (fun s => ascending (SegmentSet.ofBytes .aux s)) (slices b 34),
    if t.valid .channels then missingSet t.entries (b.length / 34) else none ]

/-! ## PLANS (R126) -/

/-- PLANS check 3 for one step record's bytes: SEAT, SPIN, CAPTURE and RELEASE name RA or RB (R124). That of a CAPTURE's settings
this check has the codes and check 4 the target and the ceiling is the model's choice (log 65). -/
def stepRanges (b : List Byte) : Bool :=
  match rd b 0 with
  | 0 | 1 | 3 => inRange 1 2 (rd b 1)
  | 4 | 9 => inRange 0 2 (rd b 1)
  | 2 => inRange 1 2 (rd b 1) && inRange 0 2 (rd b 2 % 4) && inRange 0 4 (rd b 2 / 4 % 8)
  | 5 => inRange 0 127 (rd b 1) && inRange 0 1 (rd b 2)
  | 6 => inRange 0 4 (rd b 1) && inRange 0 120 (rd b 2) && inRange 0 1 (rd b 3)
  | 7 | 8 => true
  | 10 => inRange 0 15 (rd b 1)
  | 11 => inRange 0 3 (rd b 1)
  | _ => false

/-- The bytes of a plan's step records in use. -/
def planRecords (b : List Byte) : List (List Byte) := (slicesAt (b.drop 16) 8 32).take (rd b 2)

/-- The units of a plan: each step in use with the modifiers before it, at its unit start. -/
def planUnits (p : Plan) : List (Nat × PlanUnit) :=
  (List.range p.used.length).filterMap fun i =>
    if (p.used.getD i .bad).isModifier then none
    else
      let s := unitStartOf p.used i
      (p.unitAt s).map fun u => (s, u)

/-- Code of a target part (log 14). -/
def brakePartCode : BrakePart → Nat
  | .service => 0
  | .parking => 1
  | .ovality => 2
  | .aux => 3

/-- PLANS check 4: a CAPTURE's settings pass R78 with its modifiers. -/
def unitSettingsValid (u : PlanUnit) : Bool :=
  match u.record with
  | .capture _ b => captureSettingsValid b (u.mods.part.map brakePartCode) u.mods.limitRow
  | _ => true

/-- An AWAIT condition that names a station (R124). -/
def stationCondition : AwaitCondition → Bool
  | .stationReady | .stationSeated | .axleExit => true
  | .confirm | .delay => false

/-- PLANS check 5: SEAT, SPIN, CAPTURE, RELEASE and station AWAITs work on RA or RB. -/
def unitStationValid (u : PlanUnit) : Bool :=
  let onRoller := u.station == some .ra || u.station == some .rb
  match u.record with
  | .seat _ | .spin _ _ | .capture _ _ | .release _ _ => onRoller
  | .await c _ _ => !stationCondition c || onRoller
  | _ => true

/-- PLANS check 6: no DELAY with timeout 0. -/
def delayValid : PlanStep → Bool
  | .await .delay 0 _ => false
  | _ => true

/-- PLANS check 7: no four consecutive modifiers. -/
def noFourModifiers : List PlanStep → Bool
  | a :: b :: c :: d :: rest =>
    !(a.isModifier && b.isModifier && c.isModifier && d.isModifier) && noFourModifiers (b :: c :: d :: rest)
  | _ => true

/-- The steps that take a modifier (R125). -/
def takesModifier (m s : PlanStep) : Bool :=
  match m, s with
  | .withStation _, .seat _ | .withStation _, .spin _ _ | .withStation _, .capture _ _
  | .withStation _, .release _ _ | .withStation _, .tare _ _ | .withStation _, .await _ _ _
  | .withLimit _, .capture _ _ | .withPart _, .capture _ _ => true
  | _, _ => false

/-- The step that ends a run of modifiers. -/
def stepAfter : List PlanStep → Option PlanStep
  | [] => none
  | r :: rest => if r.isModifier then stepAfter rest else some r

/-- PLANS check 8: every modifier stands before a step that takes its kind. -/
def modifiersTaken : List PlanStep → Bool
  | [] => true
  | r :: rest =>
    (!r.isModifier || (match stepAfter rest with | some s => takesModifier r s | none => false)) && modifiersTaken rest

/-- PLANS check 9: the loop start is a unit start. -/
def loopStartValid (p : Plan) : Bool := p.loopStart == 0 || !(p.used.getD (p.loopStart - 1) .bad).isModifier

/-- An AWAIT that keeps a loop from running round at once (R126). -/
def loopWait : PlanStep → Bool
  | .await .confirm _ _ | .await .axleExit _ _ | .await .delay _ _ => true
  | _ => false

/-- PLANS check 10: every ADVANCE stands at or after the loop start, with such an AWAIT between. -/
def advancesValid (p : Plan) : Bool :=
  (List.range p.used.length).all fun i =>
    match p.used.getD i .bad with
    | .advance => decide (p.loopStart ≤ i) && ((p.used.take i).drop p.loopStart).any loopWait
    | _ => true

/-- PLANS check 11: every CAPTURE before the loop start has a SPIN of its effective station before it. -/
def capturesSpun (p : Plan) : Bool :=
  (planUnits p).all fun (s, u) =>
    match u.record with
    | .capture _ _ =>
      decide (p.loopStart ≤ s)
        || (planUnits p).any fun (s', v) =>
          match v.record with
          | .spin _ _ => decide (s' < s) && v.station == u.station
          | _ => false
    | _ => true

/-- The checks of PLANS (R126); the index is the plan number. -/
def planChecks (b : List Byte) : List (Option Nat) :=
  let raw := slices b 272
  let ps := raw.map Plan.ofBytes
  [ whole (b.length % 272 == 0),
    firstBad (fun p => inRange 0 7 p.cls && inRange 1 32 p.finish && decide (p.loopStart < p.finish)) ps,
    firstBad (fun r => (planRecords r).all stepRanges) raw,
    firstBad (fun p => (planUnits p).all fun (_, u) => unitSettingsValid u) ps,
    firstBad (fun p => (planUnits p).all fun (_, u) => unitStationValid u) ps,
    firstBad (fun p => p.used.all delayValid) ps,
    firstBad (fun p => noFourModifiers p.used) ps,
    firstBad (fun p => modifiersTaken p.used) ps,
    firstBad loopStartValid ps,
    firstBad advancesValid ps,
    firstBad capturesSpun ps ]

/-! ## LIMITS (R143) -/

/-- LIMITS check 2 for one row's bytes. -/
def limitRanges (b : List Byte) : Bool :=
  inRange 0 8 (rd b 0) && inRange 0 5 (rd b 1) && (List.range 6).all fun i => inRange 0 2 (rd16 b 3 / 4 ^ i % 4)

/-- A field in use. -/
def fieldUsed (f : LimitField) : Bool := f.mode != .unused

/-- LIMITS check 5 for one field. -/
def fieldBandValid (f : LimitField) : Bool :=
  match f.mode with
  | .unused => true
  | .failAbove => decide (f.advisory ≤ f.fail)
  | .failBelow => decide (f.fail ≤ f.advisory)

/-- A vehicle row (R143). -/
def LimitRow.isVehicle (r : LimitRow) : Bool := r.applies == .vehicle

/-- The checks of LIMITS. -/
def limitChecks (b : List Byte) : List (Option Nat) :=
  let rs := limitRows b
  [ whole (b.length % 32 == 0),
    firstBad limitRanges (slices b 32),
    firstBad (fun r => !r.isVehicle || (r.required % 64 == 0 && !(r.fields.take 4).any fieldUsed)) rs,
    firstBad (fun r => r.isVehicle || !(r.fields.drop 4).any fieldUsed) rs,
    firstBad (fun r => r.fields.all fieldBandValid) rs ]

/-! ## FAULTS -/

/-- The checks of FAULTS. -/
def faultChecks (b : List Byte) : List (Option Nat) :=
  [ whole (b.length == 28),
    firstBad (fun e => inRange 0 4 (rd e 0)) (slices b 2),
    firstBad (fun e => inRange 0 127 (rd e 1) || rd e 1 == 0xFF) (slices b 2) ]

/-! ## PROMPTS -/

/-- The number of bytes `n` text lines take, where they stand whole within the content. -/
def linesExtent : Nat → List Byte → Option Nat
  | 0, _ => some 0
  | n + 1, b =>
    if b.length < 1 + rd b 0 then none else (linesExtent n (b.drop (1 + rd b 0))).map (· + (1 + rd b 0))

/-- A prompt record stands whole within the content (check 2). -/
def promptWithin (b : List Byte) : Bool :=
  decide (4 + 4 * rd b 3 ≤ b.length) && (linesExtent (rd b 2) (b.drop (4 + 4 * rd b 3))).isSome

/-- Every field of a prompt record in its range (check 3). -/
def promptRanges (b : List Byte) : Bool :=
  inRange 0 2 (rd b 0) && inRange 0 60 (rd b 1) && inRange 1 4 (rd b 2) && inRange 0 6 (rd b 3)
    && (List.range (rd b 3)).all (fun i =>
      inRange 0 3 (rd b (4 + 4 * i)) && inRange 0 19 (rd b (5 + 4 * i)) && inRange 1 8 (rd b (6 + 4 * i))
        && inRange 0 6 (rd b (7 + 4 * i) % 128))
    && (promptLines (rd b 2) (b.drop (4 + 4 * rd b 3))).all (fun l => decide (l.length ≤ 20))

/-- Two slots overlap (check 5). -/
def slotsOverlap (s u : FieldSlot) : Bool :=
  s.line == u.line && decide (s.column < u.column + u.width) && decide (u.column < s.column + s.width)

/-- The records of a PROMPTS content by prompt number; an empty directory entry has none. -/
def promptRecords (b : List Byte) : List (Option (Nat × List Byte)) :=
  (List.range 128).map fun p => if rd16 b (2 * p) = 0 then none else some (rd16 b (2 * p), b.drop (rd16 b (2 * p)))

/-- A check of every prompt there is. -/
def promptBad (ok : Nat → List Byte → Bool) (b : List Byte) : Option Nat :=
  firstBad (fun r => match r with | some (off, c) => ok off c | none => true) (promptRecords b)

/-- The checks of PROMPTS; the index is the prompt number. -/
def promptChecks (b : List Byte) : List (Option Nat) :=
  [ whole (decide (256 ≤ b.length)),
    promptBad (fun off c => decide (256 ≤ off) && promptWithin c) b,
    promptBad (fun _ c => promptRanges c) b,
    promptBad (fun _ c => (Prompt.ofBytes c).slots.all fun s => decide (s.column + s.width ≤ 20)) b,
    promptBad (fun _ c => (firstClash slotsOverlap (Prompt.ofBytes c).slots [] 0).isNone) b ]

/-! ## FORM and GLYPHS -/

/-- FORM check 2 for one placement. -/
def placementRanges (p : Placement) : Bool :=
  inRange 0 575 p.x && inRange 0 2047 p.y && p.condition != .undefined
    && (match p.body with
      | .text _ n => inRange 1 48 n
      | .field f fmt w part => inRange 0 1 fmt && inRange 1 20 w && (f != fieldPartVerdict || inRange 0 5 part)
      | .rule n th => inRange 1 576 n && inRange 1 8 th
      | .box w h => inRange 1 576 w && inRange 1 512 h
      | .undefined => false)

/-- FORM check 4 for one placement. -/
def placementField (p : Placement) : Bool :=
  match p.body with
  | .field f fmt _ _ => decide (f < fieldCount) && (fmt != 1 || numericField f)
  | _ => true

/-- FORM check 5 for one placement. -/
def placementText (pool : Nat) (p : Placement) : Bool :=
  match p.body with
  | .text off n => decide (off + n ≤ pool)
  | _ => true

/-- A CHECK_CODE placement that meets R178. -/
def showsCheckCode (base : Nat) (p : Placement) : Bool :=
  match p.body with
  | .field f _ w _ =>
    f == fieldCheckCode && p.condition == .always && !p.axleBlock && decide (4 ≤ w)
      && decide (p.x + w * 12 * p.zoom ≤ 576) && decide (p.y + 16 * p.zoom ≤ base)
  | _ => false

/-- The checks of FORM. That check 2 judges the header fields first, with index 0, is the model's choice (R195; log 63). -/
def formChecks (b : List Byte) : List (Option Nat) :=
  let f := Form.ofBytes b
  [ whole (decide (8 ≤ b.length) && b.length == 8 + 12 * rd b 4 + rd16 b 5 && decide (rd b 4 ≤ 64)
      && decide (rd16 b 5 ≤ 1024)),
    if inRange 1 2048 f.base && inRange 0 204 f.block then firstBad placementRanges f.placements else some 0,
    whole (decide (f.base + 10 * f.block ≤ 2048)),
    firstBad placementField f.placements,
    firstBad (placementText f.pool.length) f.placements,
    whole (f.placements.any (showsCheckCode f.base)) ]

/-! ## All regions (R195) -/

/-- The checks of a region, in the order of their numbers. -/
def regionChecks (t : Tables) (n : RegionName) (b : List Byte) : List (Option Nat) :=
  match n with
  | .lane => laneChecks b
  | .channels => channelChecks t b
  | .segments => segmentChecks t b
  | .plans => planChecks b
  | .limits => limitChecks b
  | .faults => faultChecks b
  | .prompts => promptChecks b
  | .form => formChecks b
  | .glyphs => [whole (b.length == 2304)]

/-- The number, from `k` on, and the index of the first check that fails. -/
def firstFailure : List (Option Nat) → Nat → Option (Nat × Nat)
  | [], _ => none
  | some i :: _, k => some (k, i)
  | none :: rest, k => firstFailure rest (k + 1)

/-- R195: the first check of a region that its content fails, with its number and index. -/
def structureCheck (t : Tables) (n : RegionName) (b : List Byte) : Option (Nat × Nat) :=
  firstFailure (regionChecks t n b) 1

end Sys2Proof.Machine
end

