-- ==== Sys2Proof/Machine/TableRequests.lean ====
section
/-! DEFINITION. The requests of the management unit itself (chapter 2): STATUS, LANE_MODE, WINDOW, the table load
protocol, the two read cursors, LANE_RESET and UP_FLUSH, and a request code that names none. -/

namespace Sys2Proof.Machine

/-! ## Unknown, STATUS, LANE_MODE, WINDOW -/

/-- A request code that names no request is refused with ARG (R20). -/
def unknownRequest (T : Tables) (_ : List Byte) (s : Live) : Answered := refuse T s .arg

/-- MGMT_UNKNOWN_REQUEST (R20). -/
def execMgmtUnknownRequest (s : State) : Out := .next (takeRequest .mgmtUnknownRequest unknownRequest s)

/-- The data of a STATUS reply (R22, R191). -/
def Live.statusData (T : Tables) (s : Live) : List Byte :=
  let i := s.mgmt.sticky
  [byte (modeCode s.mode), byte (seqStateCode s.seq.state), byte s.level]
    ++ stations.map (fun st => byte (stationStateCode (s.stationState st)))
    ++ regionNames.map (fun n => byte (regionStateCode (T.get n).state))
    ++ s.records.slots.toList.map (fun x => byte (slotStateCode x.state))
    ++ [byte s.chain.up.length, byte s.chain.down.length,
        byte (flagByte [i.eventOverrun, i.badFrameUp, i.badFrameDown, i.composerFree])]

/-- All four sticky indicators clear. -/
def Indicators.clear : Indicators :=
  { eventOverrun := false, badFrameUp := false, badFrameDown := false, composerFree := false }

/-- STATUS (R22): the indicators are copied into the reply and cleared. -/
def statusRequest (T : Tables) (a : List Byte) (s : Live) : Answered :=
  if a.isEmpty then accept T (s.setSticky .clear) (s.statusData T) else refuse T s .arg

/-- STATUS (R22). -/
def execStatus (s : State) : Out := .next (takeRequest .status statusRequest s)

/-- Lane mode codes read back. -/
def modeOfCode : Nat → Option LaneMode
  | 0 => some .auto
  | 1 => some .manual
  | 2 => some .service
  | _ => none

/-- The lane mode may change (R24). -/
def Live.modeFree (T : Tables) (s : Live) : Bool :=
  s.openSlot.isNone && s.seq.state == .standby
    && stations.all fun st =>
      !T.present st || s.stationState st == .idle || s.stationState st == .seated || s.stationState st == .offline

/-- The stations are told of a mode change (R25, R55, R157). -/
def Live.changeMode (T : Tables) (m : LaneMode) (s : Live) : Live :=
  let s1 := { s with mode := m }
  if m = .service then
    stations.foldl (fun x st => if T.present st then x.enterOffline T st else x) s1
  else if s.mode = .service then stations.foldl (Live.bringUp T) s1
  else s1

/-- LANE_MODE (R24). -/
def laneModeRequest (T : Tables) (a : List Byte) (s : Live) : Answered :=
  match modeOfCode (rd a 0) with
  | some m =>
    if a.length ≠ 1 then refuse T s .arg
    else if s.modeFree T then accept T (if m = s.mode then s else s.changeMode T m) [byte (modeCode m)]
    else refuse T s .state
  | none => refuse T s .arg

/-- LANE_MODE (R24, R25). -/
def execLaneMode (s : State) : Out := .next (takeRequest .laneMode laneModeRequest s)

/-- The arguments of WINDOW are in range (R26, R191). -/
def windowArgs (a : List Byte) : Bool :=
  a.length == 5 && decide (rd a 0 ≤ 1) && [0, 50, 100, 250].contains (rd16 a 1)
    && [250, 500, 1000, 2000, 5000].contains (rd16 a 3)

/-- WINDOW (R26). -/
def windowRequest (T : Tables) (a : List Byte) (s : Live) : Answered :=
  if windowArgs a && decide (rd16 a 1 < rd16 a 3) then
    let enabled := rd a 0 == 1
    let m := { s.mgmt with
      lower := rd16 a 1, upper := rd16 a 3, keepState := if enabled then .first else .disabled,
      keepTimer := if enabled then some 0 else none }
    accept T { s with mgmt := m } []
  else refuse T s .arg

/-- WINDOW (R26). -/
def execWindow (s : State) : Out := .next (takeRequest .window windowRequest s)

/-! ## The load protocol (R31 to R34) -/

/-- TABLE_BEGIN, its region read (R31). -/
def beginRegion (T : Tables) (n : RegionName) (total : Nat) (s : Live) : Answered :=
  if T.loading then refuse T s .busy
  else if s.classMet n then
    let T' := T.begin n total
    { tables := T', live := if T.valid n then s.regionLeaves T' T.settings.badLimit n else s, status := .ok, data := [] }
  else refuse T s .state

/-- TABLE_BEGIN (R31). -/
def tableBeginRequest (T : Tables) (a : List Byte) (s : Live) : Answered :=
  match regionOfCode (rd a 0) with
  | some n =>
    if a.length = 3 ∧ 1 ≤ rd16 a 1 ∧ rd16 a 1 ≤ regionMax n then beginRegion T n (rd16 a 1) s else refuse T s .arg
  | none => refuse T s .arg

/-- TABLE_BEGIN (R31). -/
def execTableBegin (s : State) : Out := .next (takeRequest .tableBegin tableBeginRequest s)

/-- The load context, if it is that of a region. -/
def Tables.loadOf (t : Tables) (n : RegionName) : Option LoadContext := t.load.filter (·.region == n)

/-- TABLE_DATA, its region read (R32). -/
def dataRegion (T : Tables) (n : RegionName) (offset : Nat) (data : List Byte) (s : Live) : Answered :=
  match T.loadOf n with
  | none => refuse T s .state
  | some c =>
    if offset ≠ c.expected then { refuse T s .order with data := be16 c.expected }
    else if c.total < offset + data.length then refuse T s .arg
    else { tables := T.append c data, live := s, status := .ok, data := be16 (c.expected + data.length) }

/-- TABLE_DATA (R32). -/
def tableDataRequest (T : Tables) (a : List Byte) (s : Live) : Answered :=
  match regionOfCode (rd a 0) with
  | some n =>
    if 4 ≤ a.length ∧ a.length ≤ 47 ∧ rd16 a 1 ≤ 8191 then dataRegion T n (rd16 a 1) (a.drop 3) s else refuse T s .arg
  | none => refuse T s .arg

/-- TABLE_DATA (R32). -/
def execTableData (s : State) : Out := .next (takeRequest .tableData tableDataRequest s)

/-- TABLE_END, its region read (R33). -/
def endRegion (T : Tables) (n : RegionName) (check : Nat) (s : Live) : Answered :=
  match T.loadOf n with
  | none => refuse T s .state
  | some c =>
    let content := (T.get n).content
    let bad := T.finish n .empty
    let crc := (crc16 content).toNat
    if c.expected < c.total then { tables := bad, live := s, status := .check, data := be16 c.expected }
    else if crc ≠ check then { tables := bad, live := s, status := .check, data := be16 crc }
    else match structureCheck T n content with
      | some (k, i) => { tables := bad, live := s, status := .invalidTable, data := [byte k, byte i] }
      | none =>
        let T' := T.finish n { state := .valid, content := content }
        { tables := T', live := s.regionBecomes T' T.settings.badLimit n, status := .ok, data := [] }

/-- TABLE_END (R33). -/
def tableEndRequest (T : Tables) (a : List Byte) (s : Live) : Answered :=
  match regionOfCode (rd a 0) with
  | some n => if a.length = 3 then endRegion T n (rd16 a 1) s else refuse T s .arg
  | none => refuse T s .arg

/-- TABLE_END (R33). -/
def execTableEnd (s : State) : Out := .next (takeRequest .tableEnd tableEndRequest s)

/-- TABLE_ABORT (R34). -/
def tableAbortRequest (T : Tables) (a : List Byte) (s : Live) : Answered :=
  match regionOfCode (rd a 0) with
  | some n =>
    if a.length ≠ 1 then refuse T s .arg
    else match T.loadOf n with
      | some _ => accept (T.finish n .empty) s []
      | none => refuse T s .state
  | none => refuse T s .arg

/-- TABLE_ABORT (R34). -/
def execTableAbort (s : State) : Out := .next (takeRequest .tableAbort tableAbortRequest s)

/-! ## Reading back (R36, R37) -/

/-- A read of a region from an offset (R36). -/
def readRegion (T : Tables) (n : RegionName) (offset count : Nat) (s : Live) : Answered :=
  if T.valid n then
    let c := (T.get n).content
    if offset < c.length then
      let bytes := (c.drop offset).take count
      accept T { s with mgmt := { s.mgmt with tableCursor := some (n, offset + bytes.length) } }
        (byte (regionCode n) :: (be16 offset ++ byte bytes.length :: bytes))
    else refuse T s .notFound
  else refuse T s .state

/-- TABLE_READ (R36); with continue set the region and offset arguments are not judged (log 42). -/
def tableReadRequest (T : Tables) (a : List Byte) (s : Live) : Answered :=
  if a.length = 5 ∧ 1 ≤ rd a 3 ∧ rd a 3 ≤ 40 ∧ rd a 4 ≤ 1 then
    if rd a 4 = 1 then
      match s.mgmt.tableCursor with
      | some (n, off) => readRegion T n off (rd a 3) s
      | none => refuse T s .state
    else match regionOfCode (rd a 0) with
      | some n => if rd16 a 1 ≤ 8191 then readRegion T n (rd16 a 1) (rd a 3) s else refuse T s .arg
      | none => refuse T s .arg
  else refuse T s .arg

/-- TABLE_READ (R36). -/
def execTableRead (s : State) : Out := .next (takeRequest .tableRead tableReadRequest s)

/-- A slot by its number, 1 to 4. -/
def slotOf : Nat → Option (Fin 4)
  | 1 => some 0
  | 2 => some 1
  | 3 => some 2
  | 4 => some 3
  | _ => none

/-- The item after the one last read from a slot; after TOTALS none (R37). -/
def nextItem (axles : Nat) : Option Nat → Option Nat
  | none => some 0
  | some k => if k = itemTotals then none else if k < axles then some (k + 1) else some itemTotals

/-- The content of an item, if the record has it (R37, R192). -/
def itemContent (state : SlotState) (r : VehicleRecord) (item : Nat) : Option (List Byte) :=
  if item = 0 then some (headerItem state r)
  else if item = itemTotals then some (totalsItem r)
  else (r.axle? item).map axleItem

/-- The item a read of a slot returns (R37). -/
def readItem (T : Tables) (i : Fin 4) (item : Nat) (next : Bool) (s : Live) : Answered :=
  let x := s.records.slots.get i
  match x.record with
  | none => refuse T s .state
  | some r =>
    if x.state = .free then refuse T s .state
    else match if next then nextItem r.axles.length (s.mgmt.recordCursor.get i) else some item with
      | none => refuse T s .notFound
      | some k =>
        match itemContent x.state r k with
        | none => refuse T s .notFound
        | some c =>
          accept T { s with mgmt := { s.mgmt with recordCursor := s.mgmt.recordCursor.set i (some k) } }
            (byte (slotNumber i) :: byte k :: c)

/-- RECORD_READ (R37); with next set the item argument is not judged (log 42). -/
def recordReadRequest (T : Tables) (a : List Byte) (s : Live) : Answered :=
  match slotOf (rd a 0) with
  | some i =>
    if a.length = 3 ∧ rd a 2 ≤ 1 ∧ (rd a 2 = 1 ∨ rd a 1 ≤ itemTotals) then readItem T i (rd a 1) (rd a 2 == 1) s
    else refuse T s .arg
  | none => refuse T s .arg

/-- RECORD_READ (R37). -/
def execRecordRead (s : State) : Out := .next (takeRequest .recordRead recordReadRequest s)

/-! ## LANE_RESET and UP_FLUSH -/

/-- LANE_RESET (R38): its reply names the region whose load and the slot whose record it ended. -/
def laneResetRequest (T : Tables) (a : List Byte) (s : Live) : Answered :=
  if a.isEmpty then
    { tables := T.abandon, live := s.laneReset T, status := .ok,
      data := [byte ((T.load.map fun c => regionCode c.region).getD 0xFF), byte ((s.openSlot.map slotNumber).getD 0)] }
  else refuse T s .arg

/-- LANE_RESET (R38). -/
def execLaneReset (s : State) : Out := .next (takeRequest .laneReset laneResetRequest s)

/-- UP_FLUSH (R13): the freed places are offered before the reply. -/
def upFlushRequest (T : Tables) (a : List Byte) (s : Live) : Answered :=
  if a.isEmpty then
    let q := flushMirrors s.chain.up
    accept T (s.setUp q).offerFreedUp [byte (s.chain.up.length - q.length)]
  else refuse T s .arg

/-- UP_FLUSH (R13). -/
def execUpFlush (s : State) : Out := .next (takeRequest .upFlush upFlushRequest s)

end Sys2Proof.Machine
end

