-- ==== Sys2Proof/Machine/LaneRequests.lean ====
section
/-! DEFINITION. The requests of the record store (chapter 7), the stations (chapter 4), the fault action unit (chapter
10), the guidance unit (chapter 11) and the print queue (chapter 12). -/

namespace Sys2Proof.Machine

/-! ## VEHICLE_BEGIN (R115) -/

/-- A text argument: a length byte, then that many characters 0x20-0x7E; length 0 is absent. The rest follows. -/
def readText (limit : Nat) (b : List Byte) : Option (Option (List Byte) × List Byte) :=
  match b with
  | [] => none
  | n :: rest =>
    let t := rest.take n.toNat
    if n.toNat ≤ limit ∧ t.length = n.toNat ∧ t.all (fun c => decide (0x20 ≤ c.toNat ∧ c.toNat ≤ 0x7E)) = true then
      some (if n.toNat = 0 then none else some t, rest.drop n.toNat)
    else none

/-- A kinds list of `n` entries. -/
def readKinds (b : List Byte) : Option (List AxleKind) := b.mapM fun k => axleKindOfCode k.toNat

/-- A fresh vehicle record (R115). -/
def freshRecord (cls : Nat) (plan : Option Nat) (expected : Nat) (kinds : List AxleKind)
    (ident date operator : Option (List Byte)) : VehicleRecord :=
  { cls := cls, plan := plan, expected := expected, kinds := kinds, ident := ident, date := date, operator := operator,
    forced := false, rollerOnly := false, axles := [], totalLoad := none, serviceEff := none, parkingEff := none,
    verdict := .absent, checkCode := none, printCount := 0 }

/-- The arguments of VEHICLE_BEGIN as a fresh record with the plan argument, or out of range (R20, R115, R191). -/
def readBegin (a : List Byte) : Option VehicleRecord :=
  let n := rd a 2
  if a.length < 3 + n ∨ 7 < rd a 0 ∨ (7 < rd a 1 ∧ rd a 1 ≠ 0xFF) ∨ n < 1 ∨ 10 < n then none
  else
    match readKinds ((a.drop 3).take n), readText 12 (a.drop (3 + n)) with
    | some ks, some (ident, b) =>
      match readText 10 b with
      | some (date, c) =>
        match readText 6 c with
        | some (operator, []) => some (freshRecord (rd a 0) (if rd a 1 = 0xFF then none else some (rd a 1)) n ks ident date operator)
        | _ => none
      | none => none
    | _, _ => none

/-- The lowest-numbered FREE slot. -/
def Live.freeSlot (s : Live) : Option (Fin 4) := fourIndices.find? fun i => (s.records.slots.get i).state == .free

/-- The plan argument fits in AUTO mode (R115, refusal 5). -/
def planFits (T : Tables) (r : VehicleRecord) : Bool :=
  match r.plan with
  | some n => decide (n < T.planCount) && (T.plan n).cls == r.cls
  | none => false

/-- The regions VEHICLE_BEGIN needs are VALID (R115, refusal 3). -/
def regionsForRecord (T : Tables) (m : LaneMode) : Bool :=
  T.valid .lane && T.valid .channels && T.valid .segments && T.valid .limits && (m != .auto || T.valid .plans)

/-- A record opens in a slot (R115, R127). -/
def Live.openRecordIn (i : Fin 4) (r : VehicleRecord) (s : Live) : Live :=
  let s1 := s.setSlot i { state := .opened, record := some r }
  let s2 := { s1 with mgmt := { s1.mgmt with recordCursor := s1.mgmt.recordCursor.set i none } }
  if s.mode = .auto then s2.seqBegin else s2

/-- VEHICLE_BEGIN (R115). -/
def vehicleBeginRequest (T : Tables) (a : List Byte) (s : Live) : Answered :=
  match readBegin a with
  | none => refuse T s .arg
  | some r =>
    if s.openSlot.isSome ∨ s.mode = .service then refuse T s .state
    else match s.freeSlot with
      | none => refuse T s .full
      | some i =>
        if regionsForRecord T s.mode = false then refuse T s .invalidTable
        else if s.level = 3 then refuse T s .locked
        else if s.mode = .auto then
          if planFits T r then accept T (s.openRecordIn i r) [byte (slotNumber i)] else refuse T s .arg
        else accept T (s.openRecordIn i { r with plan := none }) [byte (slotNumber i)]

/-- VEHICLE_BEGIN (R115). -/
def execVehicleBegin (s : State) : Out := .next (takeRequest .vehicleBegin vehicleBeginRequest s)

/-! ## Close, abort, release (R116, R118, R121) -/

/-- VEHICLE_CLOSE (R116). -/
def vehicleCloseRequest (T : Tables) (a : List Byte) (s : Live) : Answered :=
  if a.isEmpty = false then refuse T s .arg
  else match s.openSlot with
    | some i => accept T ((s.updOpen fun r => { r with forced := true }).planClose T) [byte (slotNumber i)]
    | none => refuse T s .state

/-- VEHICLE_CLOSE (R116). -/
def execVehicleClose (s : State) : Out := .next (takeRequest .vehicleClose vehicleCloseRequest s)

/-- VEHICLE_ABORT (R118). -/
def vehicleAbortRequest (T : Tables) (a : List Byte) (s : Live) : Answered :=
  if a.isEmpty = false then refuse T s .arg
  else match s.openSlot with
    | some i => accept T (((s.endAllCaptures T .closed).abortRecord).seqClosed T) [byte (slotNumber i)]
    | none => refuse T s .state

/-- VEHICLE_ABORT (R118). -/
def execVehicleAbort (s : State) : Out := .next (takeRequest .vehicleAbort vehicleAbortRequest s)

/-- A slot stands in the print queue. -/
def Live.printQueued (i : Fin 4) (s : Live) : Bool := s.printer.queue.any (·.slot == i)

/-- A slot argument. -/
def slotArg (a : List Byte) : Option (Fin 4) := if a.length = 1 then slotOf (rd a 0) else none

/-- A slot becomes FREE: its record and its read cursor go (R37, R121). -/
def Live.freeTheSlot (i : Fin 4) (s : Live) : Live :=
  let s1 := s.setSlot i .empty
  { s1 with mgmt := { s1.mgmt with recordCursor := s1.mgmt.recordCursor.set i none } }

/-- RECORD_RELEASE (R121). -/
def recordReleaseRequest (T : Tables) (a : List Byte) (s : Live) : Answered :=
  match slotArg a with
  | none => refuse T s .arg
  | some i =>
    let x := (s.records.slots.get i).state
    if s.printQueued i || s.resultPending i then refuse T s .busy
    else if x = .free ∨ x = .opened then refuse T s .state
    else accept T (s.freeTheSlot i) [byte (slotNumber i)]

/-- RECORD_RELEASE (R121). -/
def execRecordRelease (s : State) : Out := .next (takeRequest .recordRelease recordReleaseRequest s)

/-! ## STATION (R62, R141) -/

/-- What STATION adds in MANUAL mode with a record OPEN (R141). -/
def Live.manualMarks (s : Live) : Bool := s.mode == .manual && s.openRecord.isSome

/-- The reply to a STATION request that reached its station: its state as it then stands (R62). -/
def stationReply (T : Tables) (st : Station) (a : Answer) (s : Live) : Answered :=
  match answerStatus a with
  | .ok => accept T s [byte (stationStateCode (s.stationState st))]
  | x => refuse T s x

/-- A STATION request for a roller station, its arguments in range: ARG for PS, then STATE in AUTO mode (R62). -/
def onRollerRequest (T : Tables) (a : List Byte) (f : Roller → Answered) (s : Live) : Answered :=
  match stationOfCode (rd a 0) with
  | none => refuse T s .arg
  | some st =>
    match stationRoller st with
    | none => refuse T s .arg
    | some r => if s.mode = .auto then refuse T s .state else f r

/-- STATION SPIN (R62, R63). -/
def stationSpinRequest (T : Tables) (a : List Byte) (s : Live) : Answered :=
  if a.length ≠ 2 then refuse T s .arg
  else onRollerRequest T a (fun r =>
    let x := s.requestSpin T r s.manualMarks
    stationReply T (stationOf r) x.1 (x.2.startWork T (stationOf r) x.1)) s

/-- STATION_SPIN (R63). -/
def execStationSpin (s : State) : Out := .next (takeRequest .stationSpin stationSpinRequest s)

/-- An optional code, absent at 0xFF. -/
def codeOrNone (n : Nat) : Option Nat := if n = 0xFF then none else some n

/-- The requested marks of a STATION CAPTURE (R141; log 29). -/
def Live.captureMarks (c : CaptureSettings) (r : Roller) (s : Live) : Marks :=
  let held := match (s.bound (stationOf (holderOf c r))).bind fun i => s.axle? i with
    | some x => (x.brake c.part).values.isSome
    | none => false
  { manual := s.manualMarks, repeated := s.manualMarks && held }

/-- STATION CAPTURE (R62, R78, R79, R90): the settings are bytes 2-7 of a CAPTURE record, target part and limit row. -/
def stationCaptureRequest (T : Tables) (a : List Byte) (s : Live) : Answered :=
  let b := (a.drop 2).take 6
  if a.length ≠ 10 ∨ rd b 0 % 4 = 3 then refuse T s .arg
  else onRollerRequest T a (fun r =>
    if captureSettingsValid b (codeOrNone (rd a 8)) (codeOrNone (rd a 9)) then
      let c := captureSettings b ((codeOrNone (rd a 8)).map brakePartOfCode) (codeOrNone (rd a 9))
      let x := s.requestCapture T r c (s.captureMarks c r)
      stationReply T (stationOf r) x.1 (x.2.startCapture T r c x.1)
    else refuse T s .arg) s

/-- STATION_CAPTURE (R79). -/
def execStationCapture (s : State) : Out := .next (takeRequest .stationCapture stationCaptureRequest s)

/-- STATION RELEASE (R62, R67). -/
def stationReleaseRequest (T : Tables) (a : List Byte) (s : Live) : Answered :=
  if a.length ≠ 2 then refuse T s .arg
  else onRollerRequest T a (fun r =>
    let x := s.requestRelease T r
    stationReply T (stationOf r) x.1 x.2) s

/-- STATION_RELEASE (R67). -/
def execStationRelease (s : State) : Out := .next (takeRequest .stationRelease stationReleaseRequest s)

/-- STATION TARE (R56, R62, R95). -/
def stationTareRequest (T : Tables) (a : List Byte) (s : Live) : Answered :=
  match stationOfCode (rd a 0) with
  | none => refuse T s .arg
  | some st =>
    if a.length ≠ 2 then refuse T s .arg
    else if s.mode = .auto then refuse T s .state
    else
      let x := s.requestTare T st true
      stationReply T st x.1 (x.2.beginTare T st x.1)

/-- STATION_TARE (R95). -/
def execStationTare (s : State) : Out := .next (takeRequest .stationTare stationTareRequest s)

/-! ## CLEAR_FAULT, RESUME, CLEAR_LOCKOUT (R159, R160, R161) -/

/-- The HOLD entries CLEAR_FAULT judges: those of a station's scope, or with ALL every one (R159). -/
def judgedBy (st : Option Station) (e : FaultEntry) : Bool :=
  e.action == .hold && (match st with | some x => e.scope == .station x | none => true)

/-- The reply of CLEAR_FAULT and RESUME: OK, or STATE naming the first entry that remains (R159, R160, R191). -/
def clearedReply (T : Tables) (p : FaultEntry → Bool) (removed : Nat) (s : Live) : Answered :=
  match s.faults.find? p with
  | some e =>
    { refuse T s .state with data := [byte (sourceCode e.source), byte (scopeCode e.scope), byte removed] }
  | none => accept T s [byte removed]

/-- CLEAR_FAULT for the entries it judges (R159). -/
def clearJudged (T : Tables) (p : FaultEntry → Bool) (s : Live) : Answered :=
  let gone := fun (e : FaultEntry) => p e && !e.present
  clearedReply T p (s.faults.countP gone) ((s.removeEntries T gone).releaseStations T)

/-- CLEAR_FAULT (R159). -/
def clearFaultRequest (T : Tables) (a : List Byte) (s : Live) : Answered :=
  if a.length = 1 ∧ rd a 0 ≤ 3 then clearJudged T (judgedBy (stationOfCode (rd a 0))) s else refuse T s .arg

/-- CLEAR_FAULT (R159). -/
def execClearFault (s : State) : Out := .next (takeRequest .clearFault clearFaultRequest s)

/-- RESUME (R160). -/
def resumeRequest (T : Tables) (a : List Byte) (s : Live) : Answered :=
  if a.isEmpty = false then refuse T s .arg
  else
    let stop := fun (e : FaultEntry) => e.action == .stop
    let gone := fun (e : FaultEntry) => stop e && !e.present
    let s1 := (s.removeEntries T gone).releaseStations T
    clearedReply T stop (s.faults.countP gone) (if s1.faults.any stop then s1 else s1.seqResume T)

/-- RESUME (R160). -/
def execResume (s : State) : Out := .next (takeRequest .resume resumeRequest s)

/-- A LOCK entry. -/
def isLock (e : FaultEntry) : Bool := e.action == .lock

/-- What an accepted CLEAR_LOCKOUT does, in order (R161, R103). That the stations raise TARE_STALE in the order PS, RA, RB is
the model's choice (log 54). -/
def Live.clearLocks (T : Tables) (s : Live) : Live :=
  let s1 := s.removeEntries T isLock
  let s2 := stations.foldl (Live.makeStale T) s1
  let s3 := stations.foldl (fun x st => x.setTare st { x.tare st with bar := false }) s2
  (s3.releaseStations T).seqUnlock

/-- CLEAR_LOCKOUT (R161). -/
def clearLockoutRequest (T : Tables) (a : List Byte) (s : Live) : Answered :=
  if a.isEmpty = false then refuse T s .arg
  else if s.lines.estop then { refuse T s .state with data := [byte (sourceCode .estop)] }
  else match s.faults.find? (fun e => isLock e && e.present) with
    | some e => { refuse T s .state with data := [byte (sourceCode e.source)] }
    | none =>
      if s.faults.any isLock then accept T (s.clearLocks T) [byte (s.faults.countP isLock)]
      else { refuse T s .state with data := [0xFF] }

/-- CLEAR_LOCKOUT (R161). -/
def execClearLockout (s : State) : Out := .next (takeRequest .clearLockout clearLockoutRequest s)

/-! ## PROMPT_POST and PROMPT_CLEAR (R169) -/

/-- PROMPT_POST (R169): the reply carries the entry's position, 1 at the head. -/
def promptPostRequest (T : Tables) (a : List Byte) (s : Live) : Answered :=
  if a.length = 1 ∧ rd a 0 ≤ 127 then
    let s1 := s.postPrompt T (rd a 0) .host false []
    match indexOfFirst (fun (e : PromptEntry) => e.number == rd a 0) s1.guide.queue 1 with
    | some k => accept T s1 [byte k]
    | none => refuse T s1 .full
  else refuse T s .arg

/-- PROMPT_POST (R169). -/
def execPromptPost (s : State) : Out := .next (takeRequest .promptPost promptPostRequest s)

/-- PROMPT_CLEAR with ALL (R169). That it renders at most once, with the final queue, is the model's choice (log 62). -/
def clearAllPrompts (T : Tables) (s : Live) : Answered :=
  let q := s.guide.queue.filter fun e => !e.links.isEmpty
  accept T (s.setQueue T q) [byte (s.guide.queue.length - q.length)]

/-- PROMPT_CLEAR naming a prompt (R169). -/
def clearPrompt (T : Tables) (n : Nat) (s : Live) : Answered :=
  match s.guide.queue.find? (·.number == n) with
  | none => refuse T s .notFound
  | some e =>
    if e.links.isEmpty then accept T (s.setQueue T (s.guide.queue.filter fun x => x.number != n)) []
    else refuse T s .state

/-- PROMPT_CLEAR (R169). -/
def promptClearRequest (T : Tables) (a : List Byte) (s : Live) : Answered :=
  if a.length ≠ 1 then refuse T s .arg
  else if rd a 0 = 0xFF then clearAllPrompts T s
  else if rd a 0 ≤ 127 then clearPrompt T (rd a 0) s
  else refuse T s .arg

/-- PROMPT_CLEAR (R169). -/
def execPromptClear (s : State) : Out := .next (takeRequest .promptClear promptClearRequest s)

/-! ## PRINT and PRINT_CANCEL (R180, R187) -/

/-- PRINT (R180). -/
def printRequest (T : Tables) (a : List Byte) (s : Live) : Answered :=
  match slotArg a with
  | none => refuse T s .arg
  | some i =>
    let x := (s.records.slots.get i).state
    if x ≠ .closed ∧ x ≠ .issued then refuse T s .state
    else if s.printQueued i then refuse T s .busy
    else accept T (s.appendPrint i) [byte (s.printer.queue.length + 1)]

/-- PRINT (R180). -/
def execPrint (s : State) : Out := .next (takeRequest .print printRequest s)

/-- A slot's entry is the head of the print queue. -/
def Live.printHead (i : Fin 4) (s : Live) : Bool := (s.printer.queue.head?.map (·.slot)) == some i

/-- A slot's entry leaves the print queue; a job under way for it is abandoned (R187). -/
def Live.cancelPrint (i : Fin 4) (s : Live) : Live :=
  let s1 := s.setPrintQueue (s.printer.queue.filter fun e => e.slot != i)
  if s.printHead i && s.printer.underWay then
    s1.setPrinter { s1.printer.abandon s.lines.bandAck with composer := .idle }
  else s1

/-- PRINT_CANCEL (R187). -/
def printCancelRequest (T : Tables) (a : List Byte) (s : Live) : Answered :=
  match slotArg a with
  | none => refuse T s .arg
  | some i => if s.printQueued i then accept T (s.cancelPrint i) [] else refuse T s .notFound

/-- PRINT_CANCEL (R187). -/
def execPrintCancel (s : State) : Out := .next (takeRequest .printCancel printCancelRequest s)

end Sys2Proof.Machine
end

