-- ==== Sys2Proof/Machine/Timers.lean ====
section
/-! DEFINITION. The controller's own events: the sequencer's unit, auto-tare, and every expiry. A command whose moment has
not come has no effect (log 4). Each event has a test that says its moment has come; `Step` takes its due events from the
same tests. -/

namespace Sys2Proof.Machine

/-- A running timer has reached a limit. -/
def reached (t : Option Nat) (limit : Nat) : Bool :=
  match t with
  | some n => decide (limit ≤ n)
  | none => false

/-! ## The sequencer (R128, R130) -/

/-- SEQUENCER_TAKE_UNIT (R128). -/
def execSequencerTakeUnit (s : State) : Out :=
  .next (s.onLive fun T l => if l.seq.state = .running then l.takeUnit T else l)

/-- The AWAIT whose timeout has been reached (R130). -/
def Live.awaitDue (s : Live) : Option (AwaitCondition × Station × Bool) :=
  match s.seq.state, s.seq.wait with
  | .waiting, some (.await c st timeout halt) =>
    if 0 < timeout ∧ reached s.seq.awaitTimer (timeout * 1000) = true then some (c, st, halt) else none
  | _, _ => none

/-- AWAIT_TIMEOUT (R130). -/
def execAwaitTimeout (s : State) : Out :=
  .next (s.onLive fun T l =>
    match l.awaitDue with
    | some (c, st, halt) => l.awaitExpires T c st halt
    | none => l)

/-! ## Tare upkeep (R100, R102) -/

/-- The gap queue that feeds a station is empty (R102). -/
def Live.feedEmpty (s : Live) : Station → Bool
  | .ps => true
  | .ra => s.tracker.g1.isEmpty
  | .rb => s.tracker.g2.isEmpty

/-- The age of a tare is at least half the interval, truncated (R102). -/
def Tare.halfway (T : Tables) (t : Tare) : Bool :=
  match t.age with
  | some a => decide (T.settings.tareInterval / 2 ≤ a)
  | none => false

/-- The conditions of an auto-tare hold together (R102). -/
def Live.autoTareDue (T : Tables) (st : Station) (s : Live) : Bool :=
  let t := s.tare st
  T.valid .lane && T.settings.autoTare && s.stationState st == .idle && (s.bound st).isNone && s.feedEmpty st
    && s.mode != .service && (t.stale || t.halfway T) && !t.bar

/-- AUTO_TARE (R102): a TARE request of tare upkeep's. -/
def execAutoTare (st : Station) (s : State) : Out :=
  .next (s.onLive fun T l =>
    if l.autoTareDue T st then
      let x := l.requestTare T st false
      x.2.beginTare T st x.1
    else l)

/-- A second of tare age has passed (R100). -/
def Live.tareAgeDue (st : Station) (s : Live) : Bool :=
  (s.tare st).age.isSome && decide (Config.tareSecond ≤ (s.tare st).ageMs)

/-- The age rises by one, to at most 65535 (R100). -/
def Tare.older (t : Tare) : Tare :=
  { t with age := t.age.map fun a => min 65535 (a + 1), ageMs := t.ageMs - Config.tareSecond }

/-- A second of tare age: the tare may become STALE (R100). -/
def Live.tareTick (T : Tables) (st : Station) (s : Live) : Live :=
  let s1 := s.setTare st (s.tare st).older
  if (s1.tare st).due T then s1.makeStale T st else s1

/-- TARE_AGE_TICK (R100). -/
def execTareAgeTick (st : Station) (s : State) : Out :=
  .next (s.onLive fun T l => if l.tareAgeDue st then l.tareTick T st else l)

/-! ## Keepalive and silence (R28, R49) -/

/-- The keepalive timer has reached the upper limit (R28). -/
def Live.upperDue (s : Live) : Bool :=
  (s.mgmt.keepState == .first || s.mgmt.keepState == .timing) && reached s.mgmt.keepTimer s.mgmt.upper

/-- KEEPALIVE_UPPER_EXPIRY (R28). -/
def execKeepaliveUpperExpiry (s : State) : Out :=
  .next (s.onBoth fun T l =>
    if l.upperDue then linkWindow T { l with mgmt := { l.mgmt with keepState := .lapsed, keepTimer := none } } else (T, l))

/-- The silence timer of an entry has reached the limit, and the entry is not yet silent (R48). -/
def Live.silenceDue (T : Tables) (i : Nat) (s : Live) : Bool :=
  match s.steer.channels[i]? with
  | some c => !c.silent && reached c.silence T.settings.silence
  | none => false

/-- SILENCE_LIMIT (R49). -/
def execSilenceLimit (i : Nat) (s : State) : Out :=
  .next (s.onLive fun T l => if l.silenceDue T i then l.fallSilent T i else l)

/-! ## Roller stations (R59, R63, R65, R67, R83) -/

/-- The settle timer has reached the settle time (R59). -/
def Live.settleDue (T : Tables) (r : Roller) (s : Live) : Bool :=
  (s.roller r).state == .settling && reached (s.roller r).settleTimer T.settings.settle

/-- SEATED at the end of SETTLING (R59): a first seating is reported to the tracker before the sequencer sees it. That the
sequencer sees SEATED before a MISTRACK of the seating is raised is the model's choice (log 52). -/
def Live.settle (T : Tables) (r : Roller) (s : Live) : Live :=
  let st := stationOf r
  let x := (s.roller r).stopTimers
  if x.seated then (s.setRoller r x).enter T st .seated
  else
    let y := ((s.setRoller r { x with seated := true }).putState st .seated).trackSeating T r
    Live.raiseMistrack T st (y.1.seqSees T st, y.2)

/-- SETTLE_EXPIRY (R59, R109, R110). -/
def execSettleExpiry (r : Roller) (s : State) : Out :=
  .next (s.onLive fun T l => if l.settleDue T r then l.settle T r else l)

/-- The spin timer has reached the spin limit (R63). -/
def Live.spinDue (r : Roller) (s : Live) : Bool :=
  (s.roller r).state == .spinning && reached (s.roller r).spinTimer Config.spinLimit

/-- SPIN_TIMEOUT (R63). -/
def execSpinTimeout (r : Roller) (s : State) : Out :=
  .next (s.onLive fun T l =>
    if l.spinDue r then (l.enterReleasing T r).raise T .driveTimeout (.station (stationOf r)) 0 else l)

/-- The ready timer has reached the ready limit (R65). -/
def Live.readyDue (r : Roller) (s : Live) : Bool :=
  (s.roller r).state == .ready && reached (s.roller r).readyTimer Config.readyLimit

/-- READY_LAPSED (R65). -/
def execReadyLapsed (r : Roller) (s : State) : Out :=
  .next (s.onLive fun T l =>
    if l.readyDue r then
      let st := stationOf r
      (l.enterReleasing T r).event .readyLapsed (some st) (l.boundOrZero st) 0
    else l)

/-- The release timer has reached the release limit (R67). -/
def Live.releaseDue (r : Roller) (s : Live) : Bool :=
  (s.roller r).state == .releasing && reached (s.roller r).releaseTimer Config.releaseLimit

/-- The release limit reached: DRIVE STOP once more, the timer restarts, DRIVE_TIMEOUT (R67). -/
def Live.releaseExpires (T : Tables) (r : Roller) (s : Live) : Live :=
  let s1 := s.offerDrive T r false
  (s1.setRoller r { s1.roller r with releaseTimer := some 0 }).raise T .driveTimeout (.station (stationOf r)) 0

/-- RELEASE_TIMEOUT (R67). -/
def execReleaseTimeout (r : Roller) (s : State) : Out :=
  .next (s.onLive fun T l => if l.releaseDue r then l.releaseExpires T r else l)

/-- The capture held by a station has run for the capture limit (R83). -/
def Live.captureDue (r : Roller) (s : Live) : Option Capture :=
  (s.roller r).capture.filter fun c => decide (Config.captureLimit ≤ c.timer)

/-- CAPTURE_TIMEOUT (R83). -/
def execCaptureTimeout (r : Roller) (s : State) : Out :=
  .next (s.onLive fun T l =>
    match l.captureDue r with
    | some c => (l.endCapture T r .timeout fun _ => normalLeaving c.settings .timeout).judgeReady T
    | none => l)

/-! ## The board (R168, R171, R172) -/

/-- The hold time of the shown prompt has passed, and it holds no link (R168). -/
def Live.holdDue (s : Live) : Bool :=
  match s.guide.queue with
  | e :: _ => decide (0 < e.hold) && e.links.isEmpty && reached s.guide.holdTimer (e.hold * 1000)
  | [] => false

/-- PROMPT_HOLD_EXPIRY (R168). -/
def execPromptHoldExpiry (s : State) : Out :=
  .next (s.onLive fun T l => if l.holdDue then l.setQueue T (l.guide.queue.drop 1) else l)

/-- The refresh timer has expired (R171). -/
def Live.refreshDue (s : Live) : Bool := reached s.guide.refreshTimer Config.refreshPeriod

/-- A refresh (R171, R172): at the tenth every line is resent; then the lines, then the bars. -/
def Live.refresh (T : Tables) (s : Live) : Live :=
  let again := decide (10 ≤ s.guide.resend + 1)
  let s1 := s.setGuide { s.guide with refreshTimer := some 0, resend := if again then 0 else s.guide.resend + 1 }
  ((if again then s1.allDirty else s1).render T).refreshBars T

/-- REFRESH_EXPIRY (R171). -/
def execRefreshExpiry (s : State) : Out := .next (s.onLive fun T l => if l.refreshDue then l.refresh T else l)

end Sys2Proof.Machine
end

