-- ==== Sys2Proof/Machine/Lines.lean ====
section
/-! DEFINITION. The composer and the print line as commands (chapter 12), the ESTOP line (R158) and RESET (R17). -/

namespace Sys2Proof.Machine

/-! ## The composer (R180, R181, R182) -/

/-- PRINT_JOB_START (R180, R181). -/
def execPrintJobStart (s : State) : Out := .next (s.onLive fun T l => if l.jobStarts T then l.startJob T else l)

/-- The composition of a buffer's band completes (R181). -/
def Live.bandComposed (T : Tables) (n : BufferName) (s : Live) : Live :=
  let b := s.printer.buffer n
  match b.state, s.printer.job with
  | .composing, some j =>
    s.setPrinter (s.printer.setBuffer n { b with state := .full, content := s.bandContent T j b.band }).beginBand
  | _, _ => s

/-- BAND_COMPOSED (R181). -/
def execBandComposed (n : BufferName) (s : State) : Out := .next (s.onLive fun T l => l.bandComposed T n)

/-- The job whose next band stands FULL while the line is IDLE and the printer ready (R181, R182). -/
def Live.offerDue (s : Live) : Option Job :=
  match s.printer.job with
  | some j =>
    let b := s.printer.buffer (bufferOf j.nextSend)
    if s.printer.line = .idle ∧ s.printer.composer = .composing ∧ b.state = .full ∧ b.band = j.nextSend
        ∧ printerReady s.lines = true then some j else none
  | none => none

/-- A band is offered (R182): strobed out, BAND_REQ raised, the handshake timer started; at the last band the composer
becomes DRAINING (R181). -/
def Printer.offer (p : Printer) (j : Job) : Printer :=
  let n := bufferOf j.nextSend
  let b := p.buffer n
  let p1 := p.setBuffer n { b with state := .offered }
  { p1 with
    strobed := b.content, bandReq := true, timer := some 0, line := .offered,
    job := some { j with nextSend := j.nextSend + 1 },
    composer := if j.nextSend + 1 = j.length then .draining else .composing }

/-- BAND_OFFER (R182). -/
def execBandOffer (s : State) : Out :=
  .next (s.onLive fun _ l =>
    match l.offerDue with
    | some j => l.setPrinter (l.printer.offer j)
    | none => l)

/-! ## The printer's lines (R182 to R186) -/

/-- A change of the input lines; while RESET is asserted it is all that happens (R17; log 12). -/
def State.onLines (lines : InputLines → InputLines) (f : Tables → Live → Live) (s : State) : State :=
  let l := { s.live with lines := lines s.live.lines }
  { s with live := if s.live.resetAsserted then l else f s.tables l }

/-- The printer has taken the band offered (R182, R183). -/
def Live.bandTaken (s : Live) : Live :=
  match s.printer.line with
  | .offered =>
    let s1 := s.setPrinter { s.printer with bandReq := false, timer := some 0, line := .taken }
    match s.printer.job with
    | some j => if s.printer.composer = .draining then s1.endJob j else s1
    | none => s1
  | _ => s

/-- BAND_ACK_RISE (R182): an edge only where the line was low (log 4). -/
def execBandAckRise (ready : Bool) (s : State) : Out :=
  if s.live.lines.bandAck then .next s
  else .next (s.onLines (fun x => { x with bandAck := true, ready := ready }) fun _ l => l.bandTaken)

/-- An OFFERED buffer becomes FREE. -/
def freeOffered (b : BandBuffer) : BandBuffer := if b.state = .offered then .free else b

/-- The handshake ends (R182): the buffer is FREE, the timer stops, the line is IDLE, and the next composition may begin
(R181). -/
def Printer.handshakeEnds (p : Printer) : Printer :=
  match p.line with
  | .taken =>
    Printer.beginBand { p with line := .idle, timer := none, bufA := freeOffered p.bufA, bufB := freeOffered p.bufB }
  | _ => p

/-- BAND_ACK_FALL (R182, R184, R186). -/
def execBandAckFall (ready : Bool) (s : State) : Out :=
  if s.live.lines.bandAck then
    .next (s.onLines (fun x => { x with bandAck := false, ready := ready }) fun T l =>
      (l.setPrinter l.printer.handshakeEnds).becomeReady T)
  else .next s

/-- The handshake timer has reached 5 s (R182). -/
def Live.ackDue (s : Live) : Bool := s.printer.line != .idle && reached s.printer.timer Config.handshakeLimit

/-- The handshake times out (R182, R184, R185): the fault, and in TAKEN the timer stops. -/
def Live.ackExpires (T : Tables) (s : Live) : Live :=
  let s1 := s.printerFault T
  s1.setPrinter { s1.printer with timer := none }

/-- ACK_TIMEOUT (R182). -/
def execAckTimeout (s : State) : Out := .next (s.onLive fun T l => if l.ackDue then l.ackExpires T else l)

/-- PAPER_OUT_ASSERTED (R184): an assertion only where the line was not asserted (log 4). -/
def execPaperOutAsserted (ready : Bool) (s : State) : Out :=
  if s.live.lines.paperOut then .next s
  else .next (s.onLines (fun x => { x with paperOut := true, ready := ready }) Live.printerFault)

/-- HEAD_HOT_ASSERTED (R184): an assertion only where the line was not asserted (log 4). -/
def execHeadHotAsserted (ready : Bool) (s : State) : Out :=
  if s.live.lines.headHot then .next s
  else .next (s.onLines (fun x => { x with headHot := true, ready := ready }) Live.printerFault)

/-- PRINTER_READY (R184, R186): READY asserted, PAPER_OUT and HEAD_HOT not asserted (log 39). -/
def execPrinterReady (s : State) : Out :=
  .next (s.onLines (fun x => { x with ready := true, paperOut := false, headHot := false }) Live.becomeReady)

/-! ## ESTOP (R158) -/

/-- ESTOP_ASSERTED (R158). -/
def execEstopAsserted (s : State) : Out :=
  if s.live.lines.estop then .next s
  else .next (s.onLines (fun x => { x with estop := true }) fun T l => l.raise T .estop .lane 0)

/-- ESTOP_RELEASED (R158). -/
def execEstopReleased (s : State) : Out :=
  if s.live.lines.estop then
    .next (s.onLines (fun x => { x with estop := false }) fun _ l => l.endCondition .estop .lane)
  else .next s

/-! ## RESET (R17) -/

/-- Everything in its power-on state, the count of open choices kept. -/
def Live.lost (s : Live) (lines : InputLines) (asserted : Bool) : Live :=
  let p := Live.powerOn lines
  { p with resetAsserted := asserted, choices := s.choices }

/-- RESET_ASSERT (R17, R29, R34): everything is lost. -/
def execResetAssert (s : State) : Out :=
  if s.live.resetAsserted then .next s
  else .next { s with tables := .reset, live := s.live.lost s.live.lines true }

/-- The lines as sampled at the release: ESTOP makes its entry (R158, R163), PAPER_OUT or HEAD_HOT sets the printer-fault
flag and raises PRINTER (R188). That ESTOP is raised before PRINTER is the model's choice (log 45). -/
def Live.sampleLines (T : Tables) (s : Live) : Live :=
  let s1 := if s.lines.estop then s.raise T .estop .lane 0 else s
  if s.lines.paperOut || s.lines.headHot then s1.printerFault T else s1

/-- RESET_RELEASE (R17): every block in its power-on state, the timebase begins, and the lines are sampled. -/
def execResetRelease (lines : InputLines) (s : State) : Out :=
  if s.live.resetAsserted then
    .next { s with tables := .reset, live := (s.live.lost lines false).sampleLines .reset }
  else .next s

end Sys2Proof.Machine
end

