-- ==== Sys2Proof/Machine/Dispatch.lean ====
section
/-! DEFINITION. One arm per command, each a direct call of its meaning. -/

namespace Sys2Proof.Machine

def exec (i : Instr) (s : State) : Host.Outcome State Fault Refusal :=
  match i with
  | .mgmtFrame payload => Sys2Proof.Machine.execMgmtFrame payload s
  | .keepalive => Sys2Proof.Machine.execKeepalive s
  | .hostPassThrough frame => Sys2Proof.Machine.execHostPassThrough frame s
  | .badFrame port bytes => Sys2Proof.Machine.execBadFrame port bytes s
  | .badFrameWindowEnd => Sys2Proof.Machine.execBadFrameWindowEnd s
  | .sampleFrame src channel samples => Sys2Proof.Machine.execSampleFrame src channel samples s
  | .headStatus src driveState faultCode => Sys2Proof.Machine.execHeadStatus src driveState faultCode s
  | .headFramePassedUp frame => Sys2Proof.Machine.execHeadFramePassedUp frame s
  | .buttonConfirm src => Sys2Proof.Machine.execButtonConfirm src s
  | .buttonRepeat src => Sys2Proof.Machine.execButtonRepeat src s
  | .buttonSkip src => Sys2Proof.Machine.execButtonSkip src s
  | .buttonUnknown src code => Sys2Proof.Machine.execButtonUnknown src code s
  | .operatorStop src => Sys2Proof.Machine.execOperatorStop src s
  | .upFrameSent => Sys2Proof.Machine.execUpFrameSent s
  | .downFrameSent => Sys2Proof.Machine.execDownFrameSent s
  | .mgmtUnknownRequest => Sys2Proof.Machine.execMgmtUnknownRequest s
  | .status => Sys2Proof.Machine.execStatus s
  | .laneMode => Sys2Proof.Machine.execLaneMode s
  | .window => Sys2Proof.Machine.execWindow s
  | .tableBegin => Sys2Proof.Machine.execTableBegin s
  | .tableData => Sys2Proof.Machine.execTableData s
  | .tableEnd => Sys2Proof.Machine.execTableEnd s
  | .tableAbort => Sys2Proof.Machine.execTableAbort s
  | .tableRead => Sys2Proof.Machine.execTableRead s
  | .recordRead => Sys2Proof.Machine.execRecordRead s
  | .laneReset => Sys2Proof.Machine.execLaneReset s
  | .upFlush => Sys2Proof.Machine.execUpFlush s
  | .vehicleBegin => Sys2Proof.Machine.execVehicleBegin s
  | .vehicleClose => Sys2Proof.Machine.execVehicleClose s
  | .vehicleAbort => Sys2Proof.Machine.execVehicleAbort s
  | .recordRelease => Sys2Proof.Machine.execRecordRelease s
  | .stationSpin => Sys2Proof.Machine.execStationSpin s
  | .stationCapture => Sys2Proof.Machine.execStationCapture s
  | .stationRelease => Sys2Proof.Machine.execStationRelease s
  | .stationTare => Sys2Proof.Machine.execStationTare s
  | .clearFault => Sys2Proof.Machine.execClearFault s
  | .resume => Sys2Proof.Machine.execResume s
  | .clearLockout => Sys2Proof.Machine.execClearLockout s
  | .promptPost => Sys2Proof.Machine.execPromptPost s
  | .promptClear => Sys2Proof.Machine.execPromptClear s
  | .print => Sys2Proof.Machine.execPrint s
  | .printCancel => Sys2Proof.Machine.execPrintCancel s
  | .sequencerTakeUnit => Sys2Proof.Machine.execSequencerTakeUnit s
  | .autoTare station => Sys2Proof.Machine.execAutoTare station s
  | .keepaliveUpperExpiry => Sys2Proof.Machine.execKeepaliveUpperExpiry s
  | .silenceLimit entry => Sys2Proof.Machine.execSilenceLimit entry s
  | .settleExpiry roller => Sys2Proof.Machine.execSettleExpiry roller s
  | .spinTimeout roller => Sys2Proof.Machine.execSpinTimeout roller s
  | .readyLapsed roller => Sys2Proof.Machine.execReadyLapsed roller s
  | .releaseTimeout roller => Sys2Proof.Machine.execReleaseTimeout roller s
  | .captureTimeout roller => Sys2Proof.Machine.execCaptureTimeout roller s
  | .tareAgeTick station => Sys2Proof.Machine.execTareAgeTick station s
  | .awaitTimeout => Sys2Proof.Machine.execAwaitTimeout s
  | .promptHoldExpiry => Sys2Proof.Machine.execPromptHoldExpiry s
  | .refreshExpiry => Sys2Proof.Machine.execRefreshExpiry s
  | .printJobStart => Sys2Proof.Machine.execPrintJobStart s
  | .bandComposed buffer => Sys2Proof.Machine.execBandComposed buffer s
  | .bandOffer => Sys2Proof.Machine.execBandOffer s
  | .bandAckRise ready => Sys2Proof.Machine.execBandAckRise ready s
  | .bandAckFall ready => Sys2Proof.Machine.execBandAckFall ready s
  | .ackTimeout => Sys2Proof.Machine.execAckTimeout s
  | .paperOutAsserted ready => Sys2Proof.Machine.execPaperOutAsserted ready s
  | .headHotAsserted ready => Sys2Proof.Machine.execHeadHotAsserted ready s
  | .printerReady => Sys2Proof.Machine.execPrinterReady s
  | .estopAsserted => Sys2Proof.Machine.execEstopAsserted s
  | .estopReleased => Sys2Proof.Machine.execEstopReleased s
  | .resetAssert => Sys2Proof.Machine.execResetAssert s
  | .resetRelease lines => Sys2Proof.Machine.execResetRelease lines s

end Sys2Proof.Machine
end

