-- ==== Sys2Proof/Machine/Timebase.lean ====
section
/-! DEFINITION. What the controller does of itself when no command waits (R1; log 2, log 3): the list of its own events
that are due, and the advance of every running timer by 1 ms. The tests of what is due are those of the commands. -/

namespace Sys2Proof.Machine

/-! ## Due events -/

/-- A command as a list: itself if its moment has come, else nothing. -/
def dueIf (b : Bool) (i : Instr) : List Instr := if b then [i] else []

/-- The request in the buffer can be taken: no REPLY waits (R7, R12). -/
def Live.requestDue (s : Live) : List Instr :=
  match s.mgmt.request with
  | some p => dueIf s.mgmt.reply.isNone (requestRow p)
  | none => []

/-- The printer stands ready while its fault flag is set or its composer is PAUSED (R184, R186). -/
def Live.readyAgain (s : Live) : Bool :=
  printerReady s.lines && !s.printer.bandReq && (s.printer.fault || s.printer.composer == .paused)

/-- The due events of one roller station. -/
def Live.rollerDue (T : Tables) (r : Roller) (s : Live) : List Instr :=
  dueIf (s.settleDue T r) (.settleExpiry r) ++ dueIf (s.spinDue r) (.spinTimeout r)
    ++ dueIf (s.readyDue r) (.readyLapsed r) ++ dueIf (s.releaseDue r) (.releaseTimeout r)
    ++ dueIf (s.captureDue r).isSome (.captureTimeout r)

/-- The due events of one station's tare (R100, R102). -/
def Live.tareDue (T : Tables) (st : Station) (s : Live) : List Instr :=
  dueIf (s.autoTareDue T st) (.autoTare st) ++ dueIf (s.tareAgeDue st) (.tareAgeTick st)

/-- The due events of the board, the print line and the composer. -/
def Live.outputDue (T : Tables) (s : Live) : List Instr :=
  dueIf s.holdDue .promptHoldExpiry ++ dueIf s.refreshDue .refreshExpiry ++ dueIf (s.jobStarts T) .printJobStart
    ++ dueIf s.offerDue.isSome .bandOffer ++ dueIf s.ackDue .ackTimeout ++ dueIf s.readyAgain .printerReady

/-- The controller's own events that are due. The end of a frame on a chain and of a band's composition take a time that
the manual does not give, and come as commands only (log 16). -/
def Live.due (T : Tables) (s : Live) : List Instr :=
  s.requestDue ++ dueIf (decide (Config.badFrameWindow ≤ s.chain.windowTimer)) .badFrameWindowEnd
    ++ dueIf (s.seq.state == .running) .sequencerTakeUnit ++ dueIf s.awaitDue.isSome .awaitTimeout
    ++ dueIf s.upperDue .keepaliveUpperExpiry
    ++ (List.range s.steer.channels.length).flatMap (fun i => dueIf (s.silenceDue T i) (.silenceLimit i))
    ++ stations.flatMap (fun st => s.tareDue T st) ++ [Roller.ra, Roller.rb].flatMap (fun r => s.rollerDue T r)
    ++ s.outputDue T

/-! ## The timebase (R1) -/

/-- A timer after 1 ms: a stopped one stays stopped. -/
def later (t : Option Nat) : Option Nat := t.map (· + 1)

/-- A tare after 1 ms: the second in progress runs while there is an age (R100). -/
def Tare.later (t : Tare) : Tare := if t.age.isSome then { t with ageMs := t.ageMs + 1 } else t

/-- A capture after 1 ms (R83). -/
def Capture.later (c : Capture) : Capture := { c with timer := c.timer + 1 }

/-- A roller station after 1 ms. -/
def RollerStation.later (x : RollerStation) : RollerStation :=
  { x with settleTimer := Machine.later x.settleTimer, spinTimer := Machine.later x.spinTimer,
           readyTimer := Machine.later x.readyTimer, releaseTimer := Machine.later x.releaseTimer,
           tare := x.tare.later, capture := x.capture.map Capture.later }

/-- Every running timer after 1 ms, and nothing else. -/
def Live.tick (s : Live) : Live :=
  { s with
    chain := { s.chain with windowTimer := s.chain.windowTimer + 1 }
    mgmt := { s.mgmt with keepTimer := later s.mgmt.keepTimer }
    steer := { s.steer with channels := s.steer.channels.map fun c => { c with silence := later c.silence } }
    ps := { s.ps with tare := s.ps.tare.later }
    ra := s.ra.later
    rb := s.rb.later
    seq := { s.seq with awaitTimer := later s.seq.awaitTimer }
    guide := { s.guide with holdTimer := later s.guide.holdTimer, refreshTimer := later s.guide.refreshTimer }
    printer := { s.printer with timer := later s.printer.timer } }

/-- 1 ms of the timebase. -/
def State.tick (s : State) : State := { s with live := s.live.tick }

/-- The event taken where some are due: which of them is a free choice ("Events and order" of 00_scope.md; log 3). -/
def State.dueEvent (s : State) : Option Instr :=
  let d := s.live.due s.tables
  d[Config.dueChoice s.live.choices % d.length]?

/-- The open choice of a due event is settled. -/
def State.dueTaken (s : State) : State := { s with live := s.live.chosen }

end Sys2Proof.Machine
end

