-- ==== Sys2Proof/Machine/Step.lean ====
section
/-! DEFINITION. One step of the machine: the command at the front of the queue; on an empty queue, while RESET is not
asserted, an event of the controller's own that is due, and if there is none 1 ms of its timebase (log 2). -/

namespace Sys2Proof.Machine

/-- A step on an empty queue. -/
def idleStep (s : State) : Host.Outcome State Fault Refusal :=
  if s.live.resetAsserted then .next s
  else match s.dueEvent with
    | some i => exec i s.dueTaken
    | none => .next s.tick

/-- One step. -/
def step (s : State) : Host.Outcome State Fault Refusal :=
  match s.pending with
  | c :: rest => exec c { s with pending := rest }
  | [] => idleStep s

/-- The command that a word spells put at the front of the queue; no row of the table gives bits, so none is ever spelt. -/
def State.withFetchWord (s : State) (nbits w : Nat) : State :=
  match decodeTableWord nbits w with
  | some i => { s with pending := i :: s.pending }
  | none => s

end Sys2Proof.Machine
end

