-- ==== Sys2Proof/WellFormed.lean ====
section
/-! DEFINITION. Which operands a command can carry: those that its frame, its port or its table can give it (R3, R4, R6, R8,
R39, R137). A command whose operands fail a check still has a meaning (log 10). -/

namespace Sys2Proof

/-- A chain address of a head or of the host: 0 to 31, 31 being the broadcast (R3). -/
def chainAddress (a : Byte) : Bool := decide (a.toNat ≤ 31)

/-- The address of a head: 1 to 30 (R3). -/
def headAddress (a : Byte) : Bool := decide (1 ≤ a.toNat ∧ a.toNat ≤ 30)

/-- A payload of 0 to 48 bytes (R3). -/
def payloadFits (p : List Byte) : Bool := decide (p.length ≤ 48)

/-- An MGMT payload: a request code and its arguments, 1 to 48 bytes (R4). -/
def requestFits (p : List Byte) : Bool := decide (1 ≤ p.length) && payloadFits p

/-- The samples of a SAMPLE frame: 1 to 8 (R4). -/
def samplesFit (l : List Half) : Bool := decide (1 ≤ l.length ∧ l.length ≤ 8)

/-- A channel on a head: 0 to 7 (R3). -/
def channelFits (c : Byte) : Bool := decide (c.toNat ≤ 7)

/-- A host frame that the down filter judges: to 1 to 31 (R6, R16). -/
def hostFrameFits (f : Frame) : Bool := decide (1 ≤ f.dest.toNat) && chainAddress f.dest && payloadFits f.payload

/-- A head frame that can be passed up: from a head, not to 31 (R4, R8). -/
def headFrameFits (f : Frame) : Bool := headAddress f.src && decide (f.dest.toNat ≤ 30) && payloadFits f.payload

/-- A position of the channel map: 64 entries at most (R39). -/
def entryFits (i : Nat) : Bool := decide (i < 64)

/-- A button code that names none of the four buttons (R137, R190). -/
def noButton (code : Byte) : Bool := decide (4 ≤ code.toNat)

/-- A command is well formed. -/
def WellFormed (i : Instr) : Bool :=
  match i with
  | .mgmtFrame p => requestFits p
  | .hostPassThrough f => hostFrameFits f
  | .headFramePassedUp f => headFrameFits f
  | .sampleFrame src c l => headAddress src && channelFits c && samplesFit l
  | .headStatus src _ _ => headAddress src
  | .buttonConfirm src => headAddress src
  | .buttonRepeat src => headAddress src
  | .buttonSkip src => headAddress src
  | .buttonUnknown src code => headAddress src && noButton code
  | .operatorStop src => headAddress src
  | .silenceLimit i => entryFits i
  | _ => true

end Sys2Proof
end

