-- ==== Sys2Proof/Safety.lean ====
section
/-! DEFINITION. What holds of every state a run can reach, each law as a predicate of one state: the bounds of the queues,
the law of the table store, of the fault list, of the record slots with the print queue, and of ESTOP. -/

namespace Sys2Proof.Machine

/-- The queues stay within what the manual gives them: 32 frames up (R9), 16 down (R14), 8 prompts (R166), 4 axles in each
gap (R105); and the up queue holds no more mirror-class frames than the mirror trip level (R10). -/
def QueuesBounded (T : Tables) (l : Live) : Prop :=
  l.chain.up.length ≤ Config.upCapacity ∧ l.chain.down.length ≤ Config.driveLevel
    ∧ l.guide.queue.length ≤ Config.promptCapacity ∧ l.tracker.g1.length ≤ Config.gapCapacity
    ∧ l.tracker.g2.length ≤ Config.gapCapacity ∧ mirrorCount l.chain.up ≤ T.settings.trip

/-- Two entries of the fault list are of one source and scope. -/
def sameFault (e f : FaultEntry) : Prop := e.source = f.source ∧ e.scope = f.scope

/-- The law of one fault entry (R154, R155, R158): its action is HOLD, STOP or LOCK, ESTOP's is LOCK, and a latched
source's condition is gone. -/
def entryLaw (e : FaultEntry) : Prop :=
  (e.action = .hold ∨ e.action = .stop ∨ e.action = .lock) ∧ (e.source = .estop → e.action = .lock)
    ∧ (conditioned e.source = false → e.present = false)

/-- The law of the active fault list (R154, R155): one entry at most for each source and scope. -/
def FaultLaw (l : Live) : Prop :=
  l.faults.Pairwise (fun e f => ¬ sameFault e f) ∧ ∀ e ∈ l.faults, entryLaw e

/-- The list holds ESTOP's entry, a LOCK whose condition is present. -/
def EstopEntry (l : Live) : Prop :=
  ∃ e ∈ l.faults, e.source = .estop ∧ e.scope = .lane ∧ e.action = .lock ∧ e.present = true

/-- The law of ESTOP (R158): while the line is asserted, outside RESET, its entry stands. -/
def EstopLaw (l : Live) : Prop := l.resetAsserted = false → l.lines.estop = true → EstopEntry l

/-- The state of a slot. -/
def Live.slotState (l : Live) (i : Fin 4) : SlotState := (l.records.slots.get i).state

/-- The law of the record slots (R114): one slot at most is OPEN, and a slot holds a record just when it is not FREE. -/
def SlotLaw (l : Live) : Prop :=
  (∀ i j, l.slotState i = .opened → l.slotState j = .opened → i = j)
    ∧ ∀ i, (l.slotState i = .free ↔ (l.records.slots.get i).record = none)

/-- The law of the job (R181): a job is under way, and its slot is that of the head entry. -/
def Printer.jobLaw (p : Printer) : Prop :=
  ∀ j, p.job = some j → p.underWay = true ∧ p.queue.head?.map (·.slot) = some j.slot

/-- The law of the print queue (R179): each slot at most once, and only CLOSED or ISSUED slots; the job is
the head's (R181). -/
def PrintLaw (l : Live) : Prop :=
  (l.printer.queue.map (·.slot)).Nodup
    ∧ (∀ e ∈ l.printer.queue, l.slotState e.slot = .closed ∨ l.slotState e.slot = .issued)
    ∧ l.printer.jobLaw

/-- The law of the slots and of the print queue together. -/
def RecordLaw (l : Live) : Prop := SlotLaw l ∧ PrintLaw l

/-- The laws of everything but the table store. -/
structure Lawful (T : Tables) (l : Live) : Prop where
  queues : QueuesBounded T l
  faults : FaultLaw l
  records : RecordLaw l
  estop : EstopLaw l

/-- The law of the load context (R31, R32): without one no region is LOADING; with one its region alone is, and holds as
many bytes as the expected offset, which is at most the total, which fits the region. -/
def Tables.loadLaw (t : Tables) : Prop :=
  match t.load with
  | none => ∀ n, (t.get n).state ≠ .loading
  | some c =>
    (t.get c.region).state = .loading ∧ (t.get c.region).content.length = c.expected ∧ c.expected ≤ c.total
      ∧ c.total ≤ regionMax c.region ∧ ∀ n, (t.get n).state = .loading → n = c.region

/-- The law of the table store: the load context's; a region holds at most its size, and nothing while INVALID (R29, R31);
a VALID region passes its structure check as the tables stand (R33, R41). -/
def Tables.law (t : Tables) : Prop :=
  t.loadLaw ∧ (∀ n, (t.get n).content.length ≤ regionMax n) ∧ (∀ n, (t.get n).state = .invalid → (t.get n).content = [])
    ∧ ∀ n, t.valid n = true → structureCheck t n (t.get n).content = none

/-! ## Words that the statements use -/

/-- RESET is not asserted. -/
def State.awake (s : State) : Prop := s.live.resetAsserted = false

/-- The request buffer holds a request that the management unit can take: no REPLY waits (R7, R12). -/
def State.asks (s : State) (p : List Byte) : Prop :=
  s.awake ∧ s.live.mgmt.reply = none ∧ s.live.mgmt.request = some p

/-- Everything but the tables with the request taken from its buffer (R7). -/
def State.taking (s : State) : Live := { s.live with mgmt := { s.live.mgmt with request := none } }

/-- The machine with a request's effect made and its REPLY offered (R20). -/
def State.answered (s : State) (code : Byte) (T : Tables) (l : Live) (x : Status) (d : List Byte) : State :=
  { s with tables := T, live := l.offerReply (replyFrame code x d) }

/-- The machine with everything but its tables replaced. -/
def State.withLive (s : State) (l : Live) : State := { s with live := l }

/-- No channel is silent, so that a station's entry into work raises nothing (R49). -/
def Live.noneSilent (l : Live) : Prop := ∀ c ∈ l.steer.channels, c.silent = false

/-- The sequencer waits on no station's state and is HELD on none, so that no station's change moves it (R128 to R133). -/
def Live.seqFree (l : Live) : Prop := l.seq.state ≠ .waiting ∧ l.seq.state ≠ .held

/-- No change of a station's state ends or fails the step of the sequencer: it is not WAITING, or it waits on a capture (R128 to
R130). -/
def Live.seqApart (l : Live) : Prop := l.seq.state = .waiting → ∃ r, l.seq.wait = some (.capture r)

/-- An axle record without what captures and an accepted SPIN write: its LOAD and brake parts. -/
def AxleRecord.bare (a : AxleRecord) : AxleRecord :=
  { a with load := .empty, service := .empty, parking := .empty, ovality := .empty, aux := .empty }

/-- A vehicle record without what captures and accepted SPINs write. -/
def VehicleRecord.bare (r : VehicleRecord) : VehicleRecord := { r with axles := r.axles.map AxleRecord.bare }

/-- Frames of the originated class as the up queue holds them. -/
def originated (l : List Frame) : List UpFrame := l.map fun f => { mirror := false, frame := f }

/-- The up queue has taken originated frames at its end and nothing else has become of it; of the indicators only EVENT_OVERRUN
may have been set, and that only where the queue is full (R9, R11). -/
def UpGrows (old s : Live) : Prop :=
  (∃ added, s.chain.up = old.chain.up ++ originated added)
    ∧ (s.mgmt.sticky = old.mgmt.sticky
      ∨ (32 ≤ s.chain.up.length ∧ s.mgmt.sticky = { old.mgmt.sticky with eventOverrun := true }))

/-- A frame of the originated class has been offered last (R11): it stands last in the up queue, or the queue is full and
EVENT_OVERRUN is set. -/
def sentLast (f : Frame) (l : Live) : Prop :=
  l.chain.up.getLast? = some { mirror := false, frame := f }
    ∨ (32 ≤ l.chain.up.length ∧ l.mgmt.sticky.eventOverrun = true)

/-- A frame of the originated class has been offered (R11): it stands in the up queue, or the queue is full and EVENT_OVERRUN is
set. -/
def sent (f : Frame) (l : Live) : Prop :=
  { mirror := false, frame := f } ∈ l.chain.up ∨ (32 ≤ l.chain.up.length ∧ l.mgmt.sticky.eventOverrun = true)

/-- What an operation on `old` that answers `s` leaves as it was. -/
structure Quiet (old s : Live) : Prop where
  reset : s.resetAsserted = old.resetAsserted
  lines : s.lines = old.lines
  mode : s.mode = old.mode
  choices : s.choices = old.choices
  bad : s.chain.badUp = old.chain.badUp ∧ s.chain.badDown = old.chain.badDown
    ∧ s.chain.windowTimer = old.chain.windowTimer ∧ s.chain.noise = old.chain.noise
  mgmt : { s.mgmt with sticky := old.mgmt.sticky } = old.mgmt
  up : UpGrows old s
  steer : s.steer = old.steer
  order : s.nextStart = old.nextStart
  tracker : s.tracker = old.tracker
  faults : s.faults = old.faults
  printer : s.printer = old.printer
  slots : ∀ i, s.slotState i = old.slotState i
  records : ∀ i, (s.records.slots.get i).record.map (·.bare) = (old.records.slots.get i).record.map (·.bare)

/-- The stations as they were. -/
structure Still (old s : Live) : Prop where
  ps : s.ps = old.ps
  ra : s.ra = old.ra
  rb : s.rb = old.rb

/-- A roller station alone may have changed. -/
def OnlyRoller (r : Roller) (old s : Live) : Prop := s.ps = old.ps ∧ ∀ q, q ≠ r → s.roller q = old.roller q

/-- The commands that change the input lines (R17). -/
def lineCommand : Instr → Bool
  | .bandAckRise _ | .bandAckFall _ | .paperOutAsserted _ | .headHotAsserted _ | .printerReady | .estopAsserted
  | .estopReleased => true
  | _ => false

/-- The fault list after a raise (R154, R155): an entry of the source and scope takes a repeat raise; otherwise the action in
force makes one, unless it is IGNORE or NOTE. -/
def faultsAfter (T : Tables) (src : Source) (scope : Scope) (l : List FaultEntry) : List FaultEntry :=
  if l.any (·.is src scope) then
    l.map fun e => if e.is src scope && conditioned src then { e with present := true } else e
  else match T.actionFor src with
    | .ignore | .note => l
    | a => l ++ [newEntry src scope a (T.promptFor src)]

/-- A raise makes an entry with an action (R154). -/
def makesEntry (T : Tables) (src : Source) (scope : Scope) (l : List FaultEntry) (a : Action) : Prop :=
  l.any (·.is src scope) = false ∧ T.actionFor src = a

/-- The action and the repeat mark of the EVENT FAULT of a raise, where it sends one (R154): those of the entry there is; without
one the action in force, unless that is IGNORE. -/
def reported (T : Tables) (src : Source) (scope : Scope) (l : List FaultEntry) : Option (Action × Bool) :=
  match l.find? (·.is src scope) with
  | some e => some (e.action, true)
  | none => if T.actionFor src = .ignore then none else some (T.actionFor src, false)

/-- What a raise does (R154, R157): the fault list, the orders, the EVENT FAULT with its axle and its
detail, and nothing else. -/
structure Raised (T : Tables) (src : Source) (scope : Scope) (axle detail : Nat) (l m : Live) : Prop where
  /-- The fault list is that of R154 and R155; beside it a raise reaches only what orders, prompts and EVENTS reach. -/
  frame : Quiet { l with faults := faultsAfter T src scope l.faults } m
  /-- A raise that makes no entry leaves the stations, the sequencer and the board as they were. -/
  noEntry : m.faults.length = l.faults.length → Still l m ∧ m.seq = l.seq ∧ m.guide = l.guide ∧ m.records = l.records
  /-- A STOP stops every driven station and no sequencer goes on RUNNING. -/
  stop : makesEntry T src scope l.faults .stop → (∀ r, (m.roller r).state.driven = false) ∧ m.seq.state ≠ .running
  /-- A LOCK faults every present station and locks the sequencer. -/
  lock : makesEntry T src scope l.faults .lock →
    (∀ st, T.present st = true → m.stationState st = .faulted) ∧ m.seq.state = .locked
  /-- A HOLD faults every present station that its scope covers. -/
  hold : makesEntry T src scope l.faults .hold →
    ∀ st, T.present st = true → (scope = .station st ∨ scope = .lane) → m.stationState st = .faulted
  /-- Where the raise sends EVENT FAULT, it is offered to the up queue last, with the action and the repeat mark of R154. -/
  event : ∀ a again, reported T src scope l.faults = some (a, again) →
    sentLast (faultEvent src scope a again axle detail) m
  /-- Where it sends none, nothing is done. -/
  silent : reported T src scope l.faults = none → m = l

/-- What a raise of LINK_WINDOW does (R28, R34): the fault action unit takes it, and a load in progress is abandoned. -/
def LinkWindowRaised (s : State) (l : Live) (t : State) : Prop :=
  ∃ m, Raised s.tables .linkWindow .lane 0 0 l m ∧ t.tables = s.tables.abandon ∧ t.pending = s.pending
    ∧ t.live = match s.tables.load with
        | some c => m.event .loadAbandoned none 0 (regionCode c.region)
        | none => m

/-- What a change of the bad-frame limit does, the tables before and after it given (R5): where the limit is another and a port's
count has reached it, LINK_NOISE is raised for that port, upstream before downstream (log 47). Its condition is present, its entry
is in the fault list if the raise makes or finds one, and each raise that sends an EVENT FAULT has it in the up queue, or the queue
is full and EVENT_OVERRUN is set. -/
structure LimitReread (before T : Tables) (old l : Live) : Prop where
  reached : T.settings.badLimit ≠ before.settings.badLimit →
    (T.settings.badLimit ≤ old.chain.badUp ∨ T.settings.badLimit ≤ old.chain.badDown) →
    l.chain.noise = true ∧ ∀ e ∈ faultsAfter T .linkNoise .lane old.faults, e.is .linkNoise .lane = true → e ∈ l.faults
  unreached : (T.settings.badLimit = before.settings.badLimit
    ∨ (old.chain.badUp < T.settings.badLimit ∧ old.chain.badDown < T.settings.badLimit)) → l.chain.noise = old.chain.noise
  up : T.settings.badLimit ≠ before.settings.badLimit → T.settings.badLimit ≤ old.chain.badUp →
    ∀ a again, reported T .linkNoise .lane old.faults = some (a, again) → sent (faultEvent .linkNoise .lane a again 0 0) l
  down : T.settings.badLimit ≠ before.settings.badLimit → T.settings.badLimit ≤ old.chain.badDown →
    let list := if T.settings.badLimit ≤ old.chain.badUp then faultsAfter T .linkNoise .lane old.faults else old.faults
    ∀ a again, reported T .linkNoise .lane list = some (a, again) → sent (faultEvent .linkNoise .lane a again 0 1) l

/-- A host frame passes the down filter (R16). -/
def hostPasses (T : Tables) (l : Live) (f : Frame) : Prop :=
  if f.kind = kindDrive then
    l.mode = .service ∧ ∀ r, f.dest.toNat = 31 ∨ T.driveStation f.dest.toNat = some r → (l.roller r).state ≠ .faulted
  else if f.dest.toNat = 31 then True
  else if f.kind = kindHeadSetup then
    ∀ st, headBound T f.dest.toNat st = true → l.stationState st = .idle ∨ l.stationState st = .offline
  else True

/-- The station EVENT FILTERED names (R16). -/
def filteredStation (T : Tables) (l : Live) (f : Frame) : Option Station :=
  if f.kind = kindDrive then l.driveConcerned T f.dest.toNat else l.setupBlocked T f.dest.toNat

/-- A frame from a head that no block consumes (R8). -/
def passedUp (T : Tables) (f : Frame) : Prop :=
  f.dest ≠ 0 ∨ (f.kind ≠ kindSample ∧ f.kind ≠ kindHeadStatus ∧ f.kind ≠ kindButton)
    ∨ (f.kind = kindHeadStatus ∧ T.driveStation f.src.toNat = none)
    ∨ (f.kind = kindButton ∧ T.isRemote f.src.toNat = false)

/-! ## Words of the samples -/

/-- A SAMPLE frame with the one raw sample `x` is steered to entry `i` (R42), whose station, if it names one, is present, whose
window is NEVER, which asks for no mirror, and which is neither outside nor silent. -/
structure Sampled (s : State) (src ch : Byte) (x : Half) (i : Nat) (e : ChannelEntry) (c : ChannelState) : Prop where
  awake : s.awake
  frame : WellFormed (.sampleFrame src ch [x]) = true
  steering : s.tables.steering = true
  entry : s.tables.entryOfHead src.toNat ch.toNat = some i ∧ s.tables.entries[i]? = some e
  channel : s.live.steer.channels[i]? = some c
  plain : e.applicability = .never ∧ e.mirror = .none ∧ c.outside = false ∧ c.silent = false
  present : ∀ st, e.station = some st → s.tables.present st = true

/-- The engineering value of a raw sample: calibrated, clamped, and with the tare offset subtracted (R43, R44). -/
def State.valueOf (s : State) (e : ChannelEntry) (x : Half) : Int :=
  calibrated s.tables e (signed16 x.toNat) - s.live.offset e

/-- Everything but the tables once a value `v` is the latest value of entry `i`, before any block takes it (R42, R45, R48): the
silence timer of an entry that names a station restarts. -/
def State.sampledAs (s : State) (i : Nat) (e : ChannelEntry) (c : ChannelState) (v : Int) : Live :=
  let c' := { c with
    latest := some v, windowRaised := false
    silence := if e.station.isSome then some 0 else c.silence
    silenceRaised := if e.station.isSome then false else c.silenceRaised }
  { s.live with steer := { s.live.steer with channels := s.live.steer.channels.set i c' } }

/-! ## Words of the captures -/

/-- A brake part as a normal end writes it (R85, R86, R147): the result, the flags, the repeat count, the verdict. -/
def writtenPart (T : Tables) (cls : Nat) (a : AxleRecord) (c : Capture) (v : BrakeResult) (stale : Bool) : Part BrakeResult :=
  let p := a.brake c.settings.part
  { values := some v
    flags :=
      { stale := stale, joint := c.settings.joint, repeated := p.flags.repeated || c.marks.repeated, interrupted := false
        timedOut := v.endReason == .timeout, skipped := false, manual := p.flags.manual || c.marks.manual }
    repeats := if c.marks.repeated then min 3 (p.repeats + 1) else p.repeats
    verdict := brakeVerdict T.rows cls a c.settings.part c.settings.limitRow stale v }

/-- A brake part as an abnormal end leaves it (R88, R140): its values stand; without values it is INTERRUPTED; a SKIP gives
SKIPPED. -/
def abortedPart (reason : EndReason) (p : Part BrakeResult) : Part BrakeResult :=
  { p with flags := { p.flags with
      interrupted := p.flags.interrupted || p.values.isNone, skipped := p.flags.skipped || reason == .skip } }

/-- Frames of the originated class offered to an up queue one after another (R11). -/
def upAfter (fs : List Frame) (q : List UpFrame) : List UpFrame := q ++ originated (fs.take (32 - q.length))

/-- The EVENT CAPTURE_END frames of a capture that `h` holds, RA's first, each with its own station's axle (R89). -/
def captureEnds (h : Roller) (c : Capture) (reason : EndReason) (l : Live) : List Frame :=
  (captureStations h c).map fun r =>
    eventFrame .captureEnd (some (stationOf r)) (l.boundOrZero (stationOf r)) (be32 (endReasonCode reason))

/-- The capture that `h` holds has ended with a reason (R77, R87 to R89, R92): its context is empty, each of its stations is in
`after`, the target part of the axle that each is bound to is as `part` gives it, and the EVENT CAPTURE_END frames have been
offered. That the sequencer's own EVENTs stand behind both of a joint capture is the model's choice (log 60). -/
structure CaptureOver (h : Roller) (c : Capture) (reason : EndReason) (after : StationState)
    (part : Roller → AxleRecord → Part BrakeResult) (old l : Live) : Prop where
  frame : Quiet old l
  context : (l.roller h).capture = none
  stations : ∀ st, l.stationState st = if st ∈ (captureStations h c).map stationOf then after else old.stationState st
  parts : ∀ r ∈ captureStations h c, ∀ k a, old.bound (stationOf r) = some k → old.axle? k = some a →
    (∀ q ∈ captureStations h c, q ≠ r → old.bound (stationOf q) ≠ some k) →
    l.axle? k = some (a.setBrake c.settings.part (part r a))
  ends : old.seqApart → ∃ more, l.chain.up = upAfter (captureEnds h c reason old) old.chain.up ++ originated more
    ∧ (old.seq.planCapture h = none → more = [])

/-- The capture that `h` holds has ended normally (R85, R87, R92): its stations are READY, or RELEASING with LOCKUP or
auto-release, and each writes its own result. -/
def CaptureEnded (T : Tables) (h : Roller) (c : Capture) (reason : EndReason) (old l : Live) : Prop :=
  CaptureOver h c reason (if reason = .lockup ∨ c.settings.autoRelease = true then .releasing else .ready)
    (fun r a => writtenPart T old.openClass a c (c.result h r reason) (old.roller r).tare.stale) old l

/-- The capture that `h` holds has ended abnormally, and writes nothing (R88, R92). -/
def CaptureAborted (h : Roller) (c : Capture) (reason : EndReason) (after : StationState) (old l : Live) : Prop :=
  CaptureOver h c reason after (fun _ a => abortedPart reason (a.brake c.settings.part)) old l

/-! ## Words of the requests -/

/-- The lane mode may change (R24): no record is OPEN, the sequencer is STANDBY, and every present station is IDLE, SEATED or
OFFLINE. -/
def laneFree (T : Tables) (l : Live) : Prop :=
  l.openSlot = none ∧ l.seq.state = .standby
    ∧ ∀ st, T.present st = true → l.stationState st = .idle ∨ l.stationState st = .seated ∨ l.stationState st = .offline

/-- A roller station that has become OFFLINE: it keeps no memory of its load, its drums or its timers (R25, R55). -/
def RollerStation.putOffline (x : RollerStation) : RollerStation :=
  { x with state := .offline, seated := false, settleTimer := none, spinTimer := none, readyTimer := none,
           releaseTimer := none, readyL := 0, readyR := 0, histL := [], histR := [] }

/-- The load class of a region is met (R30). -/
def loadClass (n : RegionName) (l : Live) : Prop :=
  match n with
  | .lane | .channels | .segments =>
    l.openSlot = none ∧ ∀ st, l.stationState st = .idle ∨ l.stationState st = .offline
  | .plans | .limits => l.openSlot = none
  | .faults | .prompts => True
  | .form | .glyphs => l.printer.composer = .idle

/-- A table store with one region as given, the other regions as they were, and a load context. -/
structure LoadStep (old : Tables) (n : RegionName) (x : Region) (c : Option LoadContext) (T : Tables) : Prop where
  region : T.get n = x
  others : ∀ m, m ≠ n → T.get m = old.get m
  context : T.load = c

/-- The table read cursor once a region has left VALID (R36). -/
def cursorWithout (n : RegionName) (l : Live) : Live :=
  { l with mgmt := { l.mgmt with
      tableCursor := l.mgmt.tableCursor.filter fun c => c.1 != n } }

/-- A region whose users are told nothing when it becomes or leaves VALID (R29). -/
def RegionName.inert (n : RegionName) : Prop := n = .plans ∨ n = .limits ∨ n = .faults ∨ n = .form ∨ n = .glyphs

/-! ## Words of the records and of the print queue -/

/-- A text argument as bytes: its length, then its characters (R191). -/
def textArg (t : Option (List Byte)) : List Byte := byte (t.getD []).length :: t.getD []

/-- A text that VEHICLE_BEGIN can carry: absent, or 1 to `limit` characters 0x20-0x7E (R115). -/
def textFits (limit : Nat) (t : Option (List Byte)) : Prop :=
  ∀ x, t = some x → 1 ≤ x.length ∧ x.length ≤ limit ∧ ∀ c ∈ x, 0x20 ≤ c.toNat ∧ c.toNat ≤ 0x7E

/-- The arguments of VEHICLE_BEGIN as bytes (R191): class, plan or 0xFF, expected axle count, kinds, texts. -/
def beginArgs (r : VehicleRecord) : List Byte :=
  [byte r.cls, byte (r.plan.getD 0xFF), byte r.kinds.length] ++ r.kinds.map (fun k => byte (axleKindCode k))
    ++ textArg r.ident ++ textArg r.date ++ textArg r.operator

/-- A record as VEHICLE_BEGIN opens it (R115), its plan as the argument has it: header fields in range, the rest empty. -/
structure Opening (r : VehicleRecord) : Prop where
  cls : r.cls ≤ 7
  plan : ∀ n, r.plan = some n → n ≤ 7
  count : 1 ≤ r.expected ∧ r.expected ≤ 10 ∧ r.kinds.length = r.expected
  texts : textFits 12 r.ident ∧ textFits 10 r.date ∧ textFits 6 r.operator
  flags : r.forced = false ∧ r.rollerOnly = false
  empty : r.axles = [] ∧ r.totalLoad = none ∧ r.serviceEff = none ∧ r.parkingEff = none
  unjudged : r.verdict = .absent ∧ r.checkCode = none ∧ r.printCount = 0

/-- The first FREE slot (R115). -/
def firstFree (l : Live) (i : Fin 4) : Prop := l.slotState i = .free ∧ ∀ j, j < i → l.slotState j ≠ .free

/-- A slot stands in the print queue (R179). -/
def inPrintQueue (l : Live) (i : Fin 4) : Prop := ∃ e ∈ l.printer.queue, e.slot = i

/-- A RESULT of a slot is pending (R120). -/
def resultWaits (l : Live) (i : Fin 4) : Prop := ∃ p ∈ l.records.pendingResults, p.1 = i

/-- The sequencer with every item empty, as a record leaves it (R127): STANDBY, or LOCKED while the level is LOCK. -/
def Live.seqAtRest (l : Live) : Seq := { Seq.reset with state := if l.level = 3 then .locked else .standby }

/-- An axle as the captures in progress leave it that end with the record (R88, R116, R118): the target part of the axle that a
station of one is bound to is that of an abnormal end. -/
def Live.closedAxle (l : Live) (a : AxleRecord) : AxleRecord :=
  [Roller.ra, .rb].foldl (fun x h => match (l.roller h).capture with
    | some c => (captureStations h c).foldl (fun y r => if l.bound (stationOf r) = some a.index then
        y.setBrake c.settings.part (abortedPart .closed (y.brake c.settings.part)) else y) x
    | none => x) a

/-- The indices of the axles that are not DONE, in creation order. -/
def openAxles (r : VehicleRecord) : List Nat := (r.axles.filter fun a => a.state != .done).map (·.index)

/-- The axles of a closed record (R116, R148): those not DONE become DONE, with the verdict of the parts as they then stand. -/
def closedAxles (T : Tables) (r : VehicleRecord) (l : Live) : List AxleRecord :=
  r.axles.map fun a => let b := l.closedAxle a
    if a.index ∈ openAxles r then { b with state := .done, verdict := axleVerdict T.rows r.cls b } else b

/-- The axles of an aborted record (R118): DONE, and every verdict absent. -/
def abortedAxles (r : VehicleRecord) (l : Live) : List AxleRecord :=
  r.axles.map fun a => let b := l.closedAxle a
    { b with
      state := .done, verdict := .absent, plate := { b.plate with verdict := .absent }
      load := { b.load with verdict := .absent }, service := { b.service with verdict := .absent }
      parking := { b.parking with verdict := .absent }, ovality := { b.ovality with verdict := .absent }
      aux := { b.aux with verdict := .absent } }

/-- RESULT frames of a slot made one after another (R120), the up queue and the pending list before them given: while none is
pending they enter the queue as long as it has room, and the rest are pending in their order. -/
def resultsOffered (i : Fin 4) (fs : List Frame) (up : List UpFrame) (waiting : List (Fin 4 × Frame)) (l : Live) : Prop :=
  let room := if waiting = [] then 32 - up.length else 0
  l.chain.up = up ++ originated (fs.take room)
    ∧ l.records.pendingResults = waiting ++ (fs.drop room).map fun f => (i, f)

/-- The OPEN record `r` of slot `i` has been closed (R116, R117, R119, R120, R127): its axles, its totals, its slot; the RESULT of
each axle that became DONE and then the vehicle's, behind what captures in progress sent as they ended; with auto-print the
slot is queued. -/
structure RecordClosed (T : Tables) (i : Fin 4) (r : VehicleRecord) (old l : Live) : Prop where
  slot : l.slotState i = .closed
  record : (l.records.slots.get i).record = some (finishRecord T.rows { r with axles := closedAxles T r old })
  others : ∀ j, j ≠ i → l.records.slots.get j = old.records.slots.get j
  rest : l.tracker = .reset ∧ l.seq = l.seqAtRest ∧ l.faults = old.faults
  printer : l.printer = if T.settings.autoPrint then
    { old.printer with queue := old.printer.queue ++ [{ slot := i, restarts := 0 }] } else old.printer
  results : ∃ before, (old.ra.capture = none → old.rb.capture = none → before = [])
    ∧ resultsOffered i
      ((openAxles r).filterMap (fun n => ((closedAxles T r old).find? (·.index == n)).map (axleResult i))
        ++ [vehicleResult i .closed (finishRecord T.rows { r with axles := closedAxles T r old })])
      (old.chain.up ++ originated before) old.records.pendingResults l

/-- The OPEN record `r` of slot `i` has been aborted (R118 to R120, R127): its axles and its slot, and the vehicle's RESULT. -/
structure RecordAborted (i : Fin 4) (r : VehicleRecord) (old l : Live) : Prop where
  slot : l.slotState i = .aborted
  record : (l.records.slots.get i).record = some { r with axles := abortedAxles r old }
  others : ∀ j, j ≠ i → l.records.slots.get j = old.records.slots.get j
  rest : l.tracker = .reset ∧ l.seq = l.seqAtRest ∧ l.faults = old.faults ∧ l.printer = old.printer
  results : ∃ before, (old.ra.capture = none → old.rb.capture = none → before = [])
    ∧ resultsOffered i [vehicleResult i .aborted { r with axles := abortedAxles r old }] (old.chain.up ++ originated before)
      old.records.pendingResults l

/-! ## Words of the stations -/

/-- What making a DRIVE frame does (R15, R69): it enters the down queue while the station holds none and there is room; else
the station holds it, in place of the one it held. -/
structure DriveMade (T : Tables) (r : Roller) (start : Bool) (old l : Live) : Prop where
  entered : (old.roller r).heldDrive = none → old.chain.down.length < 16 →
    (l.roller r).heldDrive = none
      ∧ l.chain.down = placeDown { source := .drive, frame := driveFrame T r start } old.chain.down
  held : ((old.roller r).heldDrive ≠ none ∨ 16 ≤ old.chain.down.length) →
    (l.roller r).heldDrive = some (driveFrame T r start) ∧ l.chain.down = old.chain.down

/-- A roller station in a state with its timers and counts as given, else as it was but for its held DRIVE frame. -/
structure Entered (old l : RollerStation) (x : StationState) (spin ready release : Option Nat) : Prop where
  state : l.state = x
  timers : l.settleTimer = none ∧ l.spinTimer = spin ∧ l.readyTimer = ready ∧ l.releaseTimer = release
  load : l.seated = old.seated ∧ l.histL = old.histL ∧ l.histR = old.histR
  rest : l.driveFault = old.driveFault ∧ l.tare = old.tare

/-- The mean of a load history, truncated and not below 0 (R64). -/
def historyMean (h : List Int) : Nat := (h.sum.tdiv h.length).toNat

/-! ## Words of the fault list -/

/-- What the removal of entries leaves (R157): the list without them; a FAULTED station that no entry of it covers is released,
and no other station changes state. -/
structure ReleasedAfter (T : Tables) (gone : FaultEntry → Bool) (old l : Live) : Prop where
  frame : Quiet { old with faults := old.faults.filter fun e => !gone e } l
  stations : ∀ st, if old.stationState st = .faulted ∧ l.covered T st = false
    then l.stationState st ∈ [StationState.idle, .settling, .offline] else l.stationState st = old.stationState st

/-- The fault list once a present station's fresh tare has become STALE (R100, R103): the raise of TARE_STALE. -/
def staleRaised (T : Tables) (l : Live) (list : List FaultEntry) (st : Station) : List FaultEntry :=
  if (l.tare st).stale = false ∧ T.present st = true then faultsAfter T .tareStale (.station st) list else list

/-! ## Words of the board -/

/-- The lines a rendering offers, in line order (R171): those that are dirty or differ from their image, and all of them when
every line is sent again. -/
def sentLines (T : Tables) (again : Bool) (old l : Live) : List (Fin 4) :=
  fourIndices.filter fun i =>
    again || (old.guide.board.get i).dirty || l.renderLine T i.val != (old.guide.board.get i).text

/-- The places of the down queue that a rendering may fill (R15, R171): none while the board is not driven. -/
def boardRoom (T : Tables) (l : Live) : Nat := if T.valid .lane then 13 - l.chain.down.length else 0

/-- What a rendering with its bar frames does (R171, R172): the line frames, then the bar frames, enter the down queue while there
is room; a line whose frame entered has the rendered line as its image, and any other line that was offered is dirty. -/
structure Rendered (T : Tables) (again : Bool) (bars : List Frame) (old l : Live) : Prop where
  down :
    let frames := (sentLines T again old l).map (fun i => boardFrame T (byte i.val :: l.renderLine T i.val)) ++ bars
    l.chain.down = old.chain.down
      ++ (frames.take (boardRoom T old)).map fun f => { source := .board, frame := f }
  sent : ∀ i ∈ (sentLines T again old l).take (boardRoom T old),
    l.guide.board.get i = { text := l.renderLine T i.val, dirty := false }
  left : ∀ i, i ∉ (sentLines T again old l).take (boardRoom T old) →
    l.guide.board.get i = { old.guide.board.get i with dirty := decide (i ∈ sentLines T again old l) }

/-! ## Words of the printer -/

/-- The fault list once the printer is ready: where the printer-fault flag was set, the condition of PRINTER has ended (R184). -/
def faultsOfReady (l : Live) : List FaultEntry :=
  if l.printer.fault then l.faults.map fun e => if e.is .printer .lane then { e with present := false } else e
  else l.faults

/-- A PAUSED composer that finds the printer ready has started the head entry's job over (R186): its first band is being composed
into A, after the VOID band that is due; the queue and the print line are as in `p`. -/
structure JobRestarted (e : PrintEntry) (r : VehicleRecord) (p m : Printer) : Prop where
  fault : m.fault = false
  composer : m.composer = .composing
  queue : m.queue = p.queue
  line : m.line = p.line
  bufA : m.bufA = { state := .composing, band := 0, content := [] }
  job : ∃ j, m.job = some j ∧ j.slot = e.slot ∧ j.void = p.voidDue ∧ j.copyNumber = r.printCount + 1
    ∧ j.nextCompose = 1 ∧ j.nextSend = 0

/-- What a fault event of the printer does, the lines as they then stand (R184, R185): the flag with the raise of PRINTER, and a
job under way abandoned, its head entry spending a restart or leaving the queue with EVENT PRINT_FAILED. -/
structure PrinterFaulted (T : Tables) (l m : Live) : Prop where
  /-- The flag is set. -/
  flag : m.printer.fault = true
  /-- The raise, unless the flag was set before, and then the job. -/
  job : ∃ k : Live, (l.printer.fault = true → k = l)
    ∧ (l.printer.fault = false → Raised T .printer .lane 0 0 { l with printer := { l.printer with fault := true } } k)
    ∧ (let p := k.printer
       let under := p.composer = .composing ∨ p.composer = .draining
       let left := { p with
         bandReq := false, line := if k.lines.bandAck then .taken else .idle
         timer := if k.lines.bandAck then p.timer else none, bufA := .free, bufB := .free, voidDue := true, job := none
         composer := .paused }
       (¬ under → m = k)
         ∧ (under → p.queue = [] → m = { k with printer := left })
         ∧ ∀ e rest, under → p.queue = e :: rest →
             (e.restarts < 3 →
               m = { k with printer := { left with queue := { e with restarts := e.restarts + 1 } :: rest } })
             ∧ (3 ≤ e.restarts → m = Live.event .printFailed none 0 (e.slot.val + 1) { k with
                 printer := { left with queue := rest },
                 mgmt := { k.mgmt with
                   sticky := { k.mgmt.sticky with composerFree := k.mgmt.sticky.composerFree || rest.isEmpty } } }))

end Sys2Proof.Machine
end

