-- ==== Sys2Proof/Certificates/Slice0/Obligations.lean ====
section
/-! DEFINITION. The statements for the provers, by family of commands: the machine, the chain, the remote, the management
unit, the record store, the stations, the fault action unit, the board, the print line, the controller's own events. -/

section

open Sys2Proof Sys2Proof.Machine

/-! ## The machine -/

/-- A step takes the command at the front of the queue and runs it with the queue's rest. -/
def Obligations.StepTakesTheFrontCommand : Prop :=
  ∀ (s : State) (c : Instr) (rest : List Instr), s.pending = c :: rest → step s = exec c { s with pending := rest }

/-- MODEL'S CHOICE (log 2, log 3): on an empty queue nothing happens under RESET; outside it one of the controller's own
events that are due is run, and where none is due 1 ms passes. -/
def Obligations.EmptyQueueRunsADueEventOrTicks : Prop :=
  ∀ s : State, s.pending = [] →
    (s.live.resetAsserted = true → step s = .next s)
      ∧ (s.awake → s.live.due s.tables = [] → step s = .next s.tick)
      ∧ (s.awake → s.live.due s.tables ≠ [] → ∃ i ∈ s.live.due s.tables, step s = exec i s.dueTaken)

/-- Every command on every state answers a next state, and leaves the queue alone. -/
def Obligations.EveryCommandAnswersANextState : Prop :=
  ∀ (i : Instr) (s : State), ∃ t, exec i s = .next t ∧ t.pending = s.pending

/-- MODEL'S CHOICE (log 12): while RESET is asserted (R17) no command but its release has an effect, except that the input lines
have their levels. -/
def Obligations.UnderResetOnlyTheLinesChange : Prop :=
  ∀ (i : Instr) (s : State), s.live.resetAsserted = true → (∀ l, i ≠ .resetRelease l) →
    ∃ lines, exec i s = .next { s with live := { s.live with lines := lines } }
      ∧ (lineCommand i = false → lines = s.live.lines)

/-- The assertion and the release of RESET (R17, R29, R34, R158, R163, R188). The assertion loses everything: tables, queues,
records and faults. The release brings every unit to its power-on state and samples the lines: ESTOP makes its entry and locks the
sequencer; a printer fault line sets the printer-fault flag and raises PRINTER, whose default action is NOTE. That the command
carries the sampled lines is the model's choice (log 12), and so is the order of the two EVENT frames (log 45). -/
def Obligations.ResetLosesEverythingAndSamplesTheLines : Prop :=
  (∀ s : State, s.awake →
        exec .resetAssert s = .next
          { s with
            tables := .reset
            live := { Live.powerOn s.live.lines with
              resetAsserted := true, choices := s.live.choices } })
  ∧ (∀ (s : State) (lines : InputLines), s.live.resetAsserted = true →
        ∃ t, exec (.resetRelease lines) s = .next t ∧ t.tables = .reset ∧ t.pending = s.pending ∧ t.awake
          ∧ t.live.lines = lines
          ∧ t.live.faults = (if lines.estop then [newEntry .estop .lane .lock none] else [])
          ∧ t.live.seq = (if lines.estop then { Seq.reset with state := .locked } else .reset)
          ∧ t.live.printer = { Printer.reset with fault := lines.paperOut || lines.headHot }
          ∧ t.live.chain = { Chain.reset with
              up := (if lines.estop then originated [faultEvent .estop .lane .lock false 0 0] else [])
                ++ (if lines.paperOut || lines.headHot then originated [faultEvent .printer .lane .note false 0 0] else []) }
          ∧ t.live.ps = .reset ∧ t.live.ra = .reset ∧ t.live.rb = .reset ∧ t.live.mgmt = .reset ∧ t.live.mode = .auto
          ∧ t.live.steer = .reset ∧ t.live.tracker = .reset ∧ t.live.records = .reset ∧ t.live.guide = .reset)

/-- The laws hold right after the release of RESET, whose state is every unit's power-on state (R17, R29, R38, R54, R76, R104,
R106, R114, R127, R163, R173, R188). The levels of the input lines are the model's choice (log 1). -/
def Obligations.ResetStateIsLawful : Prop :=
  State.reset.tables.law ∧ Lawful State.reset.tables State.reset.live ∧ core.reset = State.reset
    ∧ (∀ n, State.reset.tables.get n = { state := .invalid, content := [] }) ∧ State.reset.live.mode = .auto
    ∧ (∀ st, State.reset.live.stationState st = .offline ∧ (State.reset.live.tare st).stale = true)
    ∧ (∀ i, State.reset.live.slotState i = .free) ∧ State.reset.live.faults = []
    ∧ State.reset.live.seq.state = .standby ∧ State.reset.live.mgmt.keepState = .disabled
    ∧ State.reset.live.mgmt.lower = 0 ∧ State.reset.live.mgmt.upper = 1000 ∧ State.reset.live.guide.queue = []
    ∧ State.reset.live.printer.composer = .idle ∧ State.reset.pending = []

/-- HEADLINE: every step keeps the law of the table store (R29, R31 to R34, R41): at most one region is LOADING and it is
that of the load context, whose bytes received it holds; no region is larger than its size; INVALID regions hold nothing;
and every VALID region passes its structure check against the tables as they then stand. -/
def Obligations.EveryStepKeepsTheTableLaw : Prop := ∀ s t : State, s.tables.law → step s = .next t → t.tables.law

/-- HEADLINE: every step keeps the laws of the rest: the bounds of the queues with the law of the mirror trip level (R9, R10,
R14, R105, R166); the law of the fault list (R154, R155); at most one OPEN record (R114); the law of the print queue (R179,
R181); and the entry of ESTOP while its line is asserted (R158). -/
def Obligations.EveryStepKeepsTheLaws : Prop :=
  ∀ s t : State, s.tables.law → Lawful s.tables s.live → step s = .next t → Lawful t.tables t.live

/-! ## The chain -/

/-- KEEPALIVE and KEEPALIVE_UPPER_EXPIRY (R27, R28, R34): the effect of a KEEPALIVE in each state of the monitor, one below the
lower limit raising LINK_WINDOW; and the upper limit, at which FIRST and TIMING become LAPSED and LINK_WINDOW is raised. A raise
of LINK_WINDOW abandons a load; that its EVENT comes before LOAD_ABANDONED is the model's choice (log 48). Before the limit, and
in the other states, the expiry does nothing (log 4). -/
def Obligations.KeepaliveMonitorJudgesTheInterval : Prop :=
  ∀ (s : State) (n : Nat), s.awake →
    (s.live.mgmt.keepState = .disabled → exec .keepalive s = .next s)
      ∧ (s.live.mgmt.keepState = .first ∨ s.live.mgmt.keepState = .lapsed → exec .keepalive s =
          .next (s.withLive { s.live with mgmt := { s.live.mgmt with keepState := .timing, keepTimer := some 0 } }))
      ∧ (s.live.mgmt.keepState = .timing → s.live.mgmt.keepTimer = some n → s.live.mgmt.lower ≤ n →
          exec .keepalive s = .next (s.withLive { s.live with mgmt := { s.live.mgmt with keepTimer := some 0 } }))
      ∧ (s.live.mgmt.keepState = .timing → s.live.mgmt.keepTimer = some n → n < s.live.mgmt.lower →
          ∃ t, exec .keepalive s = .next t
            ∧ LinkWindowRaised s { s.live with mgmt := { s.live.mgmt with keepTimer := some 0 } } t)
      ∧ (s.live.mgmt.keepState = .first ∨ s.live.mgmt.keepState = .timing → s.live.mgmt.keepTimer = some n →
        s.live.mgmt.upper ≤ n → ∃ t, exec .keepaliveUpperExpiry s = .next t
          ∧ LinkWindowRaised s { s.live with mgmt := { s.live.mgmt with keepState := .lapsed, keepTimer := none } } t)
      ∧ (s.live.mgmt.keepState = .disabled ∨ s.live.mgmt.keepState = .lapsed
          ∨ (s.live.mgmt.keepTimer = some n ∧ n < s.live.mgmt.upper) → exec .keepaliveUpperExpiry s = .next s)

/-- BAD_FRAME and BAD_FRAME_WINDOW_END (R4, R5): a bad frame's port counts and its indicator is set; the count that becomes
equal to the limit raises LINK_NOISE, whose condition is then present. At the end of the window both counts return to 0, and if
both were below the limit the condition ends. Bytes that pass every check, and a window not yet over, do nothing (log 4). -/
def Obligations.BadFramesAreCountedInAWindow : Prop :=
  ∀ (s : State) (port : Port) (bytes : List Byte), s.awake →
    let limit := s.tables.settings.badLimit
    let anew : Chain :=
      { s.live.chain with badUp := 0, badDown := 0, windowTimer := s.live.chain.windowTimer - 1000 }
    (bytesBad port bytes = true → (s.live.countBad port).chain.bad port ≠ s.tables.settings.badLimit →
        exec (.badFrame port bytes) s = .next (s.withLive (s.live.countBad port)))
      ∧ (bytesBad port bytes = true → (s.live.countBad port).chain.bad port = s.tables.settings.badLimit →
          ∃ m, exec (.badFrame port bytes) s = .next (s.withLive m)
            ∧ Raised s.tables .linkNoise .lane 0 (match port with | .up => 0 | .down => 1)
                { s.live.countBad port with chain := { (s.live.countBad port).chain with noise := true } } m)
      ∧ (bytesBad port bytes = false → exec (.badFrame port bytes) s = .next s)
      ∧ s.live.countBad .up = { s.live with
          chain := { s.live.chain with badUp := s.live.chain.badUp + 1 }
          mgmt := { s.live.mgmt with sticky := { s.live.mgmt.sticky with badFrameUp := true } } }
      ∧ s.live.countBad .down = { s.live with
          chain := { s.live.chain with badDown := s.live.chain.badDown + 1 }
          mgmt := { s.live.mgmt with sticky := { s.live.mgmt.sticky with badFrameDown := true } } }
      ∧ (1000 ≤ s.live.chain.windowTimer → s.live.chain.badUp < limit → s.live.chain.badDown < limit →
        exec .badFrameWindowEnd s = .next (s.withLive { s.live with
          chain := { anew with noise := false }
          faults := s.live.faults.map fun e => if e.is .linkNoise .lane then { e with present := false } else e }))
      ∧ (1000 ≤ s.live.chain.windowTimer → (limit ≤ s.live.chain.badUp ∨ limit ≤ s.live.chain.badDown) →
          exec .badFrameWindowEnd s = .next (s.withLive { s.live with chain := anew }))
      ∧ (s.live.chain.windowTimer < 1000 → exec .badFrameWindowEnd s = .next s)

/-- HOST_PASS_THROUGH (R15, R16): a frame that passes the down filter enters the down queue while its occupancy is below 10,
and otherwise EVENT DOWN_FULL is offered; one that does not pass is discarded with EVENT FILTERED. -/
def Obligations.HostFrameIsFilteredThenAdmitted : Prop :=
  ∀ (s : State) (f : Frame), s.awake → hostFrameFits f = true →
    (hostPasses s.tables s.live f → s.live.chain.down.length < 10 → exec (.hostPassThrough f) s =
        .next (s.withLive (s.live.setDown (placeDown { source := .host, frame := f } s.live.chain.down))))
      ∧ (hostPasses s.tables s.live f → 10 ≤ s.live.chain.down.length →
          exec (.hostPassThrough f) s = .next (s.withLive (s.live.event .downFull none 0 f.dest.toNat)))
      ∧ (¬ hostPasses s.tables s.live f → exec (.hostPassThrough f) s =
          .next (s.withLive (s.live.event .filtered (filteredStation s.tables s.live f) 0 f.dest.toNat)))

/-- UP_FRAME_SENT (R9, R12, R120): the head frame leaves; the freed places go to a waiting REPLY, then to the pending RESULT
frames in their order. That no other frame is taken between the two is the model's choice (log 46). -/
def Obligations.UpFrameSentOffersTheFreedPlaces : Prop :=
  ∀ (s : State) (h : UpFrame) (rest : List UpFrame), s.awake → s.live.chain.up = h :: rest →
    let results := s.live.records.pendingResults
    let left := fun (k : Nat) => { s.live.records with pendingResults := results.drop k }
    (s.live.mgmt.reply = none → exec .upFrameSent s = .next (s.withLive { s.live with
          chain := { s.live.chain with up := rest ++ originated ((results.take (32 - rest.length)).map (·.2)) }
          records := left (32 - rest.length) }))
      ∧ (∀ f, s.live.mgmt.reply = some f → rest.length < 32 → exec .upFrameSent s = .next (s.withLive { s.live with
          chain := { s.live.chain with
            up := rest ++ originated (f :: (results.take (31 - rest.length)).map (·.2)) }
          mgmt := { s.live.mgmt with reply := none }
          records := left (31 - rest.length) }))

/-- The down queue and DOWN_FRAME_SENT (R14, R15, R69). The head frame keeps its place as the started frame, from the moment it
stands there (log 6); a DRIVE frame stands behind the DRIVE frames that follow it, any other frame stands last, and nothing else
moves. When the head frame has been sent the freed places go to RA's held DRIVE frame, then to RB's; that no new DRIVE frame is
taken between is the model's choice (log 46). -/
def Obligations.DownQueueOrderAndFreedPlaces : Prop :=
  (∀ (f h : DownFrame) (drives others : List DownFrame), (∀ x ∈ drives, x.isDrive = true) →
        (∀ x ∈ others, x.isDrive = false) →
        placeDown f [] = [f]
          ∧ (f.isDrive = true → placeDown f (h :: (drives ++ others)) = h :: (drives ++ f :: others))
          ∧ (f.isDrive = false → placeDown f (h :: (drives ++ others)) = h :: (drives ++ others ++ [f])))
  ∧ (∀ (s : State) (h : DownFrame) (rest : List DownFrame), s.awake → s.live.chain.down = h :: rest → rest.length < 16 →
        let drive := fun (f : Frame) (q : List DownFrame) => placeDown { source := .drive, frame := f } q
        let raSent := { s.live.ra with heldDrive := none }
        let rbSent := { s.live.rb with heldDrive := none }
        (s.live.ra.heldDrive = none → s.live.rb.heldDrive = none →
            exec .downFrameSent s = .next (s.withLive (s.live.setDown rest)))
          ∧ (∀ f, s.live.ra.heldDrive = some f → s.live.rb.heldDrive = none ∨ rest.length = 15 →
              exec .downFrameSent s = .next (s.withLive { s.live with
                chain := { s.live.chain with down := drive f rest }, ra := raSent }))
          ∧ (∀ g, s.live.ra.heldDrive = none → s.live.rb.heldDrive = some g → exec .downFrameSent s =
              .next (s.withLive { s.live with chain := { s.live.chain with down := drive g rest }, rb := rbSent }))
          ∧ (∀ f g, s.live.ra.heldDrive = some f → s.live.rb.heldDrive = some g → rest.length < 15 →
              exec .downFrameSent s = .next (s.withLive { s.live with
                chain := { s.live.chain with down := drive g (drive f rest) }, ra := raSent, rb := rbSent })))

/-- HEAD_FRAME_PASSED_UP, HEAD_STATUS and BUTTON frames of heads that are no drive head and not the remote, and SAMPLE_FRAME (R8,
R10, R42): a frame that no block takes enters the up queue unchanged as mirror class while the occupancy is below the mirror trip
level, and is discarded otherwise; so is a SAMPLE frame that matches no enabled entry; while CHANNELS or SEGMENTS is not VALID
every SAMPLE frame is discarded without effect. -/
def Obligations.HeadFramesThatNoBlockTakesGoUp : Prop :=
  (∀ (s : State) (f : Frame), s.awake → headFrameFits f = true → frameBad .down f = false → passedUp s.tables f →
      (s.live.chain.up.length < s.tables.settings.trip → exec (.headFramePassedUp f) s =
          .next (s.withLive (s.live.setUp (s.live.chain.up ++ [{ mirror := true, frame := f }]))))
        ∧ (s.tables.settings.trip ≤ s.live.chain.up.length → exec (.headFramePassedUp f) s = .next s))
  ∧ ∀ (s : State) (src ch : Byte) (l : List Half), s.awake → WellFormed (.sampleFrame src ch l) = true →
        (s.tables.steering = false → exec (.sampleFrame src ch l) s = .next s)
          ∧ (s.tables.steering = true → s.tables.entryOfHead src.toNat ch.toNat = none →
              s.live.chain.up.length < s.tables.settings.trip → exec (.sampleFrame src ch l) s =
                .next (s.withLive (s.live.setUp (s.live.chain.up
                  ++ [{ mirror := true, frame := headFrame src kindSample (samplePayload ch l) }]))))
          ∧ (s.tables.steering = true → s.tables.entryOfHead src.toNat ch.toNat = none →
              s.tables.settings.trip ≤ s.live.chain.up.length → exec (.sampleFrame src ch l) s = .next s)

/-! ## Samples, heads and the remote -/

/-- SAMPLE_FRAME of entries that feed no roller station (R42 to R52, R73, R74, R98, R107, R108). A raw sample is converted on its
segment of the set, the end segments reaching outside it, and clamped to its role's range; only a tared role of a station has an
offset. A value of an AUX entry becomes its latest and ends its silence, with the condition of HEAD_SILENT where no other entry of
the station is silent. It is judged where the entry names no station or a present one: inside, it clears both flags, and ends the
condition of CHANNEL_WINDOW where no other entry of the scope is outside; outside, it sets the outside flag, and raises CHANNEL_WINDOW
with the scope of the entry and the entry as detail where the window applies and the raised flag is clear. A mirror is due at every
decimation-th frame, and enters while the occupancy is below the mirror trip level. A PIT_GUARD value sets or clears the guard and
raises PIT_GUARD, or ends its condition. At PS a contact rise in IDLE starts a crossing, in TARING it aborts the tare with value 0 and
starts one too, or after a service tare leaves PS OFFLINE, a PLATE_DISP value moves its peak, and the crossing ends when both
contacts are 0: the tracker makes an axle of it, withdraws one, raises MISTRACK, or without a record OPEN sends EVENT STRAY_AXLE.
Which of a window raise and the delivery comes first, and which of EVENT FAULT and mirror, are free values (log 7, log 8) that an AUX
entry without mirror does not show; that MISTRACK comes after PS has returned to IDLE is the model's choice (log 20). -/
def Obligations.LaneAndPlateSamplesAreTaken : Prop :=
  (∀ (T : Tables) (l : Live) (e : ChannelEntry) (x : Int),
    let set := T.segmentSet e.segment e.role
    let range : Int × Int := match e.role with
      | .loadL | .loadR => (0, 30000)
      | .pedal => (0, 2000)
      | .plateEntry | .plateExit | .pitGuard => (0, 1)
      | .plateDisp | .aux => (-32768, 32767)
      | _ => (0, 65535)
    (∀ i a b, set.Pairwise (fun p q => p.1 < q.1) → set[i]? = some a → set[i + 1]? = some b → i = 0 ∨ a.1 ≤ x →
        i + 2 = set.length ∨ x < b.1 →
        calibrated T e x = max range.1 (min range.2 (a.2 + ((x - a.1) * (b.2 - a.2)).tdiv (b.1 - a.1))))
      ∧ (e.station = none ∨ e.role ∉ [.forceL, .forceR, .loadL, .loadR, .plateDisp] → l.offset e = 0))
  ∧ (∀ (s : State) (src ch : Byte) (x : Half) (i : Nat) (e : ChannelEntry) (c : ChannelState), s.awake →
    WellFormed (.sampleFrame src ch [x]) = true → s.tables.steering = true →
    s.tables.entryOfHead src.toNat ch.toNat = some i → s.tables.entries[i]? = some e →
    s.live.steer.channels[i]? = some c → e.role = .aux → e.mirror = .none →
    let v := calibrated s.tables e (signed16 x.toNat)
    let acts := ∀ st, e.station = some st → s.tables.present st = true
    let scope := match e.station with | some st => Scope.station st | none => .lane
    let outside := e.applicability ≠ .never ∧ (v < e.low ∨ e.high < v)
    let applies := e.applicability = .always ∨ (e.applicability = .active ∧ ∃ st, (e.station = none ∨ e.station = some st)
      ∧ s.tables.present st = true ∧ s.live.stationState st ∈ [.spinning, .ready, .measuring, .taring])
    let other := fun (flag : ChannelState → Bool) => (s.tables.entries.zip s.live.steer.channels).zipIdx.any fun d =>
      d.2 != i && d.1.1.station == e.station && flag d.1.2
    let ended := fun (src : Source) (now : Bool) (list : List FaultEntry) =>
      if now then list.map fun f => if f.is src scope then { f with present := false } else f else list
    let heard := ended .headSilent (e.station.isSome && c.silent && !other (·.silent)) s.live.faults
    let inside := ended .channelWindow (c.outside && !other (·.outside)) heard
    let with' := fun (y : ChannelState) (list : List FaultEntry) => { s.live with
      steer := { s.live.steer with channels := s.live.steer.channels.set i y }, faults := list }
    let c' := { c with latest := some v }
    let d := if e.station = none then c' else { c' with silence := some 0, silent := false, silenceRaised := false }
    let goes := fun (m : Live) => exec (.sampleFrame src ch [x]) s = .next (s.withLive m)
    (¬ acts → goes (with' c' s.live.faults))
      ∧ (acts → ¬ outside → goes (with' { d with outside := false, windowRaised := false } inside))
      ∧ (acts → outside → ¬ applies ∨ c.windowRaised = true → goes (with' { d with outside := true } heard))
      ∧ (acts → outside → applies → c.windowRaised = false → ∃ m, goes m
          ∧ Raised s.tables .channelWindow scope (match e.station with | some st => (s.live.bound st).getD 0 | none => 0) i
            { with' { d with outside := true, windowRaised := true } heard with choices := s.live.choices + 1 } m))
  ∧ (∀ (s : State) (src ch : Byte) (l : List Half) (x : Half) (i : Nat) (e : ChannelEntry) (c : ChannelState), s.awake →
    WellFormed (.sampleFrame src ch (l ++ [x])) = true → s.tables.steering = true →
    s.tables.entryOfHead src.toNat ch.toNat = some i → s.tables.entries[i]? = some e →
    s.live.steer.channels[i]? = some c → e.role = .aux → e.station = none → c.outside = false →
    let v := calibrated s.tables e (signed16 x.toNat)
    let out := fun (n : Nat) => { s.live.steer with
      channels := s.live.steer.channels.set i { c with latest := some v, outside := false, windowRaised := false, decimation := n } }
    let goes := fun (m : Live) => exec (.sampleFrame src ch (l ++ [x])) s = .next (s.withLive m)
    (e.mirror = .none → e.applicability = .never →
        goes { s.live with steer := out c.decimation })
      ∧ (e.mirror ≠ .none → e.applicability = .never →
          let values := (l ++ [x]).map fun y => calibrated s.tables e (signed16 y.toNat)
          let mirror : UpFrame :=
            { mirror := true
              frame := if e.mirror = .scaled then mirrorFrame i values
                else headFrame src kindSample (samplePayload ch (l ++ [x])) }
          let up := s.live.chain.up
          (c.decimation + 1 < e.decimation →
              goes { s.live with steer := out (c.decimation + 1) })
            ∧ (e.decimation ≤ c.decimation + 1 → goes { s.live with
                steer := out 0
                chain := { s.live.chain with
                  up := if up.length < s.tables.settings.trip then up ++ [mirror] else up } })))
  ∧ (∀ (s : State) (src ch : Byte) (x : Half) (i : Nat) (e : ChannelEntry) (c : ChannelState), Sampled s src ch x i e c →
    e.role = .pitGuard → e.station = none →
    let v := s.valueOf e x
    let l := s.sampledAs i e c v
    let guard := fun (b : Bool) => { l with steer := { l.steer with guardOpen := b, guardRaised := b } }
    let goes := fun (m : Live) => exec (.sampleFrame src ch [x]) s = .next (s.withLive m)
    (v = 0 ∨ v = 1)
      ∧ (v = 1 → s.live.steer.guardRaised = true → goes (guard true))
      ∧ (v = 1 → s.live.steer.guardRaised = false →
          ∃ m, goes m ∧ Raised s.tables .pitGuard .lane 0 0 (guard true) m)
      ∧ (v = 0 → goes { guard false with
          faults := if s.live.steer.guardOpen then
              s.live.faults.map fun f => if f.is .pitGuard .lane then { f with present := false } else f
            else s.live.faults }))
  ∧ ∀ (s : State) (src ch : Byte) (x : Half) (i : Nat) (e : ChannelEntry) (c : ChannelState), Sampled s src ch x i e c →
    e.station = some .ps →
    let v := s.valueOf e x
    let l := s.sampledAs i e c v
    let goes := fun (m : Live) => exec (.sampleFrame src ch [x]) s = .next (s.withLive m)
    (e.role = .plateDisp →
        (s.live.ps.state ∉ [.crossing, .taring] → goes l)
        ∧ (∀ k, s.live.ps.state = .crossing → s.live.ps.crossing = some k →
            let peak := match k.peak with
              | some p => if p.natAbs < v.natAbs then v else p
              | none => v
            goes { l with ps := { s.live.ps with crossing := some { k with peak := some peak } } }))
      ∧ ∀ d : Direction, e.role = (match d with | .forward => .plateEntry | .reverse => .plateExit) →
          let was := match d with | .forward => s.live.ps.contactIn | .reverse => s.live.ps.contactOut
          let ps := match d with
            | .forward => { s.live.ps with contactIn := v == 1 }
            | .reverse => { s.live.ps with contactOut := v == 1 }
          (ps.state ∉ [.idle, .taring, .crossing] ∨ (ps.state ∈ [.idle, .taring] ∧ (v ≠ 1 ∨ was = true))
              ∨ (ps.state = .crossing ∧ (ps.contactIn = true ∨ ps.contactOut = true)) → goes { l with ps := ps })
            ∧ (ps.state = .idle → v = 1 → was = false → s.live.seqFree → goes { l with
                ps := { ps with state := .crossing, crossing := some { direction := d, peak := none, stale := none } } })
            ∧ (∀ k, ps.state = .taring → v = 1 → was = false → ps.tare.context = some k → s.live.seqFree →
                let dropped := { ps with tare := { ps.tare with context := none } }
                goes (Live.offerEvent (eventFrame .tareAborted (some .ps) 0 (beSigned32 0)) { l with
                  ps := if k.service then { dropped with state := .offline, crossing := none }
                    else { dropped with
                      state := .crossing, crossing := some { direction := d, peak := none, stale := none } } }))
            ∧ ∀ k, ps.state = .crossing → ps.crossing = some k → ps.contactIn = false → ps.contactOut = false →
                s.live.seqFree →
                let measured := k.peak.map fun p =>
                  ({ peak := p, slip := (p * 1000).tdiv s.tables.settings.plateLength } : PlateValues)
                let slip := if k.direction = .forward ∧ measured.isSome then measured.map (·.slip) else ps.lastSlip
                let rest := { l with ps := { ps with state := .idle, crossing := none, lastSlip := slip } }
                let g := s.live.tracker
                (s.live.openRecord = none →
                    goes (rest.event .strayAxle (some .ps) 0 (match k.direction with | .forward => 0 | .reverse => 1)))
                  ∧ ∀ r, s.live.openRecord = some r →
                      let n := r.axles.length + 1
                      let room := r.axles.length < r.expected ∧ g.g1.length < 4
                      let rollers := s.tables.present .ra = true ∨ s.tables.present .rb = true
                      let last := fun (j : Nat) (a : AxleRecord) =>
                        g.g1.getLast? = some j ∧ r.axles.getLast? = some a ∧ a.index = j
                      (k.direction = .forward → room → (∀ b ∈ r.axles, b.index ≠ n) → ∃ m a, goes m ∧ m.ps = rest.ps
                          ∧ m.openRecord = some { r with axles := r.axles ++ [a] }
                          ∧ m.tracker = { g with g1 := if rollers then g.g1 ++ [n] else g.g1 }
                          ∧ a.plate.values = measured ∧ a.plate.flags.stale = (measured.isSome && ps.tare.stale)
                          ∧ { a with plate := .empty, verdict := .absent } =
                              AxleRecord.fresh n (r.kinds.getD (n - 1) .steer) (if rollers then .inGap else .done)
                          ∧ a.verdict = if rollers then .absent
                              else axleVerdict s.tables.rows r.cls { a with verdict := .absent })
                        ∧ (k.direction = .forward → ¬ room →
                            ∃ m, goes m ∧ Raised s.tables .mistrack (.station .ps) 0 0 rest m)
                        ∧ (∀ j a, k.direction = .reverse → last j a → ∃ m : Live, goes (m.event .axleWithdrawn (some .ps) j 0)
                            ∧ m.ps = rest.ps ∧ m.tracker = { g with g1 := g.g1.dropLast } ∧ m.chain = l.chain
                            ∧ m.openRecord = some { r with axles := r.axles.dropLast })
                        ∧ (k.direction = .reverse → (∀ j a, ¬ last j a) →
                            ∃ m, goes m ∧ Raised s.tables .mistrack (.station .ps) 0 0 rest m)

/-- SAMPLE_FRAME of entries that feed a capture (R45, R79 to R82, R85, R87, R89, R91, R92). A FORCE value of a station that is
MEASURING alone, below its ceiling, if it has one, and not the last of its length, joins its side: the count rises, a greater
value is the new peak and takes the pedal value with it, and from the 17th value on minimum and maximum follow; nothing else
changes but the entry's latest value and its silence timer. A value at or above the ceiling ends the capture with CEILING, the
last left value of the length with COUNT. A PEDAL value becomes the current pedal of each capture, or at the target ends it with
PEDAL. A WHEEL value moves the lockup run of its side, which at 3 ends the capture with LOCKUP. A joint capture takes the values
of both stations for its four sides: its length counts RA's left values alone, its pedal is RA's, each side has its own station's
drum, and its end is that of both stations, each with its own values and its own axle. What the sequencer does at that end stands
behind both EVENT frames (log 60). -/
def Obligations.ForceSampleJoinsTheCapture : Prop :=
  (∀ (s : State) (src ch : Byte) (x : Half) (i : Nat) (e : ChannelEntry) (c : ChannelState) (r : Roller) (d : Side)
    (cap : Capture), s.awake → WellFormed (.sampleFrame src ch [x]) = true → s.tables.steering = true →
    s.tables.entryOfHead src.toNat ch.toNat = some i → s.tables.entries[i]? = some e →
    s.live.steer.channels[i]? = some c → e.role = (match d with | .left => .forceL | .right => .forceR) →
    e.station = some (stationOf r) → s.tables.present (stationOf r) = true → e.enabled = true → e.mirror = .none →
    e.applicability = .never → c.outside = false → c.silent = false → (s.live.roller r).state = .measuring →
    (s.live.roller r).capture = some cap → cap.settings.joint = false →
    (∀ o, s.live.ra.capture = some o → o.settings.joint = false) →
    let v := calibrated s.tables e (signed16 x.toNat) - s.live.offset e
    (∀ n, cap.settings.ceiling = some n → v.toNat < n) →
    (∀ n, d = .left → cap.settings.length = some n → cap.left.count + 1 < n) →
    let side := match d with | .left => cap.left | .right => cap.right
    let side' := side.force cap.pedal v.toNat
    let c' := { c with latest := some v, silence := some 0, silenceRaised := false, windowRaised := false }
    (exec (.sampleFrame src ch [x]) s = .next (s.withLive (Live.setCapture r
          (some (match d with | .left => { cap with left := side' } | .right => { cap with right := side' }))
          { s.live with
            steer := { s.live.steer with channels := s.live.steer.channels.set i c' } })))
      ∧ side'.count = side.count + 1 ∧ side'.peak = max side.peak v.toNat
      ∧ side'.pedalAtPeak = (if side.peak < v.toNat then cap.pedal else side.pedalAtPeak)
      ∧ side'.lockup = side.lockup ∧ side'.lockupRun = side.lockupRun
      ∧ (side.count < 16 → side'.minimum = side.minimum ∧ side'.maximum = side.maximum)
      ∧ (16 ≤ side.count → side'.minimum = some (min (side.minimum.getD v.toNat) v.toNat)
          ∧ side'.maximum = some (max (side.maximum.getD v.toNat) v.toNat)))
  ∧ (∀ (s : State) (src ch : Byte) (x : Half) (i : Nat) (e : ChannelEntry) (c : ChannelState), Sampled s src ch x i e c →
    e.role = .pedal → e.station = none →
    let v := (s.valueOf e x).toNat
    let l := s.sampledAs i e c (s.valueOf e x)
    let goes := fun (m : Live) => exec (.sampleFrame src ch [x]) s = .next (s.withLive m)
    let pressed := fun (k : Capture) => { k with pedal := some v }
    let after := fun (y : RollerStation) => if y.state = .measuring then { y with capture := y.capture.map pressed } else y
    (∀ r k, (s.live.roller r).capture = some k → k.settings.joint = false) →
    ((∀ r k n, (s.live.roller r).state = .measuring → (s.live.roller r).capture = some k →
          k.settings.pedalTarget = some n → v < n) →
        goes { l with ra := after s.live.ra, rb := after s.live.rb })
      ∧ ∀ r k n, (s.live.roller r).state = .measuring → (s.live.roller r).capture = some k →
          k.settings.pedalTarget = some n → n ≤ v → (∀ q, q ≠ r → (s.live.roller q).state ≠ .measuring) →
          s.live.seqFree → s.live.noneSilent → ∃ m, goes m ∧ CaptureEnded s.tables r (pressed k) .pedal l m)
  ∧ (∀ (s : State) (src ch : Byte) (x : Half) (i : Nat) (e : ChannelEntry) (c : ChannelState) (r : Roller) (d : Side)
    (k : Capture), Sampled s src ch x i e c → e.station = some (stationOf r) → (s.live.roller r).state = .measuring →
    (s.live.roller r).capture = some k → k.settings.joint = false →
    (∀ o, s.live.ra.capture = some o → o.settings.joint = false) →
    let v := s.valueOf e x
    let l := s.sampledAs i e c v
    let goes := fun (m : Live) => exec (.sampleFrame src ch [x]) s = .next (s.withLive m)
    let side := match d with | .left => k.left | .right => k.right
    let with' := fun (y : SideReduction) => match d with | .left => { k with left := y } | .right => { k with right := y }
    (e.role = (match d with | .left => .forceL | .right => .forceR) → s.live.noneSilent → s.live.seqFree →
        let k' := with' (side.force k.pedal v.toNat)
        (∀ n, k.settings.ceiling = some n → n ≤ v.toNat → ∃ m, goes m ∧ CaptureEnded s.tables r k' .ceiling l m)
          ∧ (∀ n, (∀ p, k.settings.ceiling = some p → v.toNat < p) → d = .left → k.settings.length = some n →
              n ≤ k.left.count + 1 → ∃ m, goes m ∧ CaptureEnded s.tables r k' .count l m))
      ∧ (e.role = (match d with | .left => .wheelL | .right => .wheelR) →
          let drum := s.live.latest s.tables (stationOf r) (match d with | .left => .drumL | .right => .drumR)
          let slips := match drum with
            | some w => s.tables.settings.ready ≤ 2 * w ∧ s.tables.settings.lockup ≤ (1000 * (w - v)).tdiv w
            | none => False
          (¬ slips → goes (l.setRoller r { s.live.roller r with capture := some (with' { side with lockupRun := 0 }) }))
            ∧ (slips → side.lockupRun < 2 → goes (l.setRoller r { s.live.roller r with
                capture := some (with' { side with lockupRun := side.lockupRun + 1 }) }))
            ∧ (slips → 2 ≤ side.lockupRun → s.live.noneSilent → s.live.seqFree → ∃ m, goes m
                ∧ CaptureEnded s.tables r (with' { side with lockupRun := side.lockupRun + 1, lockup := true }) .lockup l m)))
  ∧ ∀ (s : State) (src ch : Byte) (x : Half) (i : Nat) (e : ChannelEntry) (c : ChannelState) (k : Capture),
    Sampled s src ch x i e c → s.live.ra.state = .measuring → s.live.rb.state = .measuring → s.live.ra.capture = some k →
    k.settings.joint = true →
    let v := s.valueOf e x
    let l := s.sampledAs i e c v
    let goes := fun (m : Live) => exec (.sampleFrame src ch [x]) s = .next (s.withLive m)
    let kept := fun (y : Capture) => goes { l with ra := { s.live.ra with capture := some y } }
    let ends := fun (y : Capture) (reason : EndReason) =>
      s.live.noneSilent → ∃ m, goes m ∧ CaptureEnded s.tables .ra y reason l m
    let below := fun (o : Option Nat) => ∀ n, o = some n → v.toNat < n
    let reached := fun (o : Option Nat) => ∃ n, o = some n ∧ n ≤ v.toNat
    (e.role = .pedal → e.station = none →
        let y := { k with pedal := some v.toNat }
        (below k.settings.pedalTarget → kept y) ∧ (reached k.settings.pedalTarget → ends y .pedal))
      ∧ ∀ (q : Roller) (d : Side), e.station = some (stationOf q) →
        let side := match q, d with
          | .ra, .left => k.left
          | .ra, .right => k.right
          | .rb, .left => k.rbLeft
          | .rb, .right => k.rbRight
        let with' := fun (y : SideReduction) => match q, d with
          | .ra, .left => { k with left := y }
          | .ra, .right => { k with right := y }
          | .rb, .left => { k with rbLeft := y }
          | .rb, .right => { k with rbRight := y }
        (e.role = (match d with | .left => .forceL | .right => .forceR) →
            let y := with' (side.force k.pedal v.toNat)
            let full := q = .ra ∧ d = .left ∧ ∃ n, k.settings.length = some n ∧ n ≤ k.left.count + 1
            (below k.settings.ceiling → ¬ full → kept y) ∧ (reached k.settings.ceiling → ends y .ceiling)
              ∧ (below k.settings.ceiling → full → ends y .count))
          ∧ (e.role = (match d with | .left => .wheelL | .right => .wheelR) →
            let drum := s.live.latest s.tables (stationOf q) (match d with | .left => .drumL | .right => .drumR)
            let slips := match drum with
              | some w => s.tables.settings.ready ≤ 2 * w ∧ s.tables.settings.lockup ≤ (1000 * (w - v)).tdiv w
              | none => False
            (¬ slips → kept (with' { side with lockupRun := 0 }))
              ∧ (slips → side.lockupRun < 2 → kept (with' { side with lockupRun := side.lockupRun + 1 }))
              ∧ (slips → 2 ≤ side.lockupRun →
                  ends (with' { side with lockupRun := side.lockupRun + 1, lockup := true }) .lockup))

/-- HEAD_STATUS of a drive head (R70): FAULT sets the drive-fault flag and raises DRIVE_FAULT with the fault code, once; another
state clears the flag and ends the condition. A drive state code that names no state has no effect (log 4). -/
def Obligations.HeadStatusSetsAndClearsTheDriveFault : Prop :=
  ∀ (s : State) (src drive code : Byte) (r : Roller), s.awake → headAddress src = true →
    s.tables.driveStation src.toNat = some r →
    let flag := fun (b : Bool) => s.live.setRoller r { s.live.roller r with driveFault := b }
    (drive.toNat = 2 → (s.live.roller r).driveFault = false → ∃ m, exec (.headStatus src drive code) s = .next (s.withLive m)
          ∧ Raised s.tables .driveFault (.station (stationOf r)) (s.live.boundOrZero (stationOf r)) code.toNat
            (flag true) m)
      ∧ (drive.toNat < 2 → (s.live.roller r).driveFault = true → exec (.headStatus src drive code) s =
          .next (s.withLive ((flag false).endCondition .driveFault (.station (stationOf r)))))
      ∧ (drive.toNat = 2 → (s.live.roller r).driveFault = true → exec (.headStatus src drive code) s = .next s)
      ∧ (drive.toNat < 2 → (s.live.roller r).driveFault = false → exec (.headStatus src drive code) s = .next s)
      ∧ (2 < drive.toNat → exec (.headStatus src drive code) s = .next s)

/-- The remote's buttons where nothing takes them (R137 to R140) give EVENT BUTTON_IGNORED with the button code, and nothing else.
BUTTON_CONFIRM with no operator capture in progress (R130, R138) meets an AWAIT CONFIRM: its step ends and the sequencer goes on
at the next unit. With one in progress (R84, R138) it ends the one of the greatest start order with OPERATOR, a joint one on both
stations, in any lane mode and sequencer state. What the sequencer does at that end stands behind both EVENT frames of a joint
capture (log 60). -/
def Obligations.ConfirmIsTakenOrIgnored : Prop :=
  (∀ (s : State) (src : Byte), s.awake → headAddress src = true → s.tables.isRemote src.toNat = true →
        let ignored := fun (code : Nat) => Host.Outcome.next (s.withLive (s.live.event .buttonIgnored none 0 code))
        (∀ code, noButton code = true → exec (.buttonUnknown src code) s = ignored code.toNat)
          ∧ (s.live.latestOperatorCapture = none → s.live.seq.awaitsConfirm = false → exec (.buttonConfirm src) s = ignored 0)
          ∧ (s.live.seq.state ∉ [.running, .waiting, .halted] → exec (.buttonRepeat src) s = ignored 1)
          ∧ (s.live.seq.state ∉ [.running, .waiting, .halted] → exec (.buttonSkip src) s = ignored 2))
  ∧ (∀ (s : State) (src : Byte) (st : Station) (timeout : Nat) (halt : Bool) (u : PlanUnit), s.awake →
        headAddress src = true → s.tables.isRemote src.toNat = true → s.live.latestOperatorCapture = none →
        s.live.seq.state = .waiting → s.live.seq.wait = some (.await .confirm st timeout halt) →
        s.live.currentUnit s.tables = some u → s.live.seq.stepEndPrompt = none → s.live.seq.pausePending = false →
        s.live.seq.pendingRepeat = false →
        exec (.buttonConfirm src) s = .next (s.withLive { s.live with seq := { s.live.seq with
          state := .running, pointer := u.step + 1, mods := none, held := none, wait := none, awaitTimer := none } }))
  ∧ (∀ (s : State) (src : Byte) (h : Roller) (c : Capture), s.awake → headAddress src = true →
        s.tables.isRemote src.toNat = true → s.live.noneSilent →
        (s.live.roller h).capture = some c → c.settings.operator = true →
        (∀ q k, q ≠ h → (s.live.roller q).capture = some k → k.settings.operator = true → k.startOrder < c.startOrder) →
        ∃ m, exec (.buttonConfirm src) s = .next (s.withLive m) ∧ CaptureEnded s.tables h c .operator s.live m)

/-- BUTTON_REPEAT and BUTTON_SKIP (R88, R139, R140). REPEAT inside a unit becomes pending, or is ignored if one is; outside, it
sends the sequencer back to the restart point of the last normal capture, whose unit it marks REPEATED; at the third repeat it
posts the prompt of no more repeats, or does nothing if there is none; without a last normal capture whose axle is still bound it
is ignored. SKIP, where the sequencer is not waiting on a capture, makes the next CAPTURE's unit the armed skip; where no CAPTURE
follows, it is ignored. Where it waits on a capture that ends with SKIP, its parts are marked, and the step ends. -/
def Obligations.RepeatAndSkipMoveThePlan : Prop :=
  (∀ (s : State) (src : Byte) (c : LastCapture) (p : Plan) (a : AxleRecord), s.awake → headAddress src = true →
        s.tables.isRemote src.toNat = true → s.live.seq.state ∈ [SeqState.running, .waiting, .halted] →
        (s.live.seq.inside = true → s.live.seq.pendingRepeat = false → exec (.buttonRepeat src) s =
            .next (s.withLive { s.live with seq := { s.live.seq with pendingRepeat := true } }))
          ∧ (s.live.seq.inside = true → s.live.seq.pendingRepeat = true →
              exec (.buttonRepeat src) s = .next (s.withLive (s.live.event .buttonIgnored none 0 1)))
          ∧ (s.live.seq.inside = false → s.live.seq.last = some c → s.live.plan? s.tables = some p → c.axle ≠ 0 →
              s.live.bound (stationOf c.roller) = some c.axle → s.live.axle? c.axle = some a → (a.brake c.part).repeats ≠ 3 →
              exec (.buttonRepeat src) s = .next (s.withLive { s.live with seq := { s.live.seq with
                state := .running, pointer := c.restart, mods := none, wait := none, awaitTimer := none, armedSkip := none,
                repeatMark := some (unitStartOf p.used c.step) } }))
          ∧ (s.live.seq.inside = false → s.live.seq.last = some c → s.live.plan? s.tables = some p → c.axle ≠ 0 →
              s.live.bound (stationOf c.roller) = some c.axle → s.live.axle? c.axle = some a → (a.brake c.part).repeats = 3 →
              (s.tables.settings.noMoreRepeats = none → exec (.buttonRepeat src) s = .next s)
              ∧ ∀ n, s.tables.settings.noMoreRepeats = some n → ∃ l, exec (.buttonRepeat src) s = .next (s.withLive l)
                  ∧ Still s.live l ∧ Quiet s.live l ∧ l.seq = s.live.seq
                  ∧ l.guide = (s.live.postPrompt s.tables n .step false []).guide)
          ∧ (s.live.seq.inside = false → (∀ c, s.live.seq.last = some c → c.axle = 0
                ∨ s.live.bound (stationOf c.roller) ≠ some c.axle) →
              exec (.buttonRepeat src) s = .next (s.withLive (s.live.event .buttonIgnored none 0 1))))
  ∧ (∀ (s : State) (src : Byte) (p : Plan), s.awake → headAddress src = true → s.tables.isRemote src.toNat = true →
        s.live.seq.state ∈ [SeqState.running, .waiting, .halted] → (∀ r, s.live.seq.wait ≠ some (.capture r)) →
        s.live.plan? s.tables = some p →
        (∀ i, p.nextCapture s.live.seq.pointer = some i → exec (.buttonSkip src) s =
            .next (s.withLive { s.live with seq := { s.live.seq with armedSkip := some (unitStartOf p.used i) } }))
          ∧ (p.nextCapture s.live.seq.pointer = none →
              exec (.buttonSkip src) s = .next (s.withLive (s.live.event .buttonIgnored none 0 2))))
  ∧ (∀ (s : State) (src : Byte) (r : Roller) (k : Capture) (on : PlanCapture) (u : PlanUnit), s.awake →
        headAddress src = true → s.tables.isRemote src.toNat = true → s.live.noneSilent →
        let q := s.live.seq
        q.state = .waiting → q.wait = some (.capture r) → (s.live.roller r).capture = some k → q.planCapture r = some on →
        s.live.currentUnit s.tables = some u → q.stepEndPrompt = none → q.pausePending = false → q.pendingRepeat = false →
        ∃ m, exec (.buttonSkip src) s = .next (s.withLive m)
          ∧ CaptureAborted r k .skip (if k.settings.autoRelease then .releasing else .ready) s.live m
          ∧ m.seq = { Seq.setPlanCapture r none q with
              state := .running, pointer := u.step + 1, mods := none, held := none, wait := none, awaitTimer := none })

/-- A raise (R154, R155, R157), of any source, scope and detail, as one operation: the list, the orders, the EVENT and the
frame. -/
def Obligations.RaiseIsTakenAsTheActionSays : Prop :=
  ∀ (T : Tables) (l : Live) (src : Source) (scope : Scope) (detail : Nat),
    Raised T src scope (match scope with | .station st => (l.bound st).getD 0 | .lane => 0) detail l
      (l.raise T src scope detail)


/-! ## The management unit -/

/-- MGMT_FRAME and MGMT_UNKNOWN_REQUEST (R7, R20): a frame enters the request buffer if that is empty, and is discarded
otherwise. A request code that names no request is refused with ARG and no data; so is a STATION request without one of its four
operations (log 5). -/
def Obligations.RequestsEnterTheBufferOrAreRefused : Prop :=
  (∀ (s : State) (p : List Byte), s.awake → requestFits p = true →
        (s.live.mgmt.request = none →
            exec (.mgmtFrame p) s = .next (s.withLive { s.live with mgmt := { s.live.mgmt with request := some p } }))
          ∧ (s.live.mgmt.request ≠ none → exec (.mgmtFrame p) s = .next s))
  ∧ (∀ (s : State) (code : Byte) (a : List Byte), s.asks (code :: a) →
        (code.toNat = 0 ∨ 23 < code.toNat ∨ (code.toNat = 16 ∧ (a.length < 2 ∨ 3 < (a.getD 1 0).toNat))) →
        exec .mgmtUnknownRequest s = .next (s.answered code s.tables s.taking .arg []))

/-- STATUS (R22, R23): the state of the part as the request is taken, then all four indicators are clear. -/
def Obligations.StatusReportsAndClearsTheIndicators : Prop :=
  ∀ (s : State) (a : List Byte), s.asks (1 :: a) →
    let l := s.live
    let i := l.mgmt.sticky
    let region := fun (n : RegionName) => byte (regionStateCode (s.tables.get n).state)
    let slot := fun (k : Fin 4) => byte (slotStateCode (l.slotState k))
    (a = [] → exec .status s = .next (s.answered 1 s.tables
        { s.taking with mgmt := { s.taking.mgmt with
            sticky := { eventOverrun := false, badFrameUp := false, badFrameDown := false, composerFree := false } } } .ok
        [byte (modeCode l.mode), byte (seqStateCode l.seq.state), byte l.level,
          byte (stationStateCode l.ps.state), byte (stationStateCode l.ra.state), byte (stationStateCode l.rb.state),
          region .lane, region .channels, region .segments, region .plans, region .limits, region .faults,
          region .prompts, region .form, region .glyphs, slot 0, slot 1, slot 2, slot 3,
          byte l.chain.up.length, byte l.chain.down.length,
          byte (flagByte [i.eventOverrun, i.badFrameUp, i.badFrameDown, i.composerFree])]))
      ∧ (a ≠ [] → exec .status s = .next (s.answered 1 s.tables s.taking .arg []))

/-- LANE_MODE (R24, R25, R157): refused with ARG, then with STATE; the mode already in force changes nothing; AUTO and MANUAL
change the mode alone; SERVICE sends every present station OFFLINE; leaving SERVICE brings present stations to IDLE, and a
covered one to FAULTED. -/
def Obligations.LaneModeIsSetWhenTheLaneIsFree : Prop :=
  ∀ (s : State) (a : List Byte), s.asks (2 :: a) →
    let answer := fun (l : Live) (x : Status) (d : List Byte) => Host.Outcome.next (s.answered 2 s.tables l x d)
    let free := laneFree s.tables s.live
    ((∀ m : LaneMode, a ≠ [byte (modeCode m)]) → exec .laneMode s = answer s.taking .arg [])
      ∧ ∀ m : LaneMode, a = [byte (modeCode m)] →
          (¬ free → exec .laneMode s = answer s.taking .state [])
        ∧ (free → m = s.live.mode → exec .laneMode s = answer s.taking .ok [byte (modeCode m)])
        ∧ (free → m ≠ s.live.mode → m ≠ .service → s.live.mode ≠ .service →
            exec .laneMode s = answer { s.taking with mode := m } .ok [byte (modeCode m)])
        ∧ (free → m ≠ s.live.mode → m = .service →
            let roller := fun (r : Roller) =>
              if s.tables.present (stationOf r) then (s.live.roller r).putOffline else s.live.roller r
            exec .laneMode s = answer
              { s.taking with
                mode := .service
                ps := if s.tables.present .ps then { s.live.ps with state := .offline, crossing := none } else s.live.ps
                ra := roller .ra
                rb := roller .rb } .ok [2])
        ∧ (free → m ≠ s.live.mode → s.live.mode = .service →
            ∃ l, exec .laneMode s = answer l .ok [byte (modeCode m)] ∧ Quiet { s.taking with mode := m } l
              ∧ l.seq = s.live.seq ∧ l.guide = s.live.guide
              ∧ ∀ st, l.stationState st =
                  if s.tables.present st = true ∧ s.live.stationState st = .offline then
                    (if s.live.covered s.tables st then .faulted else .idle)
                  else s.live.stationState st)

/-- WINDOW (R26): the limits are stored and the monitor becomes FIRST with its timer at 0, or DISABLED; every other argument
is refused with ARG. -/
def Obligations.WindowSetsTheMonitor : Prop :=
  ∀ (s : State) (a : List Byte), s.asks (3 :: a) →
    let fits := fun (e : Bool) (lower upper : Nat) => lower ∈ [0, 50, 100, 250] ∧ upper ∈ [250, 500, 1000, 2000, 5000]
      ∧ lower < upper ∧ a = (if e then 1 else 0) :: (be16 lower ++ be16 upper)
    (∀ e lower upper, fits e lower upper → exec .window s = .next (s.answered 3 s.tables
        { s.taking with mgmt := { s.taking.mgmt with
            lower := lower, upper := upper, keepState := if e then .first else .disabled,
            keepTimer := if e then some 0 else none } } .ok []))
      ∧ ((∀ e lower upper, ¬ fits e lower upper) → exec .window s = .next (s.answered 3 s.tables s.taking .arg []))

/-- TABLE_BEGIN (R29, R30, R31, R36, R53, R55): BUSY while a region is LOADING, then STATE while the load class is not met; an
accepted one makes the region LOADING and empty with a fresh load context, and a region that was VALID leaves VALID for its
users. Where the bad-frame limit is then another, a port whose count has reached it raises LINK_NOISE (R5), upstream first (log 47). -/
def Obligations.TableBeginStartsALoad : Prop :=
  ∀ (s : State) (n : RegionName) (total : Nat), s.asks (4 :: byte (regionCode n) :: be16 total) → total < 65536 →
    let refused := fun (x : Status) => Host.Outcome.next (s.answered 4 s.tables s.taking x [])
    let idle := ∀ m, (s.tables.get m).state ≠ .loading
    let left := cursorWithout n s.taking
    (total = 0 ∨ regionMax n < total → exec .tableBegin s = refused .arg)
      ∧ (1 ≤ total → total ≤ regionMax n → ¬ idle → exec .tableBegin s = refused .busy)
      ∧ (1 ≤ total → total ≤ regionMax n → idle → ¬ loadClass n s.live → exec .tableBegin s = refused .state)
      ∧ (1 ≤ total → total ≤ regionMax n → idle → loadClass n s.live →
          ∃ T l, exec .tableBegin s = .next (s.answered 4 T l .ok [])
            ∧ LoadStep s.tables n { state := .loading, content := [] }
                (some { region := n, total := total, expected := 0 }) T
            ∧ (s.tables.valid n = false → l = s.taking)
            ∧ (s.tables.valid n = true → n.inert → l = left)
            ∧ (s.tables.valid n = true → n = .channels ∨ n = .segments → l = { left with
                steer := { left.steer with channels := [] }
                ps := { left.ps with contactIn := false, contactOut := false }
                faults := left.faults.map fun e =>
                  if e.source = .channelWindow ∨ e.source = .headSilent then { e with present := false } else e })
            ∧ (s.tables.valid n = true → n = .lane →
                (∀ st, l.stationState st = .offline) ∧ (∀ r, (l.roller r).driveFault = false)
                  ∧ l.guide.refreshTimer = none ∧ l.mgmt.tableCursor = left.mgmt.tableCursor
                  ∧ LimitReread s.tables T s.live l))

/-- TABLE_DATA (R32), its arguments in range. The load context is that of the LOADING region, as `Tables.law` says. -/
def Obligations.TableDataStoresInOrder : Prop :=
  ∀ (s : State) (n : RegionName) (offset : Nat) (data : List Byte), s.tables.law →
    s.asks (5 :: byte (regionCode n) :: (be16 offset ++ data)) → offset ≤ 8191 → 1 ≤ data.length → data.length ≤ 44 →
    let refused := fun (x : Status) (d : List Byte) => Host.Outcome.next (s.answered 5 s.tables s.taking x d)
    ((s.tables.get n).state ≠ .loading → exec .tableData s = refused .state [])
      ∧ ((s.tables.get n).state = .loading → ∃ c, s.tables.load = some c ∧ c.region = n
          ∧ (s.tables.get n).content.length = c.expected
          ∧ (offset ≠ c.expected → exec .tableData s = refused .order (be16 c.expected))
          ∧ (offset = c.expected → c.total < offset + data.length → exec .tableData s = refused .arg [])
          ∧ (offset = c.expected → offset + data.length ≤ c.total →
              ∃ T, exec .tableData s = .next (s.answered 5 T s.taking .ok (be16 (offset + data.length)))
                ∧ LoadStep s.tables n
                    { state := .loading, content := (s.tables.get n).content ++ data }
                    (some { c with expected := offset + data.length }) T))

/-- TABLE_END (R33) and TABLE_ABORT (R34): refused with STATE where the region named is not LOADING. TABLE_END judges the
length, the CRC and the structure in this order; where one fails, and at TABLE_ABORT, the region becomes INVALID; else it
becomes VALID. In each case no region is LOADING then. When LANE becomes VALID outside SERVICE mode a present OFFLINE station
becomes IDLE, or FAULTED where an entry covers it (R55, R157), as long as the raises that may come with it make no entry; and where
the bad-frame limit is then another, a port whose count has reached it raises LINK_NOISE (R5), upstream first (log 47). -/
def Obligations.ALoadEndsJudgedOrAborted : Prop :=
  ∀ (s : State) (n : RegionName) (c : LoadContext) (check : Half), s.tables.law →
    let content := (s.tables.get n).content
    let crc := crc16 content
    let bad : Region := { state := .invalid, content := [] }
    let ends := fun (i : Instr) (code : Byte) (x : Status) (d : List Byte) =>
      ∃ T, exec i s = .next (s.answered code T s.taking x d) ∧ LoadStep s.tables n bad none T
    (s.asks (6 :: byte (regionCode n) :: be16 check.toNat) →
        ((s.tables.get n).state ≠ .loading → exec .tableEnd s = .next (s.answered 6 s.tables s.taking .state []))
          ∧ (s.tables.load = some c → c.region = n →
              (c.expected < c.total → ends .tableEnd 6 .check (be16 c.expected))
                ∧ (c.expected = c.total → crc ≠ check → ends .tableEnd 6 .check (be16 crc.toNat))
                ∧ (∀ k i, c.expected = c.total → crc = check → structureCheck s.tables n content = some (k, i) →
                    ends .tableEnd 6 .invalidTable [byte k, byte i])
                ∧ (c.expected = c.total → crc = check → structureCheck s.tables n content = none →
                    ∃ T l, exec .tableEnd s = .next (s.answered 6 T l .ok [])
                      ∧ LoadStep s.tables n { state := .valid, content := content } none T
                      ∧ (n.inert → l = s.taking)
                      ∧ (n = .channels ∨ n = .segments → T.steering = true →
                          l.steer.channels = T.entries.map (startChannel T))
                      ∧ (n = .lane → l.guide.refreshTimer = some 0 ∧ l.guide.resend = 0 ∧ LimitReread s.tables T s.live l
                        ∧ ((∀ x, x = Source.linkNoise ∨ x = .tareStale → T.actionFor x = .ignore ∨ T.actionFor x = .note) →
                          ∀ st, l.stationState st =
                            if T.present st = true ∧ s.live.stationState st = .offline ∧ s.live.mode ≠ .service then
                              (if s.live.covered T st = true then .faulted else .idle)
                            else s.live.stationState st)))))
      ∧ (s.asks [7, byte (regionCode n)] →
          ((s.tables.get n).state ≠ .loading → exec .tableAbort s = .next (s.answered 7 s.tables s.taking .state []))
            ∧ (s.tables.load = some c → c.region = n → ends .tableAbort 7 .ok []))

/-- TABLE_READ (R36), its count in range. With continue clear, region and offset in range: STATE where the region is not VALID,
NOT_FOUND where the offset is at or beyond the end, and else the bytes from there. With continue set the read goes on at the
cursor, and STATE is the answer where that is empty; region and offset are ignored then, so values out of their ranges are not
refused (log 42). -/
def Obligations.TableReadReturnsContent : Prop :=
  (∀ (s : State) (count : Nat) (x : List Byte), 1 ≤ count → count ≤ 40 → x.length = 3 →
    s.asks (8 :: (x ++ [byte count, 1])) → s.live.mgmt.tableCursor = none →
    exec .tableRead s = .next (s.answered 8 s.tables s.taking .state []))
  ∧ ∀ (s : State) (n : RegionName) (offset count : Nat) (x : List Byte), 1 ≤ count → count ≤ 40 → offset ≤ 8191 →
    (s.asks [8, byte (regionCode n), byte (offset / 256), byte offset, byte count, 0]
      ∨ (s.asks (8 :: (x ++ [byte count, 1])) ∧ x.length = 3 ∧ s.live.mgmt.tableCursor = some (n, offset))) →
    let content := (s.tables.get n).content
    let bytes := (content.drop offset).take count
    let refused := fun (y : Status) => Host.Outcome.next (s.answered 8 s.tables s.taking y [])
    ((s.tables.get n).state ≠ .valid → exec .tableRead s = refused .state)
      ∧ ((s.tables.get n).state = .valid → content.length ≤ offset → exec .tableRead s = refused .notFound)
      ∧ ((s.tables.get n).state = .valid → offset < content.length → exec .tableRead s = .next (s.answered 8 s.tables
          { s.taking with mgmt := { s.taking.mgmt with tableCursor := some (n, offset + bytes.length) } } .ok
          (byte (regionCode n) :: (be16 offset ++ byte bytes.length :: bytes))))

/-- RECORD_READ (R37): STATE for a FREE slot, NOT_FOUND for an axle the record does not have, and else the item, which the slot's
cursor records. With next clear the item is the one named, which is in its range. With next set it is the one after that last read;
the item byte is ignored then, so a value out of its range is not refused (log 42). -/
def Obligations.RecordReadReturnsAnItem : Prop :=
  ∀ (s : State) (i : Fin 4) (item : Nat) (next : Bool), s.asks [9, byte (i.val + 1), byte item, if next then 1 else 0] →
    item ≤ 11 ∨ next = true → RecordLaw s.live →
    let x := s.live.records.slots.get i
    let cursor := s.live.mgmt.recordCursor.get i
    let refused := fun (y : Status) => Host.Outcome.next (s.answered 9 s.tables s.taking y [])
    let returned := fun (k : Nat) (content : List Byte) => Host.Outcome.next (s.answered 9 s.tables
      { s.taking with mgmt := { s.taking.mgmt with recordCursor := s.taking.mgmt.recordCursor.set i (some k) } } .ok
      (byte (i.val + 1) :: byte k :: content))
    (x.state = .free → exec .recordRead s = refused .state)
      ∧ ∀ r, x.record = some r →
          (∀ k, (if next then cursor = none ∧ k = 0 else item = 0 ∧ k = 0) →
              exec .recordRead s = returned k (headerItem x.state r))
        ∧ (∀ k a, (if next then cursor = some (k - 1) ∧ 1 ≤ k ∧ k ≤ r.axles.length else item = k) → 1 ≤ k → k ≤ 10 →
              r.axle? k = some a → exec .recordRead s = returned k (axleItem a))
        ∧ ((if next then (∃ k, cursor = some k ∧ r.axles.length ≤ k ∧ k ≤ 10) else item = 11) →
              exec .recordRead s = returned 11 (totalsItem r))
        ∧ ((if next then cursor = some 11 else 1 ≤ item ∧ item ≤ 10 ∧ r.axle? item = none) →
              exec .recordRead s = refused .notFound)

/-- LANE_RESET (R18, R38, R54, R75, R104, R122, R142, R162, R173): always accepted; its reply names the abandoned load's region
and the aborted record's slot. The up queue loses its mirror-class frames and the down queue its host frames, started ones apart;
what the reset makes stands behind what stays in the up queue, and joins the down queue without moving its head, putting what
stays in another order or being a host frame. Where no change of a station's state ends a step, or a record is OPEN and no capture
runs, the prompts without links leave the prompt queue, and with their last link those linked to removed entries, and no other.
Kept are the tables but the load, line levels, mode, window, cursors, the print queue and the composer; the bad-frame counts with
their window and LINK_NOISE; the latest values, counts, outside, silent and guard flags of steering; tare offsets, ages and staleness,
the drive-fault flags, the last side-slip, and, where no capture runs, held DRIVE frames, if they did not enter the down queue, and
the load histories of a station that is not left OFFLINE by it and was not FAULTED while unseated. The LOCK entries alone are left; the gap queues, bindings and the sequencer are emptied; no drum is driven;
every auto-tare bar and raised flag is clear and every running silence timer is at 0. That a head frame counts as started is log 6,
and that the freed places go to waiting frames first is log 38. -/
def Obligations.LaneResetReturnsToAKnownState : Prop :=
  ∀ s : State, s.asks [10] → RecordLaw s.live →
    let old := s.live
    let locked := old.faults.any (·.action == .lock)
    ∃ l, exec .laneReset s = .next (s.answered 10 s.tables.abandon l .ok
          [byte ((s.tables.load.map fun c => regionCode c.region).getD 0xFF),
            byte ((old.openSlot.map fun i => i.val + 1).getD 0)])
      ∧ (s.tables.load = none → s.tables.abandon = s.tables)
      ∧ (∀ c, s.tables.load = some c →
          LoadStep s.tables c.region { state := .invalid, content := [] } none s.tables.abandon)
      ∧ l.lines = old.lines ∧ l.mode = old.mode ∧ l.printer = old.printer
      ∧ { l.mgmt with sticky := old.mgmt.sticky } = s.taking.mgmt
      ∧ l.faults.Sublist old.faults ∧ (∀ e, e ∈ l.faults ↔ e ∈ old.faults ∧ e.action ≠ .hold ∧ e.action ≠ .stop)
      ∧ l.seq = { Seq.reset with state := if locked then .locked else .standby }
      ∧ (∃ made, l.chain.up = old.chain.up.take 1 ++ (old.chain.up.drop 1).filter (fun f => !f.mirror) ++ originated made)
      ∧ (let kept := old.chain.down.take 1 ++ (old.chain.down.drop 1).filter (fun f => f.source != .host)
         kept.Sublist l.chain.down ∧ (∀ h, kept.head? = some h → l.chain.down.head? = some h)
          ∧ (l.chain.down.filter fun f => f.source == .host) = kept.filter fun f => f.source == .host)
      ∧ (old.seqApart ∨ (old.openSlot ≠ none ∧ old.ra.capture = none ∧ old.rb.capture = none) →
          l.guide.queue = old.guide.queue.filterMap fun e =>
            let left := e.links.filter fun k =>
              !old.faults.any fun f => (f.action == .hold || f.action == .stop) && f.is k.1 k.2
            if left.isEmpty then none else some { e with links := left })
      ∧ l.tracker = .reset
      ∧ (∀ i, l.slotState i = if old.openSlot = some i then .aborted else old.slotState i)
      ∧ l.chain.badUp = old.chain.badUp ∧ l.chain.badDown = old.chain.badDown ∧ l.chain.noise = old.chain.noise
      ∧ l.chain.windowTimer = old.chain.windowTimer
      ∧ l.steer = { old.steer with
          guardRaised := false
          channels := old.steer.channels.map fun c =>
            { c with windowRaised := false, silenceRaised := false, silence := c.silence.map fun _ => 0 } }
      ∧ (∀ st, (l.tare st).bar = false
          ∧ { l.tare st with bar := (old.tare st).bar, context := (old.tare st).context } = old.tare st)
      ∧ l.ps.lastSlip = old.ps.lastSlip
      ∧ (∀ r, (l.roller r).state.driven = false ∧ (l.roller r).driveFault = (old.roller r).driveFault)
      ∧ (old.ra.capture = none → old.rb.capture = none → ∀ r,
          ((old.roller r).state.driven = false → (l.roller r).heldDrive = (old.roller r).heldDrive
              ∨ ∃ f, (old.roller r).heldDrive = some f ∧ (l.roller r).heldDrive = none
                  ∧ { source := .drive, frame := f } ∈ l.chain.down)
            ∧ ((old.roller r).state = .offline ∨ (l.roller r).state ≠ .offline →
                ((old.roller r).state = .faulted → (old.roller r).seated = true) →
                (l.roller r).histL = (old.roller r).histL ∧ (l.roller r).histR = (old.roller r).histR
                  ∧ (l.roller r).seated = (old.roller r).seated))
      ∧ (old.ra.capture = none → old.rb.capture = none → ∀ st,
          (old.stationState st ∈ [.idle, .settling, .seated, .releasing, .offline] → l.stationState st = old.stationState st)
            ∧ ((old.stationState st).driven = true → l.stationState st = .releasing ∨ st = .ps)
            ∧ (old.stationState st = .taring → (l.tare st).context = none ∧ l.stationState st =
                if (old.tare st).context.map (·.service) = some true then .offline else .idle)
            ∧ (st = .ps → old.stationState st = .crossing → l.stationState st = .idle)
            ∧ (old.stationState st = .faulted → locked = true → s.tables.present st = true → l.stationState st = .faulted)
            ∧ (old.stationState st = .faulted → locked = false ∨ s.tables.present st = false →
                l.stationState st ∈ [.idle, .settling, .offline]))

/-- UP_FLUSH (R13): the head frame, which counts as started from the moment it stands there (log 6), and the originated frames
stay; the freed places go to the pending RESULT frames, which R12 offers them to without naming what freed them (log 38); and the
reply carries the number of frames removed, which is at most 24 as the law of the mirror trip level has it. -/
def Obligations.UpFlushRemovesTheMirrors : Prop :=
  ∀ s : State, s.asks [11] → mirrorCount s.live.chain.up ≤ 24 →
    let up := s.live.chain.up
    let stay := up.take 1 ++ (up.drop 1).filter (fun f => !f.mirror)
    let removed := mirrorCount (up.drop 1)
    let results := s.live.records.pendingResults
    let room := 32 - stay.length
    let l : Live := { s.taking with
      chain := { s.live.chain with up := stay ++ originated ((results.take room).map (·.2)) }
      records := { s.live.records with pendingResults := results.drop room } }
    exec .upFlush s = .next (s.answered 11 s.tables l .ok [byte removed]) ∧ removed ≤ 24
      ∧ stay.length + removed = up.length
      ∧ (removed = 0 → up.length = 32 → exec .upFlush s = .next (s.withLive
          { s.taking with mgmt := { s.taking.mgmt with reply := some (replyFrame 11 .ok [0]) } }))

/-! ## The record store -/

/-- VEHICLE_BEGIN (R115, R127): refused with STATE, FULL, INVALID_TABLE, LOCKED or, in AUTO mode, ARG, in this order; else the
first FREE slot becomes OPEN with the record, and in AUTO mode the sequencer begins. -/
def Obligations.VehicleBeginOpensTheFirstFreeSlot : Prop :=
  ∀ (s : State) (r : VehicleRecord), Opening r → s.asks (12 :: beginArgs r) →
    let T := s.tables
    let l := s.live
    let refused := fun (x : Status) => exec .vehicleBegin s = .next (s.answered 12 T s.taking x [])
    let free := l.openSlot = none ∧ l.mode ≠ .service
    let valid := T.valid .lane = true ∧ T.valid .channels = true ∧ T.valid .segments = true ∧ T.valid .limits = true
      ∧ (l.mode = .auto → T.valid .plans = true)
    let planned := ∃ n, r.plan = some n ∧ n < T.planCount ∧ (T.plan n).cls = r.cls
    let opened := fun (i : Fin 4) (r : VehicleRecord) (q : Seq) => exec .vehicleBegin s = .next (s.answered 12 T
      { s.taking with
        records := { l.records with slots := l.records.slots.set i { state := .opened, record := some r } }
        mgmt := { s.taking.mgmt with recordCursor := l.mgmt.recordCursor.set i none }
        seq := q } .ok [byte (i.val + 1)])
    (¬ free → refused .state)
      ∧ (free → (∀ i, l.slotState i ≠ .free) → refused .full)
      ∧ ∀ i, free → firstFree l i →
          (¬ valid → refused .invalidTable)
        ∧ (valid → l.level = 3 → refused .locked)
        ∧ (valid → l.level ≠ 3 → l.mode = .auto → ¬ planned → refused .arg)
        ∧ (valid → l.level ≠ 3 → l.mode = .auto → planned →
            opened i r { Seq.reset with state := if l.level = 2 then .paused else .running })
        ∧ (valid → l.level ≠ 3 → l.mode = .manual → opened i { r with plan := none } l.seq)

/-- VEHICLE_CLOSE (R88, R116, R117, R119, R120, R127, R148): STATE without an OPEN record. Else every axle is DONE with the
verdict of its parts as they then stand, totals, verdict and check code are those of the axles, FORCED is set, the slot is CLOSED
and, with auto-print, queued; the RESULT frames of the axles and of the vehicle are made; the gap queues and the sequencer are
empty; nothing else of the header changes, nor any other slot. -/
def Obligations.VehicleCloseJudgesTheRecord : Prop :=
  ∀ s : State, s.asks [13] → RecordLaw s.live →
    (s.live.openSlot = none → exec .vehicleClose s = .next (s.answered 13 s.tables s.taking .state []))
      ∧ ∀ i r, s.live.openSlot = some i → s.live.openRecord = some r →
          ∃ l, exec .vehicleClose s = .next (s.answered 13 s.tables l .ok [byte (i.val + 1)])
            ∧ RecordClosed s.tables i { r with forced := true } s.live l

/-- The totals, the vehicle verdict and the check code of a closed record (R117): computed from its axles, the check code over the
record as it then stands, and no other field changed. What they are computed by: the verdict of a part as its values are written
(R144, R145, R147), of an axle (R148), the efficiencies (R149), the verdict of the vehicle (R150), each the first of its list that
applies, and the bytes that the check code covers (R193). -/
def Obligations.ClosedRecordCarriesItsTotalsAndCheckCode : Prop :=
  (∀ (rows : List LimitRow) (r : VehicleRecord), r.checkCode = none → r.verdict = .absent →
    let f := finishRecord rows r
    f.totalLoad = totalLoad r.axles ∧ f.serviceEff = efficiency rows r.cls .service r.axles
      ∧ f.parkingEff = efficiency rows r.cls .parking r.axles
      ∧ f.verdict = vehicleVerdict rows { f with verdict := .absent, checkCode := none }
      ∧ f.checkCode = some (checkCode { f with checkCode := none })
      ∧ { f with totalLoad := r.totalLoad, serviceEff := r.serviceEff, parkingEff := r.parkingEff, verdict := .absent,
                 checkCode := none } = r
      ∧ (totalLoad r.axles = none ↔ r.axles = [] ∨ ∃ a ∈ r.axles, a.load.values = none)
      ∧ (∀ t, totalLoad r.axles = some t → t = (r.axles.map fun a => (a.load.values.map (·.axle)).getD 0).sum))
  ∧ (∀ (rows : List LimitRow) (cls : Nat) (a : AxleRecord),
    let row := rows.find? fun w => (w.cls == none || w.cls == some cls) && (w.applies == .any || w.applies == .kind a.kind)
    let field := fun (w : Option LimitRow) (i : Nat) (m : Option Nat) =>
      match w.bind (·.fields[i]?), m with
      | some f, some v => judgeField f v
      | _, _ => .pass
    let part := fun (results : List FieldResult) (stale : Bool) =>
      if .fail ∈ results then Verdict.fail else if stale then .unverified
      else if .advisory ∈ results then .advisory else .pass
    let imbalance := fun (l r : Nat) => if l = 0 ∧ r = 0 then 0 else 1000 * (max l r - min l r) / max l r
    let fraction := fun (l r : Nat) => match a.load.values with
      | some v => if v.axle * 981 / 1000 = 0 then none else some (1000 * (l + r) / (v.axle * 981 / 1000))
      | none => none
    let verdicts := [a.plate.verdict, a.load.verdict, a.service.verdict, a.parking.verdict, a.ovality.verdict, a.aux.verdict]
    let held := [a.plate.values.isSome, a.load.values.isSome, a.service.values.isSome, a.parking.values.isSome,
      a.ovality.values.isSome, a.aux.values.isSome]
    let missing := (∃ (w : LimitRow) (i : Nat), row = some w ∧ w.required / 2 ^ i % 2 = 1 ∧ verdicts[i]? = some .absent)
      ∨ ∀ b ∈ held, b = false
    let axle := axleVerdict rows cls a
    (∀ stale, loadVerdict stale = part [] stale)
      ∧ (∀ stale v, plateVerdict rows cls a.kind stale v = part [field row 2 (some v.slip.natAbs)] stale)
      ∧ (∀ (override : Option Nat) (stale : Bool) (v : BrakeResult),
          let w := match override.bind (rows[·]?) with
            | some x => if x.applies = .vehicle then row else some x
            | none => row
          let judged := fun (p : BrakePart) => brakeVerdict rows cls a p override stale v
          let even := field w 0 (some (imbalance v.peakL v.peakR))
          judged .service = part [even, field w 3 (fraction v.peakL v.peakR)] stale ∧ judged .parking = part [even] stale
            ∧ judged .ovality = part [field w 1 v.ovalityL, field w 1 v.ovalityR] stale
            ∧ judged .aux = part [even, field w 1 v.ovalityL, field w 1 v.ovalityR] stale)
      ∧ (.fail ∈ verdicts → axle = .fail)
      ∧ (.fail ∉ verdicts → missing → axle = .incomplete)
      ∧ (.fail ∉ verdicts → ¬ missing → .unverified ∈ verdicts → axle = .unverified)
      ∧ (.fail ∉ verdicts → ¬ missing → .unverified ∉ verdicts → .advisory ∈ verdicts → axle = .advisory)
      ∧ (.fail ∉ verdicts → ¬ missing → .unverified ∉ verdicts → .advisory ∉ verdicts → axle = .pass))
  ∧ (∀ (rows : List LimitRow) (cls : Nat) (p : BrakePart) (axles : List AxleRecord) (t : Nat), totalLoad axles = some t →
    let row := fun (a : AxleRecord) => rows.find? fun w =>
      (w.cls == none || w.cls == some cls) && (w.applies == .any || w.applies == .kind a.kind)
    let bit := match p with | .service => 2 | .parking => 3 | .ovality => 4 | .aux => 5
    let lacks := ∃ a ∈ axles, (a.brake p).values = none ∧ ∃ w, row a = some w ∧ w.required / 2 ^ bit % 2 = 1
    let none' := ∀ a ∈ axles, (a.brake p).values = none
    let force := (axles.map fun a => ((a.brake p).values.map fun v => v.peakL + v.peakR).getD 0).sum
    (t * 981 / 1000 = 0 ∨ lacks ∨ none' → efficiency rows cls p axles = none)
      ∧ (t * 981 / 1000 ≠ 0 → ¬ lacks → ¬ none' →
          efficiency rows cls p axles = some (min 65534 (1000 * force / (t * 981 / 1000)))))
  ∧ (∀ (rows : List LimitRow) (cls : Nat) (p : BrakePart) (axles : List AxleRecord), totalLoad axles = none →
    efficiency rows cls p axles = none)
  ∧ (∀ (rows : List LimitRow) (r : VehicleRecord),
    let row := rows.find? fun w => w.applies == .vehicle && (w.cls == none || w.cls == some r.cls)
    let judged := fun (i : Nat) (m : Option Nat) (x : FieldResult) =>
      ∃ w f v, row = some w ∧ w.fields[i]? = some f ∧ m = some v ∧ judgeField f v = x
    let unmeasured := fun (i : Nat) (m : Option Nat) =>
      ∃ w f, row = some w ∧ w.fields[i]? = some f ∧ f.mode ≠ .unused ∧ m = none
    let some' := fun (x : Verdict) => ∃ a ∈ r.axles, a.verdict = x
    let fails := some' .fail ∨ judged 4 r.serviceEff .fail ∨ judged 5 r.parkingEff .fail
    let short := some' .incomplete ∨ unmeasured 4 r.serviceEff ∨ unmeasured 5 r.parkingEff ∨ r.axles.length < r.expected
    let warns := some' .advisory ∨ judged 4 r.serviceEff .advisory ∨ judged 5 r.parkingEff .advisory
    let vehicle := vehicleVerdict rows r
    (fails → vehicle = .fail) ∧ (¬ fails → short → vehicle = .incomplete)
      ∧ (¬ fails → ¬ short → some' .unverified → vehicle = .unverified)
      ∧ (¬ fails → ¬ short → ¬ some' .unverified → warns → vehicle = .advisory)
      ∧ (¬ fails → ¬ short → ¬ some' .unverified → ¬ warns → vehicle = .pass))
  ∧ ∀ r : VehicleRecord,
    let text := fun (t : Option (List Byte)) => byte (t.getD []).length :: t.getD []
    let flags := fun (l : List Bool) => byte ((l.zipIdx.map fun b => if b.1 then 2 ^ b.2 else 0).sum)
    let head := fun (f : PartFlags) (present : Bool) (repeats : Nat) (x : Verdict) =>
      [flags [f.stale, f.joint, f.repeated, f.interrupted, f.timedOut, f.skipped, f.manual, present], byte repeats,
        byte (verdictCode x)]
    let opt := fun (n : Option Nat) => be16 (n.getD 0xFFFF)
    let brake := fun (p : Machine.Part BrakeResult) => head p.flags p.values.isSome p.repeats p.verdict
      ++ (match p.values with
        | some v => [byte (testKindCode v.testKind), byte (endReasonCode v.endReason)] ++ be16 v.forceCount ++ be16 v.peakL
            ++ be16 v.peakR ++ opt v.pedalL ++ opt v.pedalR ++ opt v.ovalityL ++ opt v.ovalityR ++ [flags [v.lockupL, v.lockupR]]
        | none => [])
    let axle := fun (a : AxleRecord) => [byte a.index, byte (axleKindCode a.kind), byte (verdictCode a.verdict)]
      ++ head a.plate.flags a.plate.values.isSome a.plate.repeats a.plate.verdict
      ++ (match a.plate.values with | some v => beSigned16 v.peak ++ beSigned16 v.slip | none => [])
      ++ head a.load.flags a.load.values.isSome a.load.repeats a.load.verdict
      ++ (match a.load.values with | some v => be16 v.left ++ be16 v.right ++ be16 v.axle | none => [])
      ++ brake a.service ++ brake a.parking ++ brake a.ovality ++ brake a.aux
    checkCode r = crc16 ([byte r.cls, byte (r.plan.getD 0xFF), byte r.expected, byte r.axles.length,
        flags [r.forced, r.rollerOnly]]
      ++ r.kinds.map (fun k => byte (axleKindCode k)) ++ text r.ident ++ text r.date ++ text r.operator
      ++ r.axles.flatMap axle ++ be32 (r.totalLoad.getD 0xFFFFFFFF) ++ opt r.serviceEff ++ opt r.parkingEff
      ++ [byte (verdictCode r.verdict)])

/-- VEHICLE_ABORT (R88, R118, R119, R120, R127): STATE without an OPEN record. Else every axle is DONE, no verdict is left, the
slot is ABORTED, the vehicle's RESULT is made, and the gap queues and the sequencer are empty. -/
def Obligations.VehicleAbortLeavesNoVerdict : Prop :=
  ∀ s : State, s.asks [14] → RecordLaw s.live →
    (s.live.openSlot = none → exec .vehicleAbort s = .next (s.answered 14 s.tables s.taking .state []))
      ∧ ∀ i r, s.live.openSlot = some i → s.live.openRecord = some r →
          ∃ l, exec .vehicleAbort s = .next (s.answered 14 s.tables l .ok [byte (i.val + 1)]) ∧ RecordAborted i r s.live l

/-- RECORD_RELEASE, PRINT and PRINT_CANCEL of a slot (R121, R179, R180, R187, R23). A slot is released only when it is neither
queued nor has a RESULT pending, then only when it is neither FREE nor OPEN; printed only when CLOSED or ISSUED, then only
when not queued; cancelled only when queued, a job under way for it being abandoned. That a line that stays TAKEN keeps its
handshake timer is the model's reading (log 56). -/
def Obligations.SlotRequestsAreJudged : Prop :=
  ∀ (s : State) (i : Fin 4),
    let l := s.live
    let x := l.slotState i
    let p := l.printer
    let rest := p.queue.filter fun e => e.slot != i
    let answer := fun (c : Instr) (code : Byte) (m : Live) (y : Status) (d : List Byte) =>
      exec c s = .next (s.answered code s.tables m y d)
    let sticky := { l.mgmt.sticky with composerFree := l.mgmt.sticky.composerFree || rest.isEmpty }
    let left := fun (q : Printer) => { s.taking with
      printer := { q with queue := rest }, mgmt := { s.taking.mgmt with sticky := sticky } }
    (s.asks [15, byte (i.val + 1)] →
        (inPrintQueue l i ∨ resultWaits l i → answer .recordRelease 15 s.taking .busy [])
          ∧ (¬ inPrintQueue l i → ¬ resultWaits l i → x = .free ∨ x = .opened →
              answer .recordRelease 15 s.taking .state [])
          ∧ (¬ inPrintQueue l i → ¬ resultWaits l i → x ≠ .free → x ≠ .opened → answer .recordRelease 15
              { s.taking with
                records := { l.records with slots := l.records.slots.set i { state := .free, record := none } }
                mgmt := { s.taking.mgmt with recordCursor := l.mgmt.recordCursor.set i none } } .ok [byte (i.val + 1)]))
      ∧ (s.asks [22, byte (i.val + 1)] →
          (x ≠ .closed → x ≠ .issued → answer .print 22 s.taking .state [])
            ∧ (x = .closed ∨ x = .issued → inPrintQueue l i → answer .print 22 s.taking .busy [])
            ∧ (x = .closed ∨ x = .issued → ¬ inPrintQueue l i → answer .print 22
                { s.taking with printer := { p with queue := p.queue ++ [{ slot := i, restarts := 0 }] } } .ok
                [byte (p.queue.length + 1)]))
      ∧ (s.asks [23, byte (i.val + 1)] →
          (¬ inPrintQueue l i → answer .printCancel 23 s.taking .notFound [])
            ∧ (inPrintQueue l i → (p.queue.head?.map (·.slot) ≠ some i ∨ (p.composer ≠ .composing ∧ p.composer ≠ .draining)) →
                answer .printCancel 23 (left p) .ok [])
            ∧ (p.queue.head?.map (·.slot) = some i → p.composer = .composing ∨ p.composer = .draining →
                answer .printCancel 23 (left { p with
                  bandReq := false, line := if l.lines.bandAck then .taken else .idle
                  timer := if l.lines.bandAck then p.timer else none, bufA := .free, bufB := .free
                  voidDue := true, job := none, composer := .idle }) .ok []))

/-! ## The stations -/

/-- SPIN of a roller station (R61, R62, R63, R64, R69, R101, R172). A SEATED one with no silent channel, while the sequencer
waits on nothing, becomes SPINNING: DRIVE START is made, the spin timer starts, the ready counts are 0, the bar focus moves, and
the LOAD part of the bound axle is written from the load histories if it is absent and both have values. -/
def Obligations.SpinStartsTheDrums : Prop :=
  ∀ (s : State) (r : Roller), s.asks [16, byte (stationCode (some (stationOf r))), 0] →
    let x := s.live.roller r
    let answer := fun (m : Live) (y : Status) (d : List Byte) => exec .stationSpin s = .next (s.answered 16 s.tables m y d)
    (s.live.mode = .auto → answer s.taking .state [])
      ∧ (s.live.mode ≠ .auto → 2 ≤ s.live.level → answer s.taking .locked [])
      ∧ (s.live.mode ≠ .auto → s.live.level < 2 →
          (x.state.driven = true → answer s.taking .ok [byte (stationStateCode x.state)])
          ∧ (x.state ∈ [.settling, .releasing, .taring] → answer s.taking .busy [])
          ∧ (x.state = .faulted → answer s.taking .locked [])
          ∧ (x.state ∈ [.idle, .offline] → answer s.taking .state [])
          ∧ (x.state = .seated → s.live.noneSilent → s.live.seqFree → ∃ l, answer l .ok [3]
              ∧ Quiet s.taking l ∧ OnlyRoller r s.live l ∧ l.seq = s.live.seq ∧ DriveMade s.tables r true s.live l
              ∧ Entered x (l.roller r) .spinning (some 0) none none
              ∧ (l.roller r).readyL = 0 ∧ (l.roller r).readyR = 0 ∧ l.guide.focus = some r
              ∧ ∀ k a, s.live.bound (stationOf r) = some k → s.live.axle? k = some a →
                  (a.load.values = none → x.histL ≠ [] → x.histR ≠ [] → ∃ b, l.axle? k = some b
                      ∧ b.load.values = some { left := historyMean x.histL, right := historyMean x.histR,
                                               axle := historyMean x.histL + historyMean x.histR }
                      ∧ b.load.flags.stale = x.tare.stale ∧ { b with load := a.load } = a)
                    ∧ (a.load.values ≠ none ∨ x.histL = [] ∨ x.histR = [] → l.axle? k = some a)))

/-- CAPTURE of a roller station (R61, R62, R77, R78, R79, R90, R141), its argument bytes in the layout of a CAPTURE record: STATE
in AUTO mode; ARG for settings that fail a check; a station that is not READY answers by its state. An accepted one enters
MEASURING with a fresh context, a joint one on both stations, held by RA; a fresh one has its timer at 0, the pedal absent and every
reduction at its start. In MANUAL mode with a record OPEN it carries MANUAL, and REPEATED where the target part holds values; that a
joint capture looks at RA's axle for this is the model's choice (log 29). SPIN, CAPTURE and RELEASE naming PS are refused with ARG
(R62, R73). -/
def Obligations.CaptureBeginsToMeasure : Prop :=
  (∀ (s : State) (r : Roller) (b : List Byte) (part row : Byte), b.length = 6 → rd b 0 % 4 ≠ 3 →
      s.asks (16 :: byte (stationCode (some (stationOf r))) :: 1 :: (b ++ [part, row])) →
      let code := fun (n : Byte) => if n.toNat = 0xFF then none else some n.toNat
      let valid := captureSettingsValid b (code part) (code row)
      let c := captureSettings b ((code part).map brakePartOfCode) (code row)
      let x := s.live.roller r
      let answer := fun (m : Live) (y : Status) (d : List Byte) => exec .stationCapture s = .next (s.answered 16 s.tables m y d)
      let measuring := fun (y : RollerStation) (k : Option Capture) => { y with
        state := .measuring, settleTimer := none, spinTimer := none, readyTimer := none, releaseTimer := none, capture := k }
      (s.live.mode = .auto → answer s.taking .state [])
        ∧ (s.live.mode ≠ .auto → valid = false → answer s.taking .arg [])
        ∧ (s.live.mode ≠ .auto → valid = true →
            (c.joint = false → x.state = .measuring → answer s.taking .busy [])
            ∧ (c.joint = false → x.state = .faulted → answer s.taking .locked [])
            ∧ (c.joint = false → x.state ∉ [.ready, .measuring, .faulted] → answer s.taking .state [])
            ∧ (c.joint = true → s.live.ra.state ≠ .ready ∨ s.live.rb.state ≠ .ready → answer s.taking .state [])
            ∧ (s.live.noneSilent → s.live.seqFree → ∃ m : Marks,
                let k := Capture.start c m s.live.nextStart
                let begun := { s.taking with nextStart := s.live.nextStart + 1 }
                m.manual = (s.live.mode == .manual && s.live.openRecord.isSome)
                  ∧ (m.repeated = true ↔ m.manual = true ∧ ∃ j a, s.live.bound (stationOf (holderOf c r)) = some j
                      ∧ s.live.axle? j = some a ∧ (a.brake c.part).values ≠ none)
                  ∧ (c.joint = false → x.state = .ready → answer (begun.setRoller r (measuring x (some k))) .ok [5])
                  ∧ (c.joint = true → s.live.ra.state = .ready → s.live.rb.state = .ready → answer
                      { begun with ra := measuring s.live.ra (some k), rb := measuring s.live.rb s.live.rb.capture } .ok [5]))))
  ∧ (∀ (c : CaptureSettings) (m : Marks) (n : Nat),
        let k := Capture.start c m n
        k.settings = c ∧ k.marks = m ∧ k.startOrder = n ∧ k.timer = 0 ∧ k.pedal = none ∧ k.endReason = none
          ∧ ∀ x ∈ [k.left, k.right, k.rbLeft, k.rbRight], x.peak = 0 ∧ x.pedalAtPeak = none ∧ x.count = 0 ∧ x.minimum = none
              ∧ x.maximum = none ∧ x.lockupRun = 0 ∧ x.lockup = false)
  ∧ ∀ (s : State) (b : List Byte), b.length = 8 →
      (s.asks [16, 0, 0] → exec .stationSpin s = .next (s.answered 16 s.tables s.taking .arg []))
        ∧ (s.asks (16 :: 0 :: 1 :: b) → exec .stationCapture s = .next (s.answered 16 s.tables s.taking .arg []))
        ∧ (s.asks [16, 0, 2] → exec .stationRelease s = .next (s.answered 16 s.tables s.taking .arg []))

/-- RELEASE of a roller station (R61, R62, R67, R69, R87 to R89, R92): a driven one becomes RELEASING, DRIVE STOP is made and the
release timer starts; a MEASURING one ends its capture with RELEASED, both stations of a joint one; OFFLINE answers STATE, any
other state OK. -/
def Obligations.ReleaseStopsTheDrums : Prop :=
  ∀ (s : State) (r : Roller), s.asks [16, byte (stationCode (some (stationOf r))), 2] →
    let x := s.live.roller r
    let answer := fun (m : Live) (y : Status) (d : List Byte) =>
      exec .stationRelease s = .next (s.answered 16 s.tables m y d)
    (s.live.mode = .auto → answer s.taking .state [])
      ∧ (s.live.mode ≠ .auto →
          (x.state = .offline → answer s.taking .state [])
          ∧ (x.state.driven = false → x.state ≠ .offline → answer s.taking .ok [byte (stationStateCode x.state)])
          ∧ (x.state = .spinning ∨ x.state = .ready → s.live.seqFree → ∃ l, answer l .ok [6] ∧ Quiet s.taking l
              ∧ OnlyRoller r s.live l ∧ l.seq = s.live.seq ∧ DriveMade s.tables r false s.live l
              ∧ Entered x (l.roller r) .releasing none none (some 0))
          ∧ (∀ h k, x.state = .measuring → s.live.captureHolder r = some h → (s.live.roller h).capture = some k →
              ∃ l, answer l .ok [6] ∧ CaptureAborted h k .released .releasing s.taking l))

/-- TARE of a station (R56, R61, R62, R73, R95, R96, R102): an IDLE station, and in SERVICE mode a present OFFLINE one, becomes
TARING with a fresh context over its tared channels, and its auto-tare bar is clear; without tared channels it completes at once.
That such a tare has no silent entry judged is the model's choice (log 58). -/
def Obligations.TareBeginsAtRest : Prop :=
  ∀ (s : State) (st : Station), s.asks [16, byte (stationCode (some st)), 3] →
    let x := s.live.stationState st
    let t := s.live.tare st
    let service := x == .offline
    let begins := x = .idle ∨ (x = .offline ∧ s.live.mode = .service ∧ s.tables.present st = true)
    let answer := fun (m : Live) (y : Status) (d : List Byte) => exec .stationTare s = .next (s.answered 16 s.tables m y d)
    (s.live.mode = .auto → answer s.taking .state [])
      ∧ (s.live.mode ≠ .auto →
          (x = .taring → answer s.taking .ok [7])
          ∧ (x = .faulted → answer s.taking .locked [])
          ∧ (¬ begins → x ≠ .taring → x ≠ .faulted → answer s.taking .state [])
          ∧ (begins → s.live.noneSilent → s.live.seqFree → tareChannels s.tables st ≠ [] →
              answer (Live.putState st .taring (s.taking.setTare st { t with
                context := some { service := service, channels := tareChannels s.tables st }, bar := false })) .ok [7])
          ∧ (begins → s.live.seqFree → tareChannels s.tables st = [] → ∃ l, Quiet { s.taking with
                faults := s.live.faults.map fun e => if e.is .tareStale (.station st) then { e with present := false } else e } l
              ∧ answer l .ok [byte (stationStateCode (if service then .offline else .idle))]
              ∧ l.stationState st = (if service then .offline else .idle)
              ∧ l.tare st = { t with age := some 0, ageMs := 0, stale := false, bar := false, context := none }))

/-! ## The fault action unit and the guidance unit -/

/-- CLEAR_FAULT of a station's scope or of all (R157, R159). The HOLD entries it judges go where their condition has ended; the
reply is OK with their number, or STATE naming the first that remains. A FAULTED station that no entry covers any more leaves
FAULTED, and no other station changes state. -/
def Obligations.ClearFaultRemovesEndedHolds : Prop :=
  ∀ (s : State) (o : Option Station), s.asks [17, byte (stationCode o)] →
    let judged : FaultEntry → Bool := fun e =>
      e.action == .hold && (match o with | some st => e.scope == .station st | none => true)
    let gone : FaultEntry → Bool := fun e => judged e && !e.present
    let n := byte (s.live.faults.countP gone)
    ∃ l, ReleasedAfter s.tables gone s.taking l
      ∧ ((∀ e ∈ s.live.faults, judged e = true → e.present = false) →
          exec .clearFault s = .next (s.answered 17 s.tables l .ok [n]))
      ∧ (∀ e, s.live.faults.find? (fun d => judged d && d.present) = some e → exec .clearFault s =
          .next (s.answered 17 s.tables l .state [byte (sourceCode e.source), byte (scopeCode e.scope), n]))

/-- RESUME (R132, R134, R136, R157, R160). STOP entries whose condition has ended go; while one remains the reply is STATE naming
the first, and the sequencer is as it was with its pause pending. Otherwise it is OK, no pause is pending any more, and with no
station FAULTED a PAUSED or HALTED sequencer is RUNNING again: a PAUSED one with a restart pending at its unit, or at the loop
start when the restart's station is unbound. That the repeat mark stays where the pending restart is itself the loop start is the
model's choice (log 59). -/
def Obligations.ResumeSetsTheSequencerRunning : Prop :=
  ∀ s : State, s.asks [18] →
    let stop : FaultEntry → Bool := fun e => e.action == .stop
    let gone : FaultEntry → Bool := fun e => stop e && !e.present
    let n := byte (s.live.faults.countP gone)
    let q := s.live.seq
    let on : Seq := { q with pausePending := false, state := .running, held := none, wait := none, awaitTimer := none }
    ∃ l, Quiet { s.taking with faults := s.live.faults.filter fun e => !gone e } l
      ∧ (∀ e, s.live.faults.find? (fun d => stop d && d.present) = some e → (exec .resume s =
          .next (s.answered 18 s.tables l .state [byte (sourceCode e.source), byte (scopeCode e.scope), n]))
        ∧ (s.live.seqFree ∨ (∀ st, s.live.stationState st ≠ .faulted) → l.seq = q))
      ∧ ((∀ e ∈ s.live.faults, e.action = .stop → e.present = false) →
          exec .resume s = .next (s.answered 18 s.tables l .ok [n])
          ∧ ((∀ st, s.live.stationState st ≠ .faulted) → Still s.live l
            ∧ (q.state = .running ∨ q.state = .waiting ∨ q.state = .held → l.seq = { q with pausePending := false })
            ∧ (q.state = .locked ∨ q.state = .standby → l.seq = q)
            ∧ (q.state = .halted ∨ (q.state = .paused ∧ q.restart = none) → l.seq = on)
            ∧ (∀ x, q.state = .paused → q.restart = some x → faultLevel l.faults ≠ 3 → l.seq =
                if s.live.bound (stationOf x.roller) = none then
                  { on with pointer := s.live.loopStart s.tables, repeatMark := none, restart := none, mods := none }
                else { on with pointer := x.unit, restart := none, mods := none })))

/-- CLEAR_LOCKOUT (R103, R135, R157, R161): STATE while ESTOP is asserted, or a LOCK entry's condition is present, or there is
no LOCK entry. An accepted one removes the LOCK entries and leaves every tare STALE and no auto-tare barred; each present station
whose tare was fresh raises TARE_STALE. Where those raises make and mark no entry, the FAULTED stations are released, and a LOCKED
sequencer is PAUSED where the OPEN record has a plan, else STANDBY. The order of the raises is the model's choice (log 54). -/
def Obligations.ClearLockoutUnlocksTheLane : Prop :=
  ∀ s : State, s.asks [19] →
    let lock : FaultEntry → Bool := fun e => e.action == .lock
    let refused := fun (d : Byte) => exec .clearLockout s = .next (s.answered 19 s.tables s.taking .state [d])
    let ended : Prop := s.live.lines.estop = false ∧ ∀ e ∈ s.live.faults, e.action = .lock → e.present = false
    let still : Bool := (s.live.openRecord.bind (·.plan)).isSome
    (s.live.lines.estop = true → refused (byte (sourceCode .estop)))
      ∧ (∀ e, s.live.lines.estop = false → s.live.faults.find? (fun d => lock d && d.present) = some e →
          refused (byte (sourceCode e.source)))
      ∧ (ended → (∀ e ∈ s.live.faults, e.action ≠ .lock) → refused 0xFF)
      ∧ (ended → s.live.faults.any lock = true → ∃ l,
          exec .clearLockout s = .next (s.answered 19 s.tables l .ok [byte (s.live.faults.countP lock)])
            ∧ (∀ st, (l.tare st).stale = true ∧ (l.tare st).bar = false)
            ∧ l.faults = stations.foldl (staleRaised s.tables s.live) (s.live.faults.filter fun e => !lock e)
            ∧ ((∀ st, (s.live.tare st).stale = true ∨ s.tables.present st = false
                  ∨ ((s.tables.actionFor .tareStale = .ignore ∨ s.tables.actionFor .tareStale = .note)
                    ∧ s.live.faults.any (·.is .tareStale (.station st)) = false)) →
                ReleasedAfter s.tables lock s.taking l
                ∧ (∀ st, (l.tare st).age = (s.live.tare st).age)
                ∧ (s.live.seq.state = .locked → l.seq = { s.live.seq with
                    state := if still then .paused else .standby, held := none, wait := none, awaitTimer := none })))

/-- PROMPT_POST (R166, R169, R170): the entry stands behind every entry of its class or higher and before the lower ones, with
the links of an entry of the same number, which it replaces. A full queue loses its oldest entry of the lowest class if that is
lower than the entry's, and otherwise refuses the post; either way EVENT PROMPT_DROPPED names the one left out. The queue holds at
most 8, as the law of the queues has it. -/
def Obligations.PromptPostKeepsTheQueueInOrder : Prop :=
  ∀ (s : State) (n : Byte), n.toNat ≤ 127 → s.asks [20, n] → s.live.guide.queue.length ≤ 8 →
    let g := s.live.guide
    let others := g.queue.filter fun x => x.number != n.toNat
    let p := s.tables.prompt? n.toNat
    let e : PromptEntry :=
      { number := n.toNat, cls := (p.map (·.cls)).getD .info, hold := (p.map (·.hold)).getD 0, stepEnd := false
        links := (g.queue.filter fun x => x.number == n.toNat).flatMap (·.links)
        arrival := g.nextArrival, fixed := s.live.slotValues s.tables }
    let posted := fun (q : List PromptEntry) (drop : Option Nat) => ∃ l m before after,
      exec .promptPost s = .next (s.answered 20 s.tables l .ok [byte (before.length + 1)])
        ∧ l.guide.queue = before ++ e :: after ∧ before ++ after = q
        ∧ (∀ x ∈ before, classRank x.cls ≤ classRank e.cls) ∧ (∀ x, after.head? = some x → classRank e.cls < classRank x.cls)
        ∧ Still s.live l ∧ Quiet s.taking l ∧ l.seq = s.live.seq ∧ l.guide.nextArrival = g.nextArrival + 1
        ∧ m.chain.up = s.live.chain.up
        ∧ l = drop.elim m fun k => m.event .promptDropped none 0 k
    (others.length < 8 → posted others none)
      ∧ ∀ d, 8 ≤ others.length → displaced others = some d →
          (classRank e.cls < classRank d.cls →
            posted (others.filter fun x => x.number != d.number) (some d.number))
            ∧ (classRank d.cls ≤ classRank e.cls → exec .promptPost s = .next (s.answered 20 s.tables
                (Live.event .promptDropped none 0 n.toNat
                  { s.taking with guide := { g with nextArrival := g.nextArrival + 1 } }) .full []))

/-- PROMPT_CLEAR (R167, R169): of all prompts, those without links go, and the reply carries their number; of one prompt,
NOT_FOUND where it does not stand in the queue and STATE where it holds a link, and otherwise it goes. -/
def Obligations.PromptClearRemovesUnlinkedPrompts : Prop :=
  ∀ (s : State) (n : Byte),
    let q := s.live.guide.queue
    let left := fun (p : List PromptEntry) (d : List Byte) => ∃ l,
      exec .promptClear s = .next (s.answered 21 s.tables l .ok d)
        ∧ l.guide.queue = p ∧ Still s.live l ∧ Quiet s.taking l ∧ l.seq = s.live.seq
    (s.asks [21, 0xFF] →
        left (q.filter fun e => !e.links.isEmpty) [byte (q.length - (q.filter fun e => !e.links.isEmpty).length)])
      ∧ (n.toNat ≤ 127 → s.asks [21, n] →
          ((∀ e ∈ q, e.number ≠ n.toNat) → exec .promptClear s = .next (s.answered 21 s.tables s.taking .notFound []))
          ∧ (∀ e, q.find? (fun x => x.number == n.toNat) = some e →
              (e.links ≠ [] → exec .promptClear s = .next (s.answered 21 s.tables s.taking .state []))
              ∧ (e.links = [] → left (q.filter fun x => x.number != n.toNat) [])))

/-- PROMPT_HOLD_EXPIRY and REFRESH_EXPIRY (R168, R171, R172). The head prompt leaves when its hold time has passed and it holds no
link, and the board is rendered with the new head, whose hold timer restarts. A refresh restarts its timer and counts to ten; it
renders the board, at the tenth with every line sent again, and then offers a bar frame of the focus station while that is READY or
MEASURING, or the closing one. Before their moment neither has an effect (log 4). -/
def Obligations.BoardTimersExpire : Prop :=
  ∀ s : State, s.awake →
    let T := s.tables
    let g := s.live.guide
    (∀ e rest t, g.queue = e :: rest → 0 < e.hold → e.links = [] → g.holdTimer = some t → e.hold * 1000 ≤ t →
        rest.head?.map (·.arrival) ≠ some e.arrival → ∃ l, exec .promptHoldExpiry s = .next (s.withLive l)
          ∧ l.guide.queue = rest ∧ l.guide.holdTimer = (if rest = [] then none else some 0) ∧ Rendered T false [] s.live l
          ∧ Still s.live l ∧ Quiet s.live l ∧ l.seq = s.live.seq)
      ∧ (∀ e rest, g.queue = e :: rest → e.hold = 0 ∨ e.links ≠ [] ∨ (∀ t, g.holdTimer = some t → t < e.hold * 1000) →
          exec .promptHoldExpiry s = .next s)
      ∧ (g.queue = [] → exec .promptHoldExpiry s = .next s)
      ∧ (∀ t, g.refreshTimer = some t → Config.refreshPeriod ≤ t → T.valid .lane = true →
          let fill := fun (r : Roller) (x : Role) =>
            byte (min 100 (((s.live.latest T (stationOf r) x).getD 0).toNat * 100 / T.settings.barScale))
          let shown : Option Roller := g.focus.filter fun r =>
            (s.live.roller r).state == .ready || (s.live.roller r).state == .measuring
          let bars := match shown with
            | some r => [boardFrame T [4, fill r .forceL, fill r .forceR]]
            | none => if g.barsShown then [boardFrame T [4, 0, 0]] else []
          ∃ l, exec .refreshExpiry s = .next (s.withLive l) ∧ l.guide.refreshTimer = some 0
            ∧ l.guide.resend = (if 10 ≤ g.resend + 1 then 0 else g.resend + 1)
            ∧ Rendered T (decide (10 ≤ g.resend + 1)) bars s.live l ∧ l.guide.barsShown = shown.isSome
            ∧ (∀ i, l.renderLine T i = s.live.renderLine T i)
            ∧ l.guide.queue = g.queue ∧ l.guide.holdTimer = g.holdTimer ∧ l.guide.focus = g.focus ∧ Still s.live l
            ∧ Quiet s.live l ∧ l.seq = s.live.seq)
      ∧ (g.refreshTimer = none ∨ (∀ t, g.refreshTimer = some t → t < Config.refreshPeriod) →
          exec .refreshExpiry s = .next s)

/-! ## The sequencer -/

/-- SEQUENCER_TAKE_UNIT, what no request is made for (R116, R117, R128, R129, R130, R131, R133, R134, R135, R140): the fault
level, a FAULTED or OFFLINE station, SEAT, AWAIT, PROMPT and ADVANCE steps, an armed skip, and the CLOSE step or the end of the
plan, which close the record without FORCED. An AWAIT of a station that is met already ends at once; AXLE_EXIT always waits. Only
a RUNNING sequencer takes a unit (log 4). -/
def Obligations.SequencerTakesItsUnit : Prop :=
  ∀ s : State, s.awake →
    let q := s.live.seq
    let level := s.live.level
    let seqIs := fun (x : Seq) => exec .sequencerTakeUnit s = .next (s.withLive { s.live with seq := x })
    (q.state ≠ .running → exec .sequencerTakeUnit s = .next s)
      ∧ (∀ p i r, q.state = .running → s.live.plan? s.tables = some p → s.live.openSlot = some i →
          s.live.openRecord = some r → RecordLaw s.live →
          p.unitAt q.pointer = none ∨ (∃ u, p.unitAt q.pointer = some u ∧ u.record = .close ∧ level < 2
            ∧ ∀ st, u.station = some st → s.live.stationState st ≠ .faulted) →
          ∃ l, exec .sequencerTakeUnit s = .next (s.withLive l) ∧ RecordClosed s.tables i r s.live l)
      ∧ ∀ p u, q.state = .running → s.live.plan? s.tables = some p → p.unitAt q.pointer = some u →
          let chosen := { q with mods := some u.mods }
          let resting := fun (x : Seq) (y : SeqState) => { x with state := y, held := none, wait := none, awaitTimer := none }
          let done := { resting q .running with pointer := u.step + 1, mods := none }
          (level = 3 → seqIs (resting q .locked)) ∧ (level = 2 → seqIs (resting q .paused))
          ∧ (level < 2 → ∀ st, u.station = some st → s.live.stationState st = .faulted →
              seqIs { resting chosen .held with held := some st })
          ∧ (level < 2 → ∀ st, u.station = some st → s.live.stationState st = .offline → u.record.needsStation = true →
              exec .sequencerTakeUnit s = .next (s.withLive (Live.event .stepHalted (some st) (s.live.boundOrZero st) u.step
                { s.live with seq := resting chosen .halted })))
          ∧ (level < 2 → (∀ st, u.station = some st → s.live.stationState st ≠ .faulted) →
              (∀ c st t h, u.record = .await c t h → u.station = some st → c = .confirm ∨ c = .delay →
                seqIs { chosen with state := .waiting, wait := some (.await c st t h), awaitTimer := some 0 })
              ∧ (∀ c st t h, u.record = .await c t h → u.station = some st → s.live.stationState st ≠ .offline →
                  c = .stationReady ∨ c = .stationSeated ∨ c = .axleExit →
                  let met := (c = .stationReady ∧ s.live.stationState st = .ready)
                    ∨ (c = .stationSeated ∧ s.live.stationState st = .seated)
                  (¬ met → seqIs { chosen with
                      state := .waiting, wait := some (.await c st t h), awaitTimer := some 0 })
                    ∧ (met → q.stepEndPrompt = none → q.pausePending = false → q.pendingRepeat = false → seqIs done))
              ∧ (∀ o st, u.record = .seat o → u.station = some st → s.live.stationState st ≠ .offline →
                  (s.live.stationState st ≠ .seated ∨ s.live.bound st = none →
                    seqIs { chosen with state := .waiting, wait := some (.seat st) })
                  ∧ (s.live.stationState st = .seated → s.live.bound st ≠ none → q.stepEndPrompt = none →
                      q.pausePending = false → q.pendingRepeat = false → seqIs done))
              ∧ (∀ n e, u.record = .prompt n e → q.stepEndPrompt = none → q.pausePending = false → q.pendingRepeat = false →
                  ∃ l, exec .sequencerTakeUnit s = .next (s.withLive l) ∧ Still s.live l ∧ Quiet s.live l
                    ∧ l.guide = (s.live.postPrompt s.tables n .step e []).guide
                    ∧ l.seq = { done with stepEndPrompt := if e then some n else none })
              ∧ (∀ r, u.record = .advance → s.live.openRecord = some r → r.axles.countP (·.state == .done) < r.expected →
                  seqIs { chosen with pointer := p.loopStart, mods := none, armedSkip := none, repeatMark := none })
              ∧ (∀ r, u.record = .advance → s.live.openRecord = some r → r.expected ≤ r.axles.countP (·.state == .done) →
                  q.stepEndPrompt = none → q.pausePending = false → q.pendingRepeat = false → seqIs done)
              ∧ (∀ o b, u.record = .capture o b → q.armedSkip = some q.pointer → ∃ l,
                  exec .sequencerTakeUnit s = .next (s.withLive l) ∧ Still s.live l ∧ Quiet s.live l
                    ∧ (let c := captureSettings b u.mods.part u.mods.limitRow
                       ∀ st ∈ (if c.joint then [.ra, .rb] else u.station.toList), ∀ k a, s.live.bound st = some k →
                        s.live.axle? k = some a → ∃ a', l.axle? k = some a' ∧ a'.brake c.part =
                          { a.brake c.part with flags := { (a.brake c.part).flags with skipped := true } })
                    ∧ l.seq = { q with armedSkip := none, mods := none, pointer := u.step + 1,
                                       repeatMark := if q.repeatMark = some q.pointer then none else q.repeatMark }))

/-- SEQUENCER_TAKE_UNIT, the requests (R61, R63, R67, R79, R90, R95, R128, R129, R132, R133, R136, R139): an accepted SPIN,
CAPTURE, RELEASE or TARE step acts on its station as the host's request does; the sequencer then waits where the step's wait flag
is set, and goes on to the next unit start where it is not. A CAPTURE takes the repeat mark of its unit, whatever it is answered
(log 24), and is recorded as the plan capture of the station that holds it. Answered BUSY, the sequencer waits for the station,
and takes the unit again at its next change of state; answered STATE or ARG, it is HALTED with EVENT STEP_HALTED. Answered LOCKED,
it is HELD on a FAULTED station and else PAUSED: no unit is so answered, for the level and a FAULTED station are judged before the
request is made, so the operation itself is stated. -/
def Obligations.SequencerMakesTheStepsRequest : Prop :=
  (∀ (s : State) (p : Plan) (u : PlanUnit), s.awake →
    let q := s.live.seq
    q.state = .running → s.live.plan? s.tables = some p → p.unitAt q.pointer = some u → s.live.level < 2 →
    q.stepEndPrompt = none → q.pausePending = false → q.pendingRepeat = false →
    let chosen := { q with mods := some u.mods, held := none, awaitTimer := none }
    let after := fun (x : Seq) (w : Bool) (on : SeqWait) =>
      if w then { x with mods := some u.mods, state := .waiting, wait := some on, held := q.held, awaitTimer := q.awaitTimer }
      else { x with state := .running, pointer := u.step + 1, mods := none, held := none, wait := none, awaitTimer := none }
    let goes := fun (l : Live) => exec .sequencerTakeUnit s = .next (s.withLive l)
    (∀ o r w, u.record = .spin o w → u.station = some (stationOf r) → (s.live.roller r).state = .seated → s.live.noneSilent →
        ∃ l, goes l ∧ Quiet s.live l ∧ OnlyRoller r s.live l ∧ DriveMade s.tables r true s.live l
          ∧ Entered (s.live.roller r) (l.roller r) .spinning (some 0) none none
          ∧ l.seq = after chosen w (.spin (stationOf r)))
      ∧ (∀ o r w, u.record = .release o w → u.station = some (stationOf r) →
          (s.live.roller r).state = .spinning ∨ (s.live.roller r).state = .ready →
          ∃ l, goes l ∧ Quiet s.live l ∧ OnlyRoller r s.live l ∧ DriveMade s.tables r false s.live l
            ∧ Entered (s.live.roller r) (l.roller r) .releasing none none (some 0)
            ∧ l.seq = after chosen w (.release (stationOf r)))
      ∧ (∀ o st w, u.record = .tare o w → u.station = some st → s.live.stationState st = .idle →
          tareChannels s.tables st ≠ [] → s.live.noneSilent → ∃ l, goes l ∧ Quiet s.live l
            ∧ l.stationState st = .taring ∧ (∀ x, x ≠ st → l.stationState x = s.live.stationState x)
            ∧ l.tare st = { s.live.tare st with
                context := some { service := false, channels := tareChannels s.tables st }, bar := false }
            ∧ l.seq = after chosen w (.tare st))
      ∧ (∀ o r b, u.record = .capture o b → u.station = some (stationOf r) → q.armedSkip ≠ some q.pointer →
          s.live.noneSilent →
          let c := captureSettings b u.mods.part u.mods.limitRow
          let h := holderOf c r
          (∀ x ∈ (if c.joint then [Roller.ra, .rb] else [r]), (s.live.roller x).state = .ready) → ∃ l k, goes l
            ∧ (∀ x, l.stationState x = if x ∈ (captureStations h k).map stationOf then .measuring else s.live.stationState x)
            ∧ (l.roller h).capture = some k ∧ l.nextStart = s.live.nextStart + 1
            ∧ k = Capture.start c { repeated := q.repeatMark == some q.pointer, manual := false } s.live.nextStart
            ∧ l.seq = after (Seq.setPlanCapture h
                (some { step := u.step, restart := p.restartPoint q.pointer u.station })
                { chosen with repeatMark := if q.repeatMark = some q.pointer then none else q.repeatMark })
                (captureWait b) (.capture h))
      ∧ (∀ st, u.station = some st → s.live.stationState st ≠ .faulted → q.armedSkip ≠ some q.pointer →
          let x := s.live.stationState st
          let joint := fun (b : List Byte) => (captureSettings b u.mods.part u.mods.limitRow).joint
          let busy := ((∃ o w, u.record = .spin o w) ∧ x ∈ [.settling, .releasing, .taring])
            ∨ (∃ o b, u.record = .capture o b ∧ joint b = false ∧ x = .measuring)
          let refused := ((∃ o w, u.record = .spin o w) ∧ x ∈ [.idle, .offline])
            ∨ (∃ o b, u.record = .capture o b ∧ if joint b then s.live.ra.state ≠ .ready ∨ s.live.rb.state ≠ .ready
                else x ∉ [.ready, .measuring])
            ∨ ((∃ o w, u.record = .release o w) ∧ x = .offline)
            ∨ ((∃ o w, u.record = .tare o w) ∧ x ∉ [.idle, .taring] ∧ (x = .offline → s.live.mode ≠ .service ∨ s.tables.present st = false))
          let marks := match u.record with
            | .capture _ _ => if q.repeatMark = some q.pointer then none else q.repeatMark
            | _ => q.repeatMark
          let mine := { q with mods := some u.mods, repeatMark := marks }
          (st ≠ .ps → busy → goes { s.live with seq := { mine with state := .waiting, wait := some (.busy st) } })
            ∧ (st ≠ .ps ∨ (∃ o w, u.record = .tare o w) → refused →
                goes (Live.event .stepHalted (some st) (s.live.boundOrZero st) u.step { s.live with
                  seq := { mine with state := .halted, held := none, wait := none, awaitTimer := none } }))
            ∧ (st = .ps → (∃ o w, u.record = .spin o w ∨ u.record = .release o w) ∨ (∃ o b, u.record = .capture o b) →
                goes (Live.event .stepHalted (some st) 0 u.step { s.live with seq := { q with
                  mods := some u.mods, state := .halted, held := none, wait := none, awaitTimer := none } }))))
  ∧ ∀ (T : Tables) (l : Live) (st : Station) (x : StationState) (w : Option SeqWait),
      let held := { l.seq with state := .held, held := some st, wait := none, awaitTimer := none }
      let rests := fun (y : SeqState) => { l.seq with state := y, held := none, wait := none, awaitTimer := none }
      (l.seqAnswered T st w .locked = if l.stationState st = .faulted then { l with seq := held }
          else { l with seq := rests .paused })
        ∧ (l.seq.state = .waiting → l.seq.wait = some (.busy st) →
            (l.enter T st x) = Live.setSeq (rests .running) (l.putState st x))

/-- AWAIT_TIMEOUT (R129, R130, R132): at its timeout a DELAY ends its step; any other AWAIT halts the sequencer where its record
says so, and otherwise offers EVENT AWAIT_TIMEOUT and ends its step. Before it, and with no timeout, nothing happens (log 4). -/
def Obligations.AwaitTimeoutEndsOrHaltsTheStep : Prop :=
  ∀ (s : State) (c : AwaitCondition) (st : Station) (t n : Nat) (halt : Bool) (u : PlanUnit), s.awake →
    let q := s.live.seq
    q.state = .waiting → q.wait = some (.await c st t halt) → q.awaitTimer = some n →
    let resting := fun (y : SeqState) => { q with state := y, held := none, wait := none, awaitTimer := none }
    let done := { resting .running with pointer := u.step + 1, mods := none }
    (t = 0 ∨ n < t * 1000 → exec .awaitTimeout s = .next s)
      ∧ (0 < t → t * 1000 ≤ n → s.live.currentUnit s.tables = some u →
          (c ≠ .delay → halt = true → exec .awaitTimeout s = .next (s.withLive (Live.event .stepHalted u.station
              ((u.station.map s.live.boundOrZero).getD 0) u.step { s.live with seq := resting .halted })))
          ∧ (q.stepEndPrompt = none → q.pausePending = false → q.pendingRepeat = false →
              (c = .delay → exec .awaitTimeout s = .next (s.withLive { s.live with seq := done }))
              ∧ (c ≠ .delay → halt = false → exec .awaitTimeout s = .next (s.withLive
                  (Live.event .awaitTimeout (some st) 0 u.step { s.live with seq := done })))))

/-! ## Tare upkeep, silence and the timers of the stations -/

/-- AUTO_TARE, TARE_AGE_TICK and the values of a tare (R95, R96, R97, R98, R100, R102). With all its conditions, an auto-tare
makes its station TARING over its tared channels, and leaves the bar as it is. A second of tare age raises the age by one, to at
most 65535; at the interval the tare is STALE, and a present station's fresh one raises TARE_STALE. Without its moment neither
has an effect (log 4). A value of a tared channel of a TARING station joins its sum. With the 64th of the last channel the tare
completes: the truncated means are the offsets, the tare is fresh, and EVENT TARE_DONE is sent; where a mean exceeds its limit
nothing is replaced, auto-tare is barred, and TARE_RANGE is raised with the first such channel. A load sum at the seat threshold
aborts the tare with EVENT TARE_ABORTED. -/
def Obligations.TareUpkeepActs : Prop :=
  (∀ (s : State) (st : Station), s.awake →
    let t := s.live.tare st
    let interval := s.tables.settings.tareInterval
    let fed := match st with | .ps => True | .ra => s.live.tracker.g1 = [] | .rb => s.live.tracker.g2 = []
    let old := t.stale = true ∨ ∃ a, t.age = some a ∧ interval / 2 ≤ a
    let due := s.tables.valid .lane = true ∧ s.tables.settings.autoTare = true ∧ s.live.stationState st = .idle
      ∧ s.live.bound st = none ∧ fed ∧ s.live.mode ≠ .service ∧ old ∧ t.bar = false
    let older := fun (a : Nat) => { t with age := some (min 65535 (a + 1)), ageMs := t.ageMs - 1000 }
    (¬ due → exec (.autoTare st) s = .next s)
      ∧ (due → s.live.seqFree → s.live.noneSilent → tareChannels s.tables st ≠ [] → exec (.autoTare st) s =
          .next (s.withLive (Live.putState st .taring (s.live.setTare st { t with
            context := some { service := false, channels := tareChannels s.tables st } }))))
      ∧ (t.age = none ∨ t.ageMs < 1000 → exec (.tareAgeTick st) s = .next s)
      ∧ ∀ a, t.age = some a → 1000 ≤ t.ageMs →
          (min 65535 (a + 1) < interval → exec (.tareAgeTick st) s = .next (s.withLive (s.live.setTare st (older a))))
          ∧ (interval ≤ min 65535 (a + 1) →
              (t.stale = true ∨ s.tables.present st = false → exec (.tareAgeTick st) s =
                .next (s.withLive (s.live.setTare st { older a with stale := true })))
              ∧ (t.stale = false → s.tables.present st = true → ∃ m, exec (.tareAgeTick st) s = .next (s.withLive m)
                  ∧ Raised s.tables .tareStale (.station st) (s.live.boundOrZero st) 0
                    (s.live.setTare st { older a with stale := true }) m)))
  ∧ ∀ (s : State) (src ch : Byte) (x : Half) (i : Nat) (e : ChannelEntry) (c : ChannelState) (st : Station) (k : TareContext),
    Sampled s src ch x i e c → e.station = some st → s.live.stationState st = .taring → (s.live.tare st).context = some k →
    let t := s.live.tare st
    let l := s.sampledAs i e c (s.valueOf e x)
    let goes := fun (m : Live) => exec (.sampleFrame src ch [x]) s = .next (s.withLive m)
    let summed := fun (y : TareChannel) => if y.entry = i ∧ y.count < 64 then
        { y with count := y.count + 1, sum := y.sum + calibrated s.tables e (signed16 x.toNat) } else y
    let list := k.channels.map summed
    let limit := fun (y : TareChannel) => (s.tables.entries[y.entry]?.map (·.tareLimit)).getD 65536
    let rests : StationState := if k.service then .offline else .idle
    let rising := fun (r : Roller) => st = stationOf r ∧ (e.role = .loadL ∨ e.role = .loadR)
      ∧ s.tables.settings.seat ≤ l.loadSum s.tables r
    let taken := if st = .ps then e.role = .plateDisp else e.role ∈ [.forceL, .forceR, .loadL, .loadR]
    (taken → (∃ y ∈ list, y.count ≠ 64) → (∀ r, ¬ rising r) → ∃ m, goes m
        ∧ m.tare st = { t with context := some { k with channels := list } }
        ∧ (∀ p, m.stationState p = s.live.stationState p) ∧ m.faults = s.live.faults ∧ m.chain = s.live.chain
        ∧ m.seq = s.live.seq)
      ∧ (taken → (∃ y ∈ k.channels, y.entry = i ∧ y.count < 64) → (∀ y ∈ list, y.count = 64) →
          (∀ y ∈ list, (y.sum.tdiv 64).natAbs ≤ limit y) → (∀ r, ¬ rising r) → s.live.seqFree → ∃ m : Live,
            goes (m.event .tareDone (some st) 0 0)
              ∧ m.tare st = { offsets := list.foldl (fun o y => o.put y.role (y.sum.tdiv 64)) t.offsets, age := some 0,
                              ageMs := 0, stale := false, bar := false, context := none }
              ∧ (∀ p, m.stationState p = if p = st then rests else s.live.stationState p)
              ∧ m.faults = s.live.faults.map (fun f => if f.is .tareStale (.station st) then { f with present := false } else f)
              ∧ m.chain = s.live.chain ∧ m.seq = s.live.seq)
      ∧ (∀ y, taken → e.role ∈ [.forceL, .forceR, .plateDisp] → (∃ y ∈ k.channels, y.entry = i ∧ y.count < 64) →
          (∀ y ∈ list, y.count = 64) → (∀ z ∈ k.channels, s.tables.entries[z.entry]? ≠ none) →
          list.find? (fun y => decide (limit y < (y.sum.tdiv 64).natAbs)) = some y → s.live.seqFree → ∃ l' m, goes m
            ∧ Raised s.tables .tareRange (.station st) (s.live.boundOrZero st) y.entry l' m
            ∧ l'.tare st = { t with context := none, bar := true }
            ∧ (∀ p, l'.stationState p = if p = st then rests else s.live.stationState p)
            ∧ l'.faults = s.live.faults ∧ l'.chain = s.live.chain ∧ l'.seq = s.live.seq)
      ∧ (∀ r, (∃ y ∈ list, y.count ≠ 64) → rising r → s.live.seqFree → ∃ m : Live,
            goes (m.offerEvent (eventFrame .tareAborted (some st) 0 (beSigned32 (l.loadSum s.tables r))))
              ∧ m.tare st = { t with context := none }
              ∧ (∀ p, m.stationState p = if p = st then (if k.service then .offline else .settling) else s.live.stationState p)
              ∧ m.faults = s.live.faults ∧ m.chain = s.live.chain ∧ m.seq = s.live.seq)

/-- SILENCE_LIMIT (R48, R49): the entry is silent; HEAD_SILENT is raised with its index where the entry is enabled, its station is
present and at work, and it has not been raised for this silence. Before the limit, and of a silent entry, the command has no
effect (log 4). -/
def Obligations.SilenceLimitMakesAChannelSilent : Prop :=
  ∀ (s : State) (i : Nat) (c : ChannelState), s.awake → s.live.steer.channels[i]? = some c →
    let silent := fun (raised : Bool) =>
      let list := s.live.steer.channels.set i { c with silent := true, silenceRaised := raised }
      ({ s.live with steer := { s.live.steer with channels := list } } : Live)
    let limit := s.tables.settings.silence
    (c.silent = true ∨ (∀ t, c.silence = some t → t < limit) → exec (.silenceLimit i) s = .next s)
      ∧ ∀ t e, c.silent = false → c.silence = some t → limit ≤ t → s.tables.entries[i]? = some e →
          (∀ st, e.station = some st → e.enabled = true → c.silenceRaised = false → s.tables.present st = true →
            (s.live.stationState st).atWork = true → ∃ m, exec (.silenceLimit i) s = .next (s.withLive m)
              ∧ Raised s.tables .headSilent (.station st) (s.live.boundOrZero st) i (silent true) m)
          ∧ (e.station = none ∨ e.enabled = false ∨ c.silenceRaised = true
              ∨ (∀ st, e.station = some st → s.tables.present st = false ∨ (s.live.stationState st).atWork = false) →
              exec (.silenceLimit i) s = .next (s.withLive (silent c.silenceRaised)))

/-- SETTLE_EXPIRY, and the LOAD values of a station that is not driven (R58, R59, R60, R109, R110, R111). A SETTLING station
becomes SEATED at the settle time. A first seating with a record OPEN binds the oldest axle that waits for the station, or at RA
a new axle where roller-only entry is allowed and one is still expected; where neither is possible, MISTRACK is raised with the
station's scope. Outside SETTLING and before the settle time nothing happens (log 4). A LOAD value joins the history of its
side, of at most 32 values. At the seat threshold it moves an IDLE station to SETTLING. Below the empty threshold it ends
SETTLING and SEATED in IDLE, and a set seated flag is cleared with an exit: RA's axle goes on to G2, or is DONE with MISTRACK
where that is full; RB's, and RA's where RB is not present, is DONE. The axle that EVENT FAULT of this MISTRACK carries is the
model's choice (log 43), as is the history at a value that seats (log 21). -/
def Obligations.SettleSeatsAndBinds : Prop :=
  (∀ (s : State) (r : Roller), s.awake →
    let x := s.live.roller r
    let t := s.live.tracker
    let waiting := match r with | .ra => t.g1 | .rb => t.g2
    let seated := s.live.setRoller r { x with
      state := .seated, seated := true, settleTimer := none, spinTimer := none, readyTimer := none, releaseTimer := none }
    let goes := fun (l : Live) => exec (.settleExpiry r) s = .next (s.withLive l)
    (x.state ≠ .settling ∨ (∀ n, x.settleTimer = some n → n < s.tables.settings.settle) → goes s.live)
      ∧ ∀ n, x.state = .settling → x.settleTimer = some n → s.tables.settings.settle ≤ n → s.live.seqFree →
          (x.seated = true ∨ s.live.openRecord = none → goes seated)
          ∧ ∀ v, x.seated = false → s.live.openRecord = some v →
              let allowed := r = .ra ∧ rollerOnlyAllowed s.tables v = true ∧ v.axles.length < v.expected
              let index := v.axles.length + 1
              let joined := v.axles ++ [AxleRecord.fresh index (v.kindOf index) .onStation]
              (∀ i rest, waiting = i :: rest → ∃ l, goes l ∧ l.roller r = seated.roller r ∧ OnlyRoller r s.live l
                  ∧ l.tracker = (match r with
                      | .ra => { t with g1 := rest, boundRA := some i }
                      | .rb => { t with g2 := rest, boundRB := some i })
                  ∧ l.openRecord = some (v.updAxle i fun a => { a with state := .onStation }))
              ∧ (waiting = [] → allowed → ∃ l, goes l ∧ l.roller r = seated.roller r ∧ OnlyRoller r s.live l
                  ∧ l.tracker = { t with boundRA := some index }
                  ∧ l.openRecord = some { v with rollerOnly := true, axles := joined })
              ∧ (waiting = [] → ¬ allowed → ∃ m, goes m
                  ∧ Raised s.tables .mistrack (.station (stationOf r)) (s.live.boundOrZero (stationOf r)) 0 seated m))
  ∧ ∀ (s : State) (src ch : Byte) (x : Half) (i : Nat) (e : ChannelEntry) (c : ChannelState) (r : Roller) (d : Side),
    Sampled s src ch x i e c → e.station = some (stationOf r) → e.role = (match d with | .left => .loadL | .right => .loadR) →
    let v := s.valueOf e x
    let l := s.sampledAs i e c v
    let y := s.live.roller r
    let joined := fun (h : List Int) => if h.length < 32 then h ++ [v] else h.drop 1 ++ [v]
    let y' := match d with
      | .left => { y with histL := joined y.histL }
      | .right => { y with histR := joined y.histR }
    let low := l.loadSum s.tables r < s.tables.settings.empty
    let high := s.tables.settings.seat ≤ l.loadSum s.tables r
    let t := s.live.tracker
    let goes := fun (m : Live) => exec (.sampleFrame src ch [x]) s = .next (s.withLive m)
    let stilled := fun (z : RollerStation) (w : StationState) =>
      { z with state := w, settleTimer := none, spinTimer := none, readyTimer := none, releaseTimer := none }
    (y.state = .offline ∨ (y.state = .idle ∧ ¬ high)
        ∨ (y.state ∈ [.settling, .seated, .spinning, .ready, .measuring] ∧ ¬ low)
        ∨ (y.state ∈ [.releasing, .faulted] ∧ (¬ low ∨ y.seated = false)) → goes (l.setRoller r y'))
      ∧ (y.state = .idle → high → s.live.seqFree → goes (l.setRoller r { stilled y' .settling with
          settleTimer := some 0
          histL := if y.seated then y'.histL else [], histR := if y.seated then y'.histR else [] }))
      ∧ (y.state ∈ [.settling, .seated] → low → y.seated = false → s.live.seqFree →
          goes (l.setRoller r (stilled y' .idle)))
      ∧ (y.state ∈ [.settling, .seated, .releasing, .faulted] → low → y.seated = true → s.live.seqFree →
          let gone := { (if y.state ∈ [.settling, .seated] then stilled y' .idle else y') with seated := false }
          let unbound := match r with | .ra => { t with boundRA := none } | .rb => { t with boundRB := none }
          (s.live.bound (stationOf r) = none → goes (l.setRoller r gone))
            ∧ ∀ k v a, s.live.bound (stationOf r) = some k → s.live.openRecord = some v → v.axle? k = some a →
                (r = .ra → s.tables.present .rb = true → t.g2.length < 4 → ∃ m, goes m ∧ m.roller r = gone
                    ∧ OnlyRoller r s.live m ∧ m.tracker = { unbound with g2 := t.g2 ++ [k] }
                    ∧ m.openRecord = some (v.updAxle k fun b => { b with state := .inGap }))
                  ∧ (r = .rb ∨ s.tables.present .rb = false → ∃ m, goes m ∧ m.roller r = gone ∧ OnlyRoller r s.live m
                    ∧ m.tracker = unbound ∧ m.openRecord = some (v.updAxle k fun b =>
                        { b with state := .done, verdict := axleVerdict s.tables.rows v.cls b }))
                  ∧ (r = .ra → s.tables.present .rb = true → 4 ≤ t.g2.length → ∃ l' m, goes m
                    ∧ Raised s.tables .mistrack (.station (stationOf r)) k 0 l' m ∧ l'.roller r = gone
                    ∧ OnlyRoller r s.live l' ∧ l'.tracker = unbound ∧ l'.faults = s.live.faults
                    ∧ l'.openRecord = some (v.updAxle k fun b =>
                        { b with state := .done, verdict := axleVerdict s.tables.rows v.cls b })))

/-- SPIN_TIMEOUT, READY_LAPSED and RELEASE_TIMEOUT, and the DRUM and LOAD values of a driven station (R60, R63, R65, R67, R68):
at its limit a SPINNING or READY station becomes RELEASING with DRIVE STOP; the spin limit raises DRIVE_TIMEOUT and the ready
limit offers EVENT READY_LAPSED. At the release limit DRIVE STOP is made once more, the timer restarts, and DRIVE_TIMEOUT is
raised. Before its limit none of them acts (log 4). A DRUM value in SPINNING counts towards five in a row of each side at the
ready speed, and then the station is READY; in RELEASING, once both sides are below the stopped speed, the station goes on to
IDLE, SEATED or SETTLING. A load sum below the empty threshold in SPINNING or READY releases the station, reports the exit and
raises AXLE_LOST; in MEASURING it first aborts the capture, a joint one on both stations, whose parts are marked. The order of
these effects is the model's choice (log 19, log 60). -/
def Obligations.DrumTimersReleaseTheStation : Prop :=
  (∀ (s : State) (r : Roller), s.awake →
    let x := s.live.roller r
    let st := stationOf r
    let axle := s.live.boundOrZero st
    let released := fun (k : Live) => Quiet s.live k ∧ OnlyRoller r s.live k ∧ k.seq = s.live.seq
      ∧ DriveMade s.tables r false s.live k ∧ Entered x (k.roller r) .releasing none none (some 0)
    (x.state ≠ .spinning ∨ (∀ n, x.spinTimer = some n → n < 8000) → exec (.spinTimeout r) s = .next s)
      ∧ (∀ n, x.state = .spinning → x.spinTimer = some n → 8000 ≤ n → s.live.seqFree → ∃ k m,
          exec (.spinTimeout r) s = .next (s.withLive m) ∧ released k ∧ Raised s.tables .driveTimeout (.station st) axle 0 k m)
      ∧ (x.state ≠ .ready ∨ (∀ n, x.readyTimer = some n → n < 60000) → exec (.readyLapsed r) s = .next s)
      ∧ (∀ n, x.state = .ready → x.readyTimer = some n → 60000 ≤ n → s.live.seqFree → ∃ k, released k
          ∧ exec (.readyLapsed r) s = .next (s.withLive (k.event .readyLapsed (some st) (s.live.boundOrZero st) 0)))
      ∧ (x.state ≠ .releasing ∨ (∀ n, x.releaseTimer = some n → n < 10000) → exec (.releaseTimeout r) s = .next s)
      ∧ (∀ n, x.state = .releasing → x.releaseTimer = some n → 10000 ≤ n → ∃ k m,
          exec (.releaseTimeout r) s = .next (s.withLive m) ∧ Raised s.tables .driveTimeout (.station st) axle 0 k m
            ∧ Quiet s.live k ∧ OnlyRoller r s.live k ∧ k.seq = s.live.seq ∧ DriveMade s.tables r false s.live k
            ∧ k.roller r = { x with releaseTimer := some 0, heldDrive := (k.roller r).heldDrive }))
  ∧ ∀ (s : State) (src ch : Byte) (x : Half) (i : Nat) (e : ChannelEntry) (c : ChannelState) (r : Roller) (d : Side),
    Sampled s src ch x i e c → e.station = some (stationOf r) →
    let v := s.valueOf e x
    let l := s.sampledAs i e c v
    let y := s.live.roller r
    let st := stationOf r
    let sum := l.loadSum s.tables r
    let goes := fun (m : Live) => exec (.sampleFrame src ch [x]) s = .next (s.withLive m)
    let stilled := fun (z : RollerStation) (w : StationState) =>
      { z with state := w, settleTimer := none, spinTimer := none, readyTimer := none, releaseTimer := none }
    (e.role = (match d with | .left => .drumL | .right => .drumR) →
        let counted := fun (n : Nat) => if s.tables.settings.ready ≤ v then n + 1 else 0
        let y' := match d with
          | .left => { y with readyL := counted y.readyL }
          | .right => { y with readyR := counted y.readyR }
        let stopped := ∀ z ∈ [Role.drumL, .drumR], (l.latest s.tables st z).getD 0 < s.tables.settings.stopped
        (y.state ∉ [.spinning, .releasing] →
            (y.state = .taring → ∀ k, y.tare.context = some k → ∀ z ∈ k.channels, z.entry ≠ i) → goes l)
          ∧ (y.state = .spinning → y'.readyL < 5 ∨ y'.readyR < 5 → goes (l.setRoller r y'))
          ∧ (y.state = .spinning → 5 ≤ y'.readyL → 5 ≤ y'.readyR → s.live.seqFree → s.live.noneSilent →
              goes (l.setRoller r { stilled y' .ready with readyTimer := some 0 }))
          ∧ (y.state = .releasing → ¬ stopped → goes l)
          ∧ (y.state = .releasing → stopped → s.live.seqFree →
              (sum < s.tables.settings.empty → goes (l.setRoller r (stilled y .idle)))
              ∧ (s.tables.settings.empty ≤ sum → y.seated = true → goes (l.setRoller r (stilled y .seated)))
              ∧ (s.tables.settings.empty ≤ sum → y.seated = false → s.tables.settings.seat ≤ sum →
                  goes (l.setRoller r { stilled y .settling with settleTimer := some 0, histL := [], histR := [] }))
              ∧ (s.tables.settings.empty ≤ sum → y.seated = false → sum < s.tables.settings.seat →
                  goes (l.setRoller r (stilled y .idle)))))
      ∧ (e.role = (match d with | .left => .loadL | .right => .loadR) → y.state = .spinning ∨ y.state = .ready →
          sum < s.tables.settings.empty → s.live.seqFree →
          s.live.bound st = none ∨ r = .rb ∨ s.tables.present .rb = false ∨ s.live.tracker.g2.length < 4 → ∃ l' m, goes m
            ∧ Raised s.tables .axleLost (.station st) (s.live.boundOrZero st) 0 l' m ∧ DriveMade s.tables r false l l'
            ∧ (l'.roller r).state = .releasing ∧ (l'.roller r).releaseTimer = some 0 ∧ (l'.roller r).seated = false
            ∧ OnlyRoller r s.live l' ∧ l'.bound st = none ∧ l'.faults = s.live.faults ∧ l'.seq = s.live.seq)
      ∧ (∀ h k, e.role = (match d with | .left => .loadL | .right => .loadR) → y.state = .measuring →
          sum < s.tables.settings.empty → s.live.seqFree → s.live.captureHolder r = some h →
          (s.live.roller h).capture = some k →
          s.live.bound st = none ∨ r = .rb ∨ s.tables.present .rb = false ∨ s.live.tracker.g2.length < 4 → ∃ l' m, goes m
            ∧ Raised s.tables .axleLost (.station st) (s.live.boundOrZero st) 0 l' m
            ∧ (l'.roller h).capture = none ∧ (l'.roller r).seated = false ∧ l'.bound st = none
            ∧ (∀ q ∈ captureStations h k, (l'.roller q).state = .releasing ∧ (l'.roller q).releaseTimer = some 0)
            ∧ (∀ p, p ≠ st → l'.bound p = s.live.bound p ∧ (p ∉ (captureStations h k).map stationOf →
                l'.stationState p = s.live.stationState p))
            ∧ (∀ q ∈ captureStations h k, ∀ j a, s.live.bound (stationOf q) = some j → s.live.axle? j = some a →
                (∀ w ∈ captureStations h k, w ≠ q → s.live.bound (stationOf w) ≠ some j) → ∃ b, l'.axle? j = some b
                  ∧ b.brake k.settings.part = abortedPart .axleLost (a.brake k.settings.part))
            ∧ (∃ more, l'.chain.up = upAfter (captureEnds h k .axleLost s.live) s.live.chain.up ++ originated more)
            ∧ l'.faults = s.live.faults ∧ (s.live.seq.planCapture h = none → l'.seq = s.live.seq))

/-- CAPTURE_TIMEOUT (R83, R85, R86, R87, R89, R91, R92): a capture that has run for its limit ends with reason TIMEOUT, a joint
one on both stations. Its context is emptied, its stations leave MEASURING for READY or with auto-release for RELEASING, the target
part of each bound axle takes its station's result, marked TIMED_OUT, and each station sends CAPTURE_END. Before the limit nothing
happens (log 4). That a joint capture is reported to the sequencer behind both EVENT frames is log 60. -/
def Obligations.CaptureTimeoutEndsTheCapture : Prop :=
  ∀ (s : State) (r : Roller), s.awake →
    let x := s.live.roller r
    (x.capture = none → exec (.captureTimeout r) s = .next s)
      ∧ ∀ c, x.capture = some c →
          (c.timer < 30000 → exec (.captureTimeout r) s = .next s)
          ∧ (30000 ≤ c.timer → s.live.noneSilent → ∃ l, exec (.captureTimeout r) s = .next (s.withLive l)
              ∧ CaptureEnded s.tables r c .timeout s.live l)

/-! ## The printer -/

/-- PRINT_JOB_START, BAND_COMPOSED and BAND_OFFER (R174, R180, R181, R182). A job begins for the head slot with its bands from the
record and the form, after one VOID band if that is due, and its first band is being composed into A. A composed buffer is FULL
with its band's bytes. The next band to be sent is strobed out with BAND_REQ raised; at the last the composer is DRAINING. That one
band is composed at a time is the model's choice (log 26), and that a command without its moment has no effect too (log 4). -/
def Obligations.PrintJobComposesAndOffersBands : Prop :=
  ∀ s : State, s.awake →
    let p := s.live.printer
    let l := s.live.lines
    let ready := l.ready = true ∧ l.paperOut = false ∧ l.headHot = false ∧ l.bandAck = false
    let starts := p.composer = .idle ∧ p.queue ≠ [] ∧ s.tables.valid .form = true ∧ s.tables.valid .glyphs = true ∧ ready
      ∧ p.line = .idle
    (¬ starts → exec .printJobStart s = .next s)
      ∧ (∀ e rest r, starts → p.queue = e :: rest → (s.live.records.slots.get e.slot).record = some r →
          let j : Job :=
            { slot := e.slot, axleCount := r.axles.length
              pageBands := pageBands (Form.ofBytes (s.tables.content .form)) r.axles.length
              copy := s.live.slotState e.slot == .issued, verdict := r.verdict, copyNumber := r.printCount + 1
              void := p.voidDue, nextCompose := 1, nextSend := 0 }
          exec .printJobStart s = .next (s.withLive { s.live with printer := { p with
            composer := .composing, job := some j, bufA := { state := .composing, band := 0, content := [] }
            bufB := .free } }))
      ∧ (∀ n, (p.buffer n).state ≠ .composing ∨ p.job = none → exec (.bandComposed n) s = .next s)
      ∧ (∀ n j, (p.buffer n).state = .composing → p.job = some j →
          let full := p.setBuffer n { p.buffer n with
            state := .full, content := s.live.bandContent s.tables j (p.buffer n).band }
          let m := bufferOf j.nextCompose
          let next : BandBuffer := { state := .composing, band := j.nextCompose, content := [] }
          let counted := { full with job := some { j with nextCompose := j.nextCompose + 1 } }
          let more := j.nextCompose < j.length ∧ (full.buffer m).state = .free ∧ full.composing = false
          (¬ more → exec (.bandComposed n) s = .next (s.withLive { s.live with printer := full }))
          ∧ (more → exec (.bandComposed n) s = .next (s.withLive { s.live with
              printer := counted.setBuffer m next })))
      ∧ (p.job = none → exec .bandOffer s = .next s)
      ∧ (∀ j, p.job = some j →
          let n := bufferOf j.nextSend
          let due := p.line = .idle ∧ p.composer = .composing ∧ (p.buffer n).state = .full ∧ (p.buffer n).band = j.nextSend
            ∧ ready
          (¬ due → exec .bandOffer s = .next s)
          ∧ (due → exec .bandOffer s = .next (s.withLive { s.live with printer :=
              { p.setBuffer n { p.buffer n with state := .offered } with
                strobed := (p.buffer n).content, bandReq := true, timer := some 0, line := .offered
                job := some { j with nextSend := j.nextSend + 1 }
                composer := if j.nextSend + 1 = j.length then .draining else .composing } })))

/-- BAND_ACK_RISE and BAND_ACK_FALL (R180 to R184, R186). The rise takes an OFFERED band: BAND_REQ drops and the timer starts
again; with the last band the job ends: the record is ISSUED with its print count, its entry leaves the queue, and EVENT PRINT_DONE
is offered. The fall frees the buffer and the line; the next composition of a job then begins where a band is left, none is being
composed and its buffer is FREE. A fall that makes the printer ready clears the printer-fault flag with the end of the condition,
and a PAUSED composer becomes IDLE or starts the head entry's job. An edge needs a change of the line (log 4), and it carries the
level that READY then has (log 11). That the started job has begun one band only is log 26. -/
def Obligations.BandAckMovesTheHandshake : Prop :=
  ∀ (s : State) (ready : Bool), s.awake →
    let l := s.live
    let p := l.printer
    let lines := fun (ack : Bool) => { l.lines with bandAck := ack, ready := ready }
    let taken := { p with bandReq := false, timer := some 0, line := .taken }
    let rises := fun (m : Live) => exec (.bandAckRise ready) s = .next (s.withLive { m with lines := lines true })
    let falls := fun (m : Live) => exec (.bandAckFall ready) s = .next (s.withLive { m with lines := lines false })
    let readied := ready = true ∧ l.lines.paperOut = false ∧ l.lines.headHot = false
    let free := fun (b : BandBuffer) => if b.state = .offered then BandBuffer.free else b
    let settled := { p with line := .idle, timer := none, bufA := free p.bufA, bufB := free p.bufB }
    (l.lines.bandAck = true → exec (.bandAckRise ready) s = .next s)
      ∧ (l.lines.bandAck = false → p.line ≠ .offered → rises l)
      ∧ (l.lines.bandAck = false → p.line = .offered → p.job = none ∨ p.composer ≠ .draining →
          rises { l with printer := taken })
      ∧ (∀ j e rest r, l.lines.bandAck = false → p.line = .offered → p.job = some j → p.composer = .draining →
          p.queue = e :: rest → (l.records.slots.get j.slot).record = some r →
          let count := if l.slotState j.slot = .issued then min 255 (r.printCount + 1) else 1
          let free := l.mgmt.sticky.composerFree || rest.isEmpty
          let issued : RecordSlot := { state := .issued, record := some { r with printCount := count } }
          let ended := { taken with queue := rest, voidDue := p.voidDue && !j.void, composer := .idle, job := none }
          rises (Live.event .printDone none 0 (j.slot.val + 1) { l with
            records := { l.records with slots := l.records.slots.set j.slot issued }
            mgmt := { l.mgmt with sticky := { l.mgmt.sticky with composerFree := free } }
            printer := ended }))
      ∧ (l.lines.bandAck = false → exec (.bandAckFall ready) s = .next s)
      ∧ (l.lines.bandAck = true → ¬ readied ∨ (p.fault = false ∧ p.composer ≠ .paused) →
          (p.line ≠ .taken → falls l)
          ∧ (p.line = .taken →
              let begins := fun (j : Job) => j.nextCompose < j.length ∧ settled.composing = false
                ∧ (settled.buffer (bufferOf j.nextCompose)).state = .free
              ((∀ j, p.job = some j → ¬ begins j) → falls { l with printer := settled })
                ∧ ∀ j, p.job = some j → begins j →
                  let composing : BandBuffer := { state := .composing, band := j.nextCompose, content := [] }
                  let counted := { settled with job := some { j with nextCompose := j.nextCompose + 1 } }
                  falls { l with printer := counted.setBuffer (bufferOf j.nextCompose) composing }))
      ∧ (l.lines.bandAck = true → readied → p.job = none →
          let freed := if p.line = .taken then settled else p
          let goes := fun (m : Printer) => falls { l with faults := faultsOfReady l, printer := m }
          (p.composer ≠ .paused → goes { freed with fault := false })
          ∧ (p.composer = .paused → p.queue = [] → goes { freed with fault := false, composer := .idle })
          ∧ ∀ e rest r, p.composer = .paused → p.queue = e :: rest → (l.records.slots.get e.slot).record = some r →
              ∃ m, goes m ∧ JobRestarted e r freed m)

/-- PAPER_OUT_ASSERTED, HEAD_HOT_ASSERTED and ACK_TIMEOUT (R182, R184, R185): each sets the printer-fault flag and raises PRINTER
unless the flag is set, and abandons a job under way; a timeout also stops the timer. A line that is asserted already does not
become asserted, and a timeout before 5 s or in IDLE does not happen: neither has an effect (log 4). That the handshake timer of a
line that stays TAKEN goes on, as an abandoned job leaves it, is log 56, and that the edge carries the level READY then has is log
11. That EVENT FAULT comes before EVENT PRINT_FAILED is log 66. -/
def Obligations.PrinterFaultsAbandonTheJob : Prop :=
  ∀ (s : State) (ready : Bool), s.awake →
    let l := s.live
    (l.lines.paperOut = true → exec (.paperOutAsserted ready) s = .next s)
      ∧ (l.lines.headHot = true → exec (.headHotAsserted ready) s = .next s)
      ∧ (l.lines.paperOut = false → ∃ m, exec (.paperOutAsserted ready) s = .next (s.withLive m)
        ∧ PrinterFaulted s.tables { l with lines := { l.lines with paperOut := true, ready := ready } } m)
      ∧ (l.lines.headHot = false → ∃ m, exec (.headHotAsserted ready) s = .next (s.withLive m)
        ∧ PrinterFaulted s.tables { l with lines := { l.lines with headHot := true, ready := ready } } m)
      ∧ (l.printer.line = .idle ∨ (∀ n, l.printer.timer = some n → n < 5000) → exec .ackTimeout s = .next s)
      ∧ (∀ n, l.printer.line ≠ .idle → l.printer.timer = some n → 5000 ≤ n → ∃ m, PrinterFaulted s.tables l m
          ∧ exec .ackTimeout s = .next (s.withLive { m with printer := { m.printer with timer := none } }))

/-- PRINTER_READY (R184, R186): with BAND_ACK low the flag is cleared and the condition of PRINTER ends; a PAUSED composer becomes
IDLE where the queue is empty, and otherwise starts the head entry's job. With BAND_ACK high the printer is not ready. That the
command sets the lines is the model's choice (log 39), and so is that the job has begun one band only (log 26). -/
def Obligations.PrinterReadyEndsTheFault : Prop :=
  ∀ s : State, s.awake →
    let l := s.live
    let p := l.printer
    let lines := { l.lines with ready := true, paperOut := false, headHot := false }
    let cleared := faultsOfReady l
    let goes := fun (m : Live) => exec .printerReady s = .next (s.withLive m)
    (l.lines.bandAck = true → goes { l with lines := lines })
      ∧ (l.lines.bandAck = false → p.composer ≠ .paused →
          goes { l with lines := lines, faults := cleared, printer := { p with fault := false } })
      ∧ (l.lines.bandAck = false → p.composer = .paused → p.queue = [] →
          goes { l with lines := lines, faults := cleared, printer := { p with fault := false, composer := .idle } })
      ∧ (∀ e rest r, l.lines.bandAck = false → p.composer = .paused → p.queue = e :: rest →
          (l.records.slots.get e.slot).record = some r → ∃ m, goes { l with lines := lines, faults := cleared, printer := m }
            ∧ JobRestarted e r p m)

/-! ## ESTOP and the limits -/

/-- OPERATOR_STOP, ESTOP_ASSERTED and ESTOP_RELEASED (R137, R152, R154, R157, R158). STOP of the remote raises OPERATOR_STOP
with lane scope; with the built-in action STOP and no such entry yet, no station is left SPINNING, READY or MEASURING, and the
sequencer is not RUNNING. The assertion of ESTOP raises ESTOP, whose action is LOCK: where it makes its entry, every present station
is FAULTED and the sequencer LOCKED. Its release marks the condition ended and removes nothing. An edge needs a change of the line
(log 4). -/
def Obligations.StopInputsStopOrLockTheLane : Prop :=
  (∀ (s : State) (src : Byte), s.awake → headAddress src = true → s.tables.isRemote src.toNat = true →
        ∃ m, exec (.operatorStop src) s = .next (s.withLive m) ∧ Raised s.tables .operatorStop .lane 0 0 s.live m
          ∧ (s.tables.valid .faults = false → s.live.faults.any (·.is .operatorStop .lane) = false →
              (∀ r, (m.roller r).state.driven = false) ∧ m.seq.state ≠ .running
                ∧ m.faults = s.live.faults ++ [newEntry .operatorStop .lane .stop none]))
  ∧ (∀ s : State, s.awake →
        let l := s.live
        (l.lines.estop = true → exec .estopAsserted s = .next s)
          ∧ (l.lines.estop = false → ∃ m, exec .estopAsserted s = .next (s.withLive m)
              ∧ Raised s.tables .estop .lane 0 0 { l with lines := { l.lines with estop := true } } m
              ∧ (l.faults.any (·.is .estop .lane) = false →
                  (∀ st, s.tables.present st = true → m.stationState st = .faulted) ∧ m.seq.state = .locked
                    ∧ ∃ k, m.faults = l.faults ++ [newEntry .estop .lane .lock k])
              ∧ (∃ e ∈ m.faults, e.is .estop .lane = true ∧ e.present = true))
          ∧ (l.lines.estop = false → exec .estopReleased s = .next s)
          ∧ (l.lines.estop = true → exec .estopReleased s = .next (s.withLive { l with
              lines := { l.lines with estop := false }
              faults := l.faults.map fun e => if e.is .estop .lane then { e with present := false } else e })))

/-- The judgement of a measure against a limit field, in each comparison mode, a measure equal to a limit being on the passing
side; and of the two ovality measures of an OVALITY or AUX part against the one ovality field, which give the part the worse of
their two field results (R146). -/
def Obligations.AMeasureIsJudgedAgainstItsField : Prop :=
  ∀ (f : LimitField) (m : Nat),
    (f.mode = .unused → judgeField f m = .pass)
      ∧ (f.mode = .failAbove → judgeField f m =
          if m ≤ f.fail then (if m ≤ f.advisory then .pass else .advisory) else .fail)
      ∧ (f.mode = .failBelow → judgeField f m =
          if f.fail ≤ m then (if f.advisory ≤ m then .pass else .advisory) else .fail)
      ∧ ∀ (row : LimitRow) (load : Option LoadValues) (v : BrakeResult) (n : Nat),
          row.fields[1]? = some f → v.ovalityL = some m → v.ovalityR = some n →
          let left := judgeField f m
          let right := judgeField f n
          let worse := if left = .fail ∨ right = .fail then FieldResult.fail
            else if left = .advisory ∨ right = .advisory then .advisory else .pass
          brakeResults (some row) .ovality load v = [worse]
            ∧ brakeResults (some row) .aux load v = [judgeMeasure (some row) 0 (some (imbalance v.peakL v.peakR)), worse]

end
end

