-- ==== Sys2Proof/Laws/Keeps.lean ====
section
/-! SUPPORT. What every operation of the blocks keeps: RESET and the input lines as they were, and the laws of the queues,
the fault list and the record slots. `Keeps T old s` says that `s` comes of `r` so; each operation has one lemma, which takes
`Keeps r` of the state it starts from to `Keeps r` of its answer. -/

namespace Sys2Proof.Machine

/-- What an operation on `r` that answers `s` keeps. -/
structure Keeps (T : Tables) (old s : Live) : Prop where
  reset : s.resetAsserted = old.resetAsserted
  lines : s.lines = old.lines
  queues : T.settings.trip ≤ Config.upCapacity → QueuesBounded T old → QueuesBounded T s
  faults : FaultLaw old → FaultLaw s
  estop : FaultLaw old → EstopEntry old → EstopEntry s
  records : RecordLaw old → RecordLaw s

theorem Keeps.refl (T : Tables) (old : Live) : Keeps T old old := ⟨rfl, rfl, fun _ => id, id, fun _ => id, id⟩

theorem Keeps.trans {T : Tables} {old s t : Live} (h : Keeps T old s) (k : Keeps T s t) : Keeps T old t :=
  ⟨k.reset.trans h.reset, k.lines.trans h.lines, fun l => k.queues l ∘ h.queues l, k.faults ∘ h.faults,
    fun l e => k.estop (h.faults l) (h.estop l e), k.records ∘ h.records⟩

/-- A step of `Keeps` by what the last operation keeps. -/
theorem Keeps.step {T : Tables} {old s t : Live} (k : Keeps T s t) (h : Keeps T old s) : Keeps T old t := h.trans k

/-- An operation applied along a list keeps what each of its steps keeps. -/
theorem Keeps.foldl {α : Type} {T : Tables} {old : Live} {f : Live → α → Live} (hf : ∀ x a, Keeps T old x → Keeps T old (f x a)) :
    ∀ (l : List α) {s : Live}, Keeps T old s → Keeps T old (l.foldl f s)
  | [], _, h => h
  | a :: l, _, h => Keeps.foldl hf l (hf _ a h)

/-- What a write keeps that leaves alone all the parts the laws look at. -/
theorem Keeps.same {T : Tables} {old s t : Live} (h : Keeps T old s) (h1 : t.resetAsserted = s.resetAsserted) (h2 : t.lines = s.lines)
    (hc : t.chain.up = s.chain.up) (hd : t.chain.down = s.chain.down) (hg : t.guide.queue = s.guide.queue)
    (ht : t.tracker.g1 = s.tracker.g1) (hu : t.tracker.g2 = s.tracker.g2) (hf : t.faults = s.faults)
    (hr : t.records.slots = s.records.slots) (hp : t.printer = s.printer) : Keeps T old t := by
  refine h.trans ⟨h1, h2, ?_, ?_, ?_, ?_⟩
  · simp only [QueuesBounded, hc, hd, hg, ht, hu]; exact fun _ => id
  · simp only [FaultLaw, hf]; exact id
  · simp only [EstopEntry, hf]; exact fun _ => id
  · simp only [RecordLaw, SlotLaw, PrintLaw, Live.slotState, hr, hp]; exact id

/-! ## Writes of one field -/

variable {T : Tables} {old s : Live}

@[simp] theorem Keeps.mgmt (h : Keeps T old s) (x : Mgmt) : Keeps T old { s with mgmt := x } :=
  h.same rfl rfl rfl rfl rfl rfl rfl rfl rfl rfl

@[simp] theorem Keeps.steer (h : Keeps T old s) (x : Steering) : Keeps T old { s with steer := x } :=
  h.same rfl rfl rfl rfl rfl rfl rfl rfl rfl rfl

@[simp] theorem Keeps.ps (h : Keeps T old s) (x : PlateStation) : Keeps T old { s with ps := x } :=
  h.same rfl rfl rfl rfl rfl rfl rfl rfl rfl rfl

@[simp] theorem Keeps.ra (h : Keeps T old s) (x : RollerStation) : Keeps T old { s with ra := x } :=
  h.same rfl rfl rfl rfl rfl rfl rfl rfl rfl rfl

@[simp] theorem Keeps.rb (h : Keeps T old s) (x : RollerStation) : Keeps T old { s with rb := x } :=
  h.same rfl rfl rfl rfl rfl rfl rfl rfl rfl rfl

@[simp] theorem Keeps.mode (h : Keeps T old s) (x : LaneMode) : Keeps T old { s with mode := x } :=
  h.same rfl rfl rfl rfl rfl rfl rfl rfl rfl rfl

@[simp] theorem Keeps.nextStart (h : Keeps T old s) (x : Nat) : Keeps T old { s with nextStart := x } :=
  h.same rfl rfl rfl rfl rfl rfl rfl rfl rfl rfl

@[simp] theorem Keeps.seq (h : Keeps T old s) (x : Seq) : Keeps T old { s with seq := x } :=
  h.same rfl rfl rfl rfl rfl rfl rfl rfl rfl rfl

@[simp] theorem Keeps.choices (h : Keeps T old s) (x : Nat) : Keeps T old { s with choices := x } :=
  h.same rfl rfl rfl rfl rfl rfl rfl rfl rfl rfl

@[simp] theorem Live.setSeq_keeps (h : Keeps T old s) (x : Seq) : Keeps T old (s.setSeq x) := Keeps.seq h _

@[simp] theorem Live.setSticky_keeps (h : Keeps T old s) (x : Indicators) : Keeps T old (s.setSticky x) := Keeps.mgmt h _

@[simp] theorem Live.setSteer_keeps (h : Keeps T old s) (x : Steering) : Keeps T old (s.setSteer x) := Keeps.steer h _

@[simp] theorem Live.setPS_keeps (h : Keeps T old s) (x : PlateStation) : Keeps T old (s.setPS x) := Keeps.ps h _

@[simp] theorem Live.setRoller_keeps (h : Keeps T old s) (q : Roller) (x : RollerStation) : Keeps T old (s.setRoller q x) := by
  cases q <;> simp [Live.setRoller, h]

@[simp] theorem Live.putState_keeps (h : Keeps T old s) (st : Station) (x : StationState) : Keeps T old (s.putState st x) := by
  cases st <;> simp [Live.putState, h]

@[simp] theorem Live.setTare_keeps (h : Keeps T old s) (st : Station) (x : Tare) : Keeps T old (s.setTare st x) := by
  cases st <;> simp [Live.setTare, h]

@[simp] theorem Live.chosen_keeps (h : Keeps T old s) : Keeps T old s.chosen := Keeps.choices h _

@[simp] theorem Live.setBound_keeps (h : Keeps T old s) (q : Roller) (a : Option Nat) : Keeps T old (s.setBound q a) := by
  cases q <;> exact h.same rfl rfl rfl rfl rfl rfl rfl rfl rfl rfl

/-! ## The chain queues -/

/-- A write of the up queue that keeps its bound and adds no mirror. -/
theorem Live.setUp_keeps (h : Keeps T old s) {q : List UpFrame}
    (hq : s.chain.up.length ≤ Config.upCapacity → q.length ≤ Config.upCapacity)
    (hm : mirrorCount q ≤ mirrorCount s.chain.up) : Keeps T old (s.setUp q) :=
  h.trans ⟨rfl, rfl, fun _ b => ⟨hq b.1, b.2.1, b.2.2.1, b.2.2.2.1, b.2.2.2.2.1, hm.trans b.2.2.2.2.2⟩, id, fun _ => id, id⟩

@[simp] theorem mirrorCount_append (q : List UpFrame) (f : Frame) :
    mirrorCount (q ++ [{ mirror := false, frame := f }]) = mirrorCount q := by simp [mirrorCount]

/-- An originated frame that finds room (R11). -/
theorem Live.appendUp_keeps (h : Keeps T old s) (f : Frame) (hl : s.chain.up.length < Config.upCapacity) :
    Keeps T old (s.setUp (s.chain.up ++ [{ mirror := false, frame := f }])) :=
  Live.setUp_keeps h (fun _ => by simp; omega) (by simp)

/-- A write of the down queue that keeps its bound. -/
theorem Live.setDown_keeps (h : Keeps T old s) {q : List DownFrame}
    (hq : s.chain.down.length ≤ Config.driveLevel → q.length ≤ Config.driveLevel) : Keeps T old (s.setDown q) :=
  h.trans ⟨rfl, rfl, fun _ b => ⟨b.1, hq b.2.1, b.2.2⟩, id, fun _ => id, id⟩

@[simp] theorem Live.offerEvent_keeps (h : Keeps T old s) (f : Frame) : Keeps T old (s.offerEvent f) := by
  unfold Live.offerEvent
  split
  · exact Live.appendUp_keeps h _ (by assumption)
  · simp [h]

@[simp] theorem Live.event_keeps (h : Keeps T old s) (c : EventCode) (st : Option Station) (a v : Nat) :
    Keeps T old (s.event c st a v) := by simp [Live.event, h]

@[simp] theorem Live.offerReply_keeps (h : Keeps T old s) (f : Frame) : Keeps T old (s.offerReply f) := by
  unfold Live.offerReply
  split
  · exact Live.appendUp_keeps h _ (by assumption)
  · simp [h]

@[simp] theorem Live.offerMirror_keeps (h : Keeps T old s) (f : Frame) : Keeps T old (s.offerMirror T f) := by
  unfold Live.offerMirror
  split
  · refine h.trans ⟨rfl, rfl, fun l b => ⟨?_, b.2.1, b.2.2.1, b.2.2.2.1, b.2.2.2.2.1, ?_⟩, id, fun _ => id, id⟩
    · simp only [Live.setUp, List.length_append, List.length_singleton]; omega
    · have hm : mirrorCount s.chain.up ≤ s.chain.up.length := List.countP_le_length
      simp only [Live.setUp, mirrorCount, List.countP_append, List.countP_singleton] at hm ⊢
      simp; omega
  · exact h

@[simp] theorem Live.offerResult_keeps (h : Keeps T old s) (i : Fin 4) (f : Frame) : Keeps T old (s.offerResult i f) := by
  unfold Live.offerResult
  split
  · rename_i hc
    simp only [Bool.and_eq_true, decide_eq_true_eq] at hc
    exact Live.appendUp_keeps h _ hc.2
  · exact h.same rfl rfl rfl rfl rfl rfl rfl rfl rfl rfl

theorem enterResults_length : ∀ (l : List (Fin 4 × Frame)) (q : List UpFrame),
    q.length ≤ Config.upCapacity → (enterResults l q).2.length ≤ Config.upCapacity
  | [], _, h => h
  | p :: l, q, h => by
    unfold enterResults
    split
    · exact enterResults_length l _ (by simp; omega)
    · exact h

theorem enterResults_mirrors : ∀ (l : List (Fin 4 × Frame)) (q : List UpFrame),
    mirrorCount (enterResults l q).2 = mirrorCount q
  | [], _ => rfl
  | p :: l, q => by
    unfold enterResults
    split
    · rw [enterResults_mirrors l, mirrorCount_append]
    · rfl

@[simp] theorem Live.offerPending_keeps (h : Keeps T old s) : Keeps T old s.offerPending :=
  Keeps.same (Live.setUp_keeps h (enterResults_length s.records.pendingResults s.chain.up)
    (enterResults_mirrors _ _).le)
    rfl rfl rfl rfl rfl rfl rfl rfl rfl rfl

@[simp] theorem Live.offerFreedUp_keeps (h : Keeps T old s) : Keeps T old s.offerFreedUp := by
  unfold Live.offerFreedUp
  split
  · simp [h]
  · split
    · exact Live.offerPending_keeps (Keeps.mgmt (Live.appendUp_keeps h _ (by assumption)) _)
    · exact h

theorem dropMirrors_length : ∀ (n : Nat) (q : List UpFrame), (dropMirrors n q).length ≤ q.length
  | 0, q => by simp [dropMirrors]
  | n + 1, [] => by simp [dropMirrors]
  | n + 1, f :: q => by
    unfold dropMirrors
    split
    · exact (dropMirrors_length n q).trans (by simp)
    · simpa using dropMirrors_length (n + 1) q

theorem trimMirrors_length (n : Nat) (q : List UpFrame) : (trimMirrors n q).length ≤ q.length := by
  cases q with
  | nil => simp [trimMirrors]
  | cons f q => simpa [trimMirrors] using dropMirrors_length (mirrorCount (f :: q) - n) q.reverse

theorem dropMirrors_mirrors : ∀ (n : Nat) (q : List UpFrame),
    mirrorCount (dropMirrors n q) = mirrorCount q - n
  | 0, q => by simp [dropMirrors]
  | n + 1, [] => by simp [dropMirrors, mirrorCount]
  | n + 1, f :: q => by
    unfold dropMirrors
    split
    · rename_i hf
      rw [dropMirrors_mirrors n q]
      simp only [mirrorCount, List.countP_cons, hf, if_true]
      omega
    · rename_i hf
      have := dropMirrors_mirrors (n + 1) q
      simp only [mirrorCount, List.countP_cons, hf] at this ⊢
      simpa using this

/-- Trimmed to a level of at least 1, the queue holds no more mirrors than the level (R10). -/
theorem trimMirrors_mirrors (n : Nat) (q : List UpFrame) (h : 1 ≤ n) : mirrorCount (trimMirrors n q) ≤ n := by
  cases q with
  | nil => simp [trimMirrors, mirrorCount]
  | cons f q =>
    have hd := dropMirrors_mirrors (mirrorCount (f :: q) - n) q.reverse
    simp only [mirrorCount, trimMirrors, List.countP_cons, List.countP_reverse] at hd ⊢
    split <;> simp_all <;> omega

theorem trimMirrors_mirrors_le (n : Nat) (q : List UpFrame) : mirrorCount (trimMirrors n q) ≤ mirrorCount q := by
  cases q with
  | nil => simp [trimMirrors]
  | cons f q =>
    have hd := dropMirrors_mirrors (mirrorCount (f :: q) - n) q.reverse
    simp only [mirrorCount, trimMirrors, List.countP_cons, List.countP_reverse] at hd ⊢
    omega

theorem flushMirrors_mirrors_le (q : List UpFrame) : mirrorCount (flushMirrors q) ≤ mirrorCount q := by
  cases q with
  | nil => simp [flushMirrors]
  | cons f q =>
    simp only [flushMirrors, mirrorCount, List.countP_cons, List.countP_filter]
    simp

theorem flushMirrors_length (q : List UpFrame) : (flushMirrors q).length ≤ q.length := by
  cases q with
  | nil => simp [flushMirrors]
  | cons f q => simpa [flushMirrors] using List.length_filter_le _ q

theorem dropHost_length (q : List DownFrame) : (dropHost q).length ≤ q.length := by
  cases q with
  | nil => simp [dropHost]
  | cons f q => simpa [dropHost] using List.length_filter_le _ q

@[simp] theorem placeDown_length (f : DownFrame) (q : List DownFrame) : (placeDown f q).length = q.length + 1 := by
  cases q with
  | nil => rfl
  | cons g q =>
    simp only [placeDown]
    split
    · have hq := congrArg List.length (List.takeWhile_append_dropWhile (p := fun x => x.isDrive) (l := q))
      simp only [List.length_append] at hq
      simp only [List.length_cons, List.length_append]
      omega
    · simp

theorem downLevel_le (x : DownSource) : downLevel x ≤ Config.driveLevel := by cases x <;> decide

theorem Live.admitDown?_keeps (h : Keeps T old s) {f : DownFrame} {t : Live} (ht : s.admitDown? f = some t) :
    Keeps T old t := by
  unfold Live.admitDown? at ht
  split at ht
  · rename_i hl
    cases ht
    exact Live.setDown_keeps h fun _ => by rw [placeDown_length]; have := downLevel_le f.source; omega
  · cases ht

@[simp] theorem Live.setHeld_keeps (h : Keeps T old s) (q : Roller) (f : Option Frame) : Keeps T old (s.setHeld q f) :=
  Live.setRoller_keeps h _ _

@[simp] theorem Live.offerDrive_keeps (h : Keeps T old s) (U : Tables) (q : Roller) (start : Bool) :
    Keeps T old (s.offerDrive U q start) := by
  simp only [Live.offerDrive]
  split
  · simp [h]
  · split
    · rename_i ht; exact Live.admitDown?_keeps h ht
    · simp [h]

@[simp] theorem Live.offerHeld_keeps (h : Keeps T old s) (q : Roller) : Keeps T old (s.offerHeld q) := by
  unfold Live.offerHeld
  split
  · exact h
  · split
    · rename_i ht; simp [Live.admitDown?_keeps h ht]
    · exact h

@[simp] theorem Live.offerFreedDown_keeps (h : Keeps T old s) : Keeps T old s.offerFreedDown := by
  simp [Live.offerFreedDown, h]

/-! ## The fault list -/

/-- A write of the fault list that keeps its law and, where it stands, ESTOP's entry. -/
theorem Keeps.faultList (h : Keeps T old s) {l : List FaultEntry} (hl : FaultLaw s → FaultLaw { s with faults := l })
    (he : FaultLaw s → EstopEntry s → EstopEntry { s with faults := l }) : Keeps T old { s with faults := l } :=
  h.trans ⟨rfl, rfl, fun _ => id, hl, he, id⟩

/-- A change of the list entry by entry that leaves each entry's source, scope and action. -/
theorem FaultLaw.map {f : FaultEntry → FaultEntry} (hs : ∀ e, (f e).source = e.source) (hc : ∀ e, (f e).scope = e.scope)
    (he : ∀ e, entryLaw e → entryLaw (f e)) (h : FaultLaw s) : FaultLaw { s with faults := s.faults.map f } := by
  refine ⟨?_, ?_⟩
  · rw [List.pairwise_map]
    exact h.1.imp fun {a b} hab => by simpa [sameFault, hs, hc] using hab
  · intro e hm
    obtain ⟨a, ha, rfl⟩ := List.mem_map.1 hm
    exact he a (h.2 a ha)

/-- The end of any condition but ESTOP's. -/
@[simp] theorem Live.endCondition_keeps (h : Keeps T old s) {src : Source} (hs : src ≠ .estop) (scope : Scope) :
    Keeps T old (s.endCondition src scope) := by
  refine h.faultList (FaultLaw.map ?_ ?_ ?_) ?_
  · intro e; split <;> rfl
  · intro e; split <;> rfl
  · intro e he
    split
    · exact ⟨he.1, he.2.1, fun _ => rfl⟩
    · exact he
  · rintro - ⟨e, hm, h1, h2, h3, h4⟩
    refine ⟨e, List.mem_map.2 ⟨e, hm, ?_⟩, h1, h2, h3, h4⟩
    have : e.is src scope = false := by
      simp only [FaultEntry.is, Bool.and_eq_false_imp, beq_iff_eq]
      intro hx; exact absurd (hx.symm.trans h1) hs
    simp [this]

/-! ## The record slots -/

/-- A write of a slot that keeps the law of the slots and of the print queue. -/
theorem Live.setSlot_keeps (h : Keeps T old s) {i : Fin 4} {x : RecordSlot} (hr : RecordLaw s → RecordLaw (s.setSlot i x)) :
    Keeps T old (s.setSlot i x) := h.trans ⟨rfl, rfl, fun _ => id, id, fun _ => id, hr⟩

@[simp] theorem Four.get_set_self {α : Type} (f : Four α) (i : Fin 4) (a : α) : (f.set i a).get i = a := by
  fin_cases i <;> rfl

theorem Four.get_set_of_ne {α : Type} (f : Four α) {i j : Fin 4} (a : α) (h : j ≠ i) : (f.set i a).get j = f.get j := by
  fin_cases i <;> fin_cases j <;> first | rfl | exact absurd rfl h

/-- A slot rewritten with its state and the presence of its record as they were. -/
theorem Live.setSlot_keeps_state (h : Keeps T old s) {i : Fin 4} {x : RecordSlot} (hs : x.state = s.slotState i)
    (hx : x.record = none ↔ (s.records.slots.get i).record = none) : Keeps T old (s.setSlot i x) := by
  have hst : ∀ j, (s.setSlot i x).slotState j = s.slotState j := by
    intro j
    by_cases hj : j = i
    · subst hj; simpa [Live.slotState, Live.setSlot] using hs
    · simp [Live.slotState, Live.setSlot, Four.get_set_of_ne _ _ hj]
  refine Live.setSlot_keeps h fun ⟨⟨h1, h2⟩, h3, h4, h5⟩ => ⟨⟨?_, ?_⟩, h3, ?_, h5⟩
  · intro a b; rw [hst, hst]; exact h1 a b
  · intro j
    rw [hst, h2]
    by_cases hj : j = i
    · subst hj; simp only [Live.setSlot, Four.get_set_self]; exact hx.symm
    · simp only [Live.setSlot, Four.get_set_of_ne _ _ hj]
  · intro e he; rw [hst]; exact h4 e he

end Sys2Proof.Machine
end

