-- ==== Sys2Proof/Laws/KeepsGuidance.lean ====
section
/-! SUPPORT. What the guidance unit keeps: see Laws/Keeps.lean. -/

namespace Sys2Proof.Machine

variable {T : Tables} {old s : Live}

/-- A write of the guidance unit that keeps the bound of its queue. -/
theorem Live.setGuide_keeps (h : Keeps T old s) {g : Guide}
    (hg : s.guide.queue.length ≤ Config.promptCapacity → g.queue.length ≤ Config.promptCapacity) :
    Keeps T old (s.setGuide g) :=
  h.trans ⟨rfl, rfl, fun _ b => ⟨b.1, b.2.1, hg b.2.2.1, b.2.2.2⟩, id, fun _ => id, id⟩

/-- A write of the guidance unit that leaves its queue. -/
@[simp] theorem Live.setGuide_keeps_queue (h : Keeps T old s) {g : Guide} (hg : g.queue = s.guide.queue) :
    Keeps T old (s.setGuide g) := Live.setGuide_keeps h fun b => by rwa [hg]



@[simp] theorem Live.markLine_keeps (h : Keeps T old s) (i : Fin 4) : Keeps T old (Live.markLine T i s) := by
  simp only [Live.markLine]
  (repeat' split) <;> simp (maxDischargeDepth := 20) [h]

@[simp] theorem Live.offerLine_keeps (h : Keeps T old s) (i : Fin 4) : Keeps T old (Live.offerLine T i s) := by
  simp only [Live.offerLine]
  split
  · split
    · rename_i ht; simp [Live.admitDown?_keeps h ht]
    · exact h
  · exact h

@[simp] theorem Live.render_keeps (h : Keeps T old s) : Keeps T old (Live.render T s) := by
  simp only [Live.render]
  have hm := Keeps.foldl (T := T) (old := old) (f := fun x i => x.markLine T i) (fun x i hx => by simp [hx]) fourIndices h
  split
  · exact Keeps.foldl (fun x i hx => by simp [hx]) _ hm
  · exact hm

@[simp] theorem Live.allDirty_keeps (h : Keeps T old s) : Keeps T old (Live.allDirty s) := by
  simp only [Live.allDirty]
  simp (maxDischargeDepth := 20) [h]

/-- A new prompt queue that keeps the queue's bound. -/
theorem Live.setQueue_keeps (h : Keeps T old s) {q : List PromptEntry}
    (hq : s.guide.queue.length ≤ Config.promptCapacity → q.length ≤ Config.promptCapacity) :
    Keeps T old (s.setQueue T q) := by
  have h1 : Keeps T old (s.setGuide { s.guide with queue := q }) := Live.setGuide_keeps h hq
  simp only [Live.setQueue]
  split
  · exact h1
  · exact Live.render_keeps (Live.setGuide_keeps_queue h1 rfl)

theorem insertPrompt_length (e : PromptEntry) (q : List PromptEntry) : (insertPrompt e q).length = q.length + 1 := by
  have hq := congrArg List.length (List.takeWhile_append_dropWhile
    (p := fun x : PromptEntry => decide (classRank x.cls ≤ classRank e.cls)) (l := q))
  simp only [List.length_append] at hq
  simp only [insertPrompt, List.length_append, List.length_cons]
  omega

theorem displaced_mem {q : List PromptEntry} {d : PromptEntry} (h : displaced q = some d) : d ∈ q := by
  unfold displaced at h
  split at h
  · exact List.mem_of_find?_eq_some h
  · cases h

@[simp] theorem Live.postPrompt_keeps (h : Keeps T old s) (n : Nat) (origin : PromptOrigin) (stepEnd : Bool) (links : List (Source × Scope)) : Keeps T old (Live.postPrompt T n origin stepEnd links s) := by
  have h1 : Keeps T old (s.setGuide { s.guide with nextArrival := s.guide.nextArrival + 1 }) := by simp [h]
  simp only [Live.postPrompt]
  split
  · exact Live.setQueue_keeps h1 fun _ => by rw [insertPrompt_length]; omega
  · split
    · rename_i d hd
      split
      · refine Live.event_keeps (Live.setQueue_keeps h1 fun hb => ?_) _ _ _ _
        rw [insertPrompt_length]
        have hlt := List.length_filter_lt_length_iff_exists (p := fun x : PromptEntry => x.number != d.number)
          (l := s.guide.queue.filter (fun x => x.number != n))
        have := hlt.2 ⟨d, displaced_mem hd, by simp⟩
        have := List.length_filter_le (fun x : PromptEntry => x.number != n) s.guide.queue
        simp only [Live.setGuide] at hb
        omega
      · simp [h1]
    · exact h1

@[simp] theorem Live.unlink_keeps (h : Keeps T old s) (src : Source) (scope : Scope) : Keeps T old (Live.unlink T src scope s) := by
  exact Live.setQueue_keeps h fun hb => (List.length_filterMap_le _ _).trans hb

@[simp] theorem Live.stepEndRemoval_keeps (h : Keeps T old s) (n : Nat) : Keeps T old (Live.stepEndRemoval T n s) := by
  exact Live.setQueue_keeps h fun hb => (List.length_filterMap_le _ _).trans hb

@[simp] theorem Live.guideLaneReset_keeps (h : Keeps T old s) (removed : List FaultEntry) : Keeps T old (Live.guideLaneReset T removed s) := by
  refine Live.render_keeps (Live.allDirty_keeps (Live.setGuide_keeps h fun hb => ?_))
  exact (List.length_filterMap_le _ _).trans ((List.length_filter_le _ _).trans hb)

@[simp] theorem Live.offerBar_keeps (h : Keeps T old s) (left : Nat) (right : Nat) : Keeps T old (Live.offerBar T left right s) := by
  unfold Live.offerBar
  split
  · rename_i ht; exact Live.admitDown?_keeps h ht
  · exact h

theorem Live.admitDown?_guide {f : DownFrame} {t : Live} (ht : s.admitDown? f = some t) : t.guide = s.guide := by
  unfold Live.admitDown? at ht
  split at ht <;> cases ht
  rfl

@[simp] theorem Live.offerBar_guide (a b : Nat) : (s.offerBar T a b).guide = s.guide := by
  unfold Live.offerBar
  split
  · rename_i ht; exact Live.admitDown?_guide ht
  · rfl

@[simp] theorem Live.refreshBars_keeps (h : Keeps T old s) : Keeps T old (Live.refreshBars T s) := by
  simp only [Live.refreshBars]
  have hc : Keeps T old
      (if s.guide.barsShown then (s.offerBar T 0 0).setGuide { s.guide with barsShown := false } else s) := by
    split
    · exact Live.setGuide_keeps_queue (Live.offerBar_keeps h 0 0) (by simp)
    · exact h
  split
  · exact hc
  · split
    · simp [h]
    · exact hc

end Sys2Proof.Machine
end

