-- ==== Sys2Proof/Laws/KeepsRecords.lean ====
section
/-! SUPPORT. What the record store and the axle tracker keep: see Laws/Keeps.lean. -/

namespace Sys2Proof.Machine

variable {T : Tables} {old s : Live}

/-- A write of the tracker that keeps the bounds of the gap queues. -/
theorem Keeps.tracker (h : Keeps T old s) {x : Tracker}
    (h1 : s.tracker.g1.length ≤ Config.gapCapacity → x.g1.length ≤ Config.gapCapacity)
    (h2 : s.tracker.g2.length ≤ Config.gapCapacity → x.g2.length ≤ Config.gapCapacity) :
    Keeps T old { s with tracker := x } :=
  h.trans ⟨rfl, rfl, fun _ b => ⟨b.1, b.2.1, b.2.2.1, h1 b.2.2.2.1, h2 b.2.2.2.2.1, b.2.2.2.2.2⟩, id, fun _ => id, id⟩

@[simp] theorem Live.updOpen_tracker (f : VehicleRecord → VehicleRecord) : (s.updOpen f).tracker = s.tracker := by
  unfold Live.updOpen
  split <;> rfl

@[simp] theorem Live.updAxle_tracker (i : Nat) (f : AxleRecord → AxleRecord) : (s.updAxle i f).tracker = s.tracker :=
  Live.updOpen_tracker _

@[simp] theorem Live.appendAxle_tracker (a : AxleRecord) : (s.appendAxle a).tracker = s.tracker := Live.updOpen_tracker _

@[simp] theorem Live.judged_tracker {α : Type} (p : Part α) : (s.judged p).tracker = s.tracker := rfl

@[simp] theorem Live.updOpen_keeps (h : Keeps T old s) (f : VehicleRecord → VehicleRecord) : Keeps T old (Live.updOpen f s) := by
  unfold Live.updOpen
  split
  · exact Live.setSlot_keeps_state h rfl (by simp)
  · exact h

@[simp] theorem Live.updAxle_keeps (h : Keeps T old s) (index : Nat) (f : AxleRecord → AxleRecord) : Keeps T old (Live.updAxle index f s) := by
  simp (maxDischargeDepth := 20) [Live.updAxle, h]

@[simp] theorem Live.judged_keeps (h : Keeps T old s) {α : Type} (p : Part α) : Keeps T old (Live.judged p s) := by
  simp (maxDischargeDepth := 20) [Live.judged, h]

@[simp] theorem Live.writeLoad_keeps (h : Keeps T old s) (r : Roller) (manual : Bool) : Keeps T old (Live.writeLoad r manual s) := by
  simp only [Live.writeLoad]
  (repeat' split) <;> simp (maxDischargeDepth := 20) [h]

@[simp] theorem Live.writeBrake_keeps (h : Keeps T old s) (st : Station) (c : Capture) (v : BrakeResult) : Keeps T old (Live.writeBrake T st c v s) := by
  simp only [Live.writeBrake]
  (repeat' split) <;> simp (maxDischargeDepth := 20) [h]

@[simp] theorem Live.markBrake_keeps (h : Keeps T old s) (st : Station) (part : BrakePart) (f : Part BrakeResult → Part BrakeResult) : Keeps T old (Live.markBrake st part f s) := by
  unfold Live.markBrake
  (repeat' split) <;> simp (maxDischargeDepth := 20) [h]

@[simp] theorem Live.axleDone_keeps (h : Keeps T old s) (index : Nat) : Keeps T old (Live.axleDone T index s) := by
  simp only [Live.axleDone]
  (repeat' split) <;> simp (maxDischargeDepth := 20) [h]

@[simp] theorem Live.appendAxle_keeps (h : Keeps T old s) (a : AxleRecord) : Keeps T old (Live.appendAxle a s) := by
  simp (maxDischargeDepth := 20) [Live.appendAxle, h]

@[simp] theorem Live.forwardCrossing_keeps (h : Keeps T old s) (r : VehicleRecord) (m : Option PlateValues) (stale : Bool) : Keeps T old (Live.forwardCrossing T r m stale s).1 := by
  simp only [Live.forwardCrossing]
  split
  · rename_i hc
    have ha : ∀ a, Keeps T old (s.appendAxle a) := fun a => Live.appendAxle_keeps h a
    split
    · split
      · exact Keeps.tracker (Live.judged_keeps (ha _) _) (fun _ => by simp; omega) (fun hb => by simpa using hb)
      · exact Keeps.tracker (ha _) (fun _ => by simp; omega) (fun hb => by simpa using hb)
    · split <;> simp [ha]
  · exact h

@[simp] theorem Live.reverseCrossing_keeps (h : Keeps T old s) (r : VehicleRecord) : Keeps T old (Live.reverseCrossing r s).1 := by
  simp only [Live.reverseCrossing]
  split
  · split
    · have ht : Keeps T old { s with tracker := { s.tracker with g1 := s.tracker.g1.dropLast } } :=
        Keeps.tracker h (fun hb => by simp; omega) (fun hb => hb)
      simp [ht]
    · exact h
  · exact h

@[simp] theorem Live.takeCrossing_keeps (h : Keeps T old s) (d : Direction) (m : Option PlateValues) (stale : Bool) : Keeps T old (Live.takeCrossing T d m stale s).1 := by
  unfold Live.takeCrossing
  (repeat' split) <;> simp (maxDischargeDepth := 20) [h]

@[simp] theorem Live.bindAxle_keeps (h : Keeps T old s) (r : Roller) (index : Nat) : Keeps T old (Live.bindAxle r index s) := by
  simp (maxDischargeDepth := 20) [Live.bindAxle, h]

@[simp] theorem Live.seatRA_keeps (h : Keeps T old s) : Keeps T old (Live.seatRA T s).1 := by
  simp only [Live.seatRA]
  split
  · exact h
  · split
    · rename_i i rest hg
      have ht : Keeps T old { s with tracker := { s.tracker with g1 := rest } } :=
        Keeps.tracker h (fun hb => by rw [hg] at hb; simp at hb ⊢; omega) (fun hb => hb)
      simp [ht]
    · split <;> simp [h]

@[simp] theorem Live.seatRB_keeps (h : Keeps T old s) : Keeps T old (Live.seatRB s).1 := by
  simp only [Live.seatRB]
  split
  · exact h
  · split
    · rename_i i rest hg
      have ht : Keeps T old { s with tracker := { s.tracker with g2 := rest } } :=
        Keeps.tracker h (fun hb => hb) (fun hb => by rw [hg] at hb; simp at hb ⊢; omega)
      simp [ht]
    · exact h

@[simp] theorem Live.trackSeating_keeps (h : Keeps T old s) (r : Roller) : Keeps T old (Live.trackSeating T r s).1 := by
  unfold Live.trackSeating
  (repeat' split) <;> simp (maxDischargeDepth := 20) [h]

@[simp] theorem Live.trackExit_keeps (h : Keeps T old s) (r : Roller) : Keeps T old (Live.trackExit T r s).1 := by
  simp only [Live.trackExit]
  split
  · exact h
  · split
    · split
      · rename_i hl
        dsimp only
        refine Live.updAxle_keeps (Keeps.tracker (Live.setBound_keeps h r none) (fun hb => by exact hb) (fun _ => ?_)) _ _
        simp only [List.length_append, List.length_singleton]; omega
      · simp [h]
    · simp [h]

@[simp] theorem Live.clearTracker_keeps (h : Keeps T old s) : Keeps T old (Live.clearTracker s) := by
  exact Keeps.tracker h (fun _ => by simp [Tracker.reset]) (fun _ => by simp [Tracker.reset])

/-- A slot appended to the print queue: it is CLOSED or ISSUED and not yet queued. -/
theorem Live.appendPrint_keeps (h : Keeps T old s) {i : Fin 4}
    (hs : RecordLaw old → s.slotState i = .closed ∨ s.slotState i = .issued)
    (hq : RecordLaw old → i ∉ s.printer.queue.map (·.slot)) : Keeps T old (s.appendPrint i) := by
  refine ⟨h.reset, h.lines, h.queues, h.faults, h.estop, fun lo => ?_⟩
  have l := h.records lo
  refine ⟨l.1, ?_, ?_, ?_⟩
  · have := hq lo
    simp only [List.mem_map, not_exists, not_and] at this
    simpa [Live.appendPrint, List.nodup_append] using ⟨l.2.1, this⟩
  · intro e he
    simp only [Live.appendPrint, List.mem_append, List.mem_singleton] at he
    rcases he with he | rfl
    · exact l.2.2.1 e he
    · exact hs lo
  · intro j hj
    have hh := l.2.2.2 j hj
    refine ⟨hh.1, ?_⟩
    have hh := hh.2
    simp only [Live.appendPrint]
    cases hx : s.printer.queue with
    | nil => rw [hx] at hh; cases hh
    | cons e q => rw [hx] at hh; simpa using hh

/-- The OPEN slot is OPEN. -/
theorem Live.openSlot_state {i : Fin 4} (h : s.openSlot = some i) : s.slotState i = .opened := by
  simpa [Live.slotState] using List.find?_some h

/-- A write to the OPEN record leaves every slot's state. -/
@[simp] theorem Live.updOpen_slotState (f : VehicleRecord → VehicleRecord) (j : Fin 4) :
    (s.updOpen f).slotState j = s.slotState j := by
  unfold Live.updOpen
  split
  · rename_i i _
    by_cases hj : j = i
    · subst hj; simp [Live.slotState, Live.setSlot]
    · simp [Live.slotState, Live.setSlot, Four.get_set_of_ne _ _ hj]
  · rfl

@[simp] theorem Live.updOpen_printer (f : VehicleRecord → VehicleRecord) : (s.updOpen f).printer = s.printer := by
  unfold Live.updOpen
  split <;> rfl

@[simp] theorem Live.offerResult_slotState (i j : Fin 4) (f : Frame) : (s.offerResult i f).slotState j = s.slotState j := by
  unfold Live.offerResult
  split <;> rfl

@[simp] theorem Live.offerResult_printer (i : Fin 4) (f : Frame) : (s.offerResult i f).printer = s.printer := by
  unfold Live.offerResult
  split <;> rfl

@[simp] theorem Live.axleDone_slotState (n : Nat) (j : Fin 4) : (s.axleDone T n).slotState j = s.slotState j := by
  simp only [Live.axleDone]
  split <;> simp [Live.updAxle]

@[simp] theorem Live.axleDone_printer (n : Nat) : (s.axleDone T n).printer = s.printer := by
  simp only [Live.axleDone]
  split <;> simp [Live.updAxle]

theorem Live.foldl_axleDone_slotState (j : Fin 4) : ∀ (l : List Nat) (s : Live),
    (l.foldl (fun x n => x.axleDone T n) s).slotState j = s.slotState j
  | [], _ => rfl
  | n :: l, s => by rw [List.foldl_cons, Live.foldl_axleDone_slotState j l, Live.axleDone_slotState]

theorem Live.foldl_axleDone_printer : ∀ (l : List Nat) (s : Live),
    (l.foldl (fun x n => x.axleDone T n) s).printer = s.printer
  | [], _ => rfl
  | n :: l, s => by rw [List.foldl_cons, Live.foldl_axleDone_printer l, Live.axleDone_printer]

/-- A slot that is OPEN becomes CLOSED or ABORTED with a record. -/
theorem Live.setSlot_keeps_ended (h : Keeps T old s) {i : Fin 4} {x : SlotState} {f : VehicleRecord}
    (ho : s.slotState i = .opened) (hx : x = .closed ∨ x = .aborted) :
    Keeps T old (s.setSlot i { state := x, record := some f }) := by
  have hself : (s.setSlot i { state := x, record := some f }).slotState i = x := by simp [Live.slotState, Live.setSlot]
  have hne : ∀ j, j ≠ i → (s.setSlot i { state := x, record := some f }).slotState j = s.slotState j := fun j hj => by
    simp [Live.slotState, Live.setSlot, Four.get_set_of_ne _ _ hj]
  refine Live.setSlot_keeps h fun ⟨⟨h1, h2⟩, h3, h4, h5⟩ => ⟨⟨?_, ?_⟩, h3, ?_, h5⟩
  · intro a b ha hb
    by_cases hai : a = i
    · subst hai; rw [hself] at ha; rcases hx with rfl | rfl <;> cases ha
    · by_cases hbi : b = i
      · subst hbi; rw [hself] at hb; rcases hx with rfl | rfl <;> cases hb
      · rw [hne a hai] at ha; rw [hne b hbi] at hb; exact h1 a b ha hb
  · intro j
    by_cases hj : j = i
    · subst hj; rw [hself]; rcases hx with rfl | rfl <;> simp [Live.setSlot]
    · rw [hne j hj, h2]; simp [Live.setSlot, Four.get_set_of_ne _ _ hj]
  · intro e he
    have := h4 e he
    by_cases hj : e.slot = i
    · rw [hj, ho] at this; rcases this with h | h <;> cases h
    · rw [hne _ hj]; exact this

theorem Live.foldl_axleDone_keeps (h : Keeps T old s) (l : List Nat) :
    Keeps T old (l.foldl (fun x n => x.axleDone T n) s) := Keeps.foldl (fun x n hx => by simp [hx]) _ h

@[simp] theorem Live.closeRecord_keeps (h : Keeps T old s) : Keeps T old (Live.closeRecord T s) := by
  simp only [Live.closeRecord]
  split
  · rename_i i r hi hr
    have h1 : Keeps T old ((r.unfinished.foldl (fun x n => x.axleDone T n) s.clearTracker).updOpen (finishRecord T.rows)) :=
      Live.updOpen_keeps (Live.foldl_axleDone_keeps (by simp [h]) _) _
    have ho : ((r.unfinished.foldl (fun x n => x.axleDone T n) s.clearTracker).updOpen (finishRecord T.rows)).slotState i =
        .opened := by
      rw [Live.updOpen_slotState, Live.foldl_axleDone_slotState]; exact Live.openSlot_state hi
    split
    · rename_i f hf
      have h2 := Live.offerResult_keeps (Live.setSlot_keeps_ended (f := f) h1 ho (.inl rfl)) i (vehicleResult i .closed f)
      split
      · refine Live.appendPrint_keeps h2 (fun _ => .inl ?_) fun l hm => ?_
        · rw [Live.offerResult_slotState]; simp [Live.slotState, Live.setSlot]
        · rw [Live.offerResult_printer] at hm
          simp only [Live.setSlot, Live.updOpen_printer, Live.foldl_axleDone_printer] at hm
          obtain ⟨e, he, rfl⟩ := List.mem_map.1 hm
          have := (h.records l).2.2.1 e he
          rw [Live.openSlot_state hi] at this
          rcases this with h | h <;> cases h
      · exact h2
    · exact h1
  · exact h

@[simp] theorem Live.abortRecord_keeps (h : Keeps T old s) : Keeps T old (Live.abortRecord s) := by
  simp only [Live.abortRecord]
  split
  · rename_i i r hi hr
    exact Live.offerResult_keeps (Live.setSlot_keeps_ended (Live.clearTracker_keeps h) (Live.openSlot_state hi) (.inr rfl)) _ _
  · exact h

end Sys2Proof.Machine
end

