-- ==== Sys2Proof/Laws/KeepsSequencer.lean ====
section
/-! SUPPORT. What the sequencer keeps: see Laws/Keeps.lean. -/

namespace Sys2Proof.Machine

variable {T : Tables} {old s : Live}

@[simp] theorem Live.buttonIgnored_keeps (h : Keeps T old s) (code : Nat) : Keeps T old (Live.buttonIgnored code s) := by
  simp (maxDischargeDepth := 20) [Live.buttonIgnored, h]

@[simp] theorem Live.seqHold_keeps (h : Keeps T old s) (st : Station) : Keeps T old (Live.seqHold st s) := by
  simp (maxDischargeDepth := 20) [Live.seqHold, h]

@[simp] theorem Live.seqHalt_keeps (h : Keeps T old s) : Keeps T old (Live.seqHalt T s) := by
  simp only [Live.seqHalt]
  (repeat' split) <;> simp (maxDischargeDepth := 20) [h]

@[simp] theorem Live.seqRest_keeps (h : Keeps T old s) (x : SeqState) : Keeps T old (Live.seqRest x s) := by
  simp (maxDischargeDepth := 20) [Live.seqRest, h]

@[simp] theorem Live.discardRepeat_keeps (h : Keeps T old s) : Keeps T old (Live.discardRepeat s) := by
  unfold Live.discardRepeat
  (repeat' split) <;> simp (maxDischargeDepth := 20) [h]

@[simp] theorem Live.actRepeat_keeps (h : Keeps T old s) : Keeps T old (Live.actRepeat T s) := by
  unfold Live.actRepeat
  (repeat' split) <;> simp (maxDischargeDepth := 20) [h]

@[simp] theorem Live.actPendingRepeat_keeps (h : Keeps T old s) : Keeps T old (Live.actPendingRepeat T s) := by
  unfold Live.actPendingRepeat
  (repeat' split) <;> simp (maxDischargeDepth := 20) [h]

@[simp] theorem Live.pauseNow_keeps (h : Keeps T old s) : Keeps T old (Live.pauseNow s) := by
  simp only [Live.pauseNow]
  simp (maxDischargeDepth := 20) [h]

@[simp] theorem Live.endStepPrompt_keeps (h : Keeps T old s) (u : PlanUnit) : Keeps T old (Live.endStepPrompt T u s) := by
  unfold Live.endStepPrompt
  (repeat' split) <;> simp (maxDischargeDepth := 20) [h]

@[simp] theorem Live.stepDone_keeps (h : Keeps T old s) : Keeps T old (Live.stepDone T s) := by
  simp only [Live.stepDone]
  (repeat' split) <;> simp (maxDischargeDepth := 20) [h]

@[simp] theorem Live.stepFailed_keeps (h : Keeps T old s) (st : Station) : Keeps T old (Live.stepFailed T st s) := by
  unfold Live.stepFailed
  (repeat' split) <;> simp (maxDischargeDepth := 20) [h]

@[simp] theorem Live.makeRestart_keeps (h : Keeps T old s) (x : Restart) : Keeps T old (Live.makeRestart T x s) := by
  simp only [Live.makeRestart]
  (repeat' split) <;> simp (maxDischargeDepth := 20) [h]

@[simp] theorem Live.judgeRestart_keeps (h : Keeps T old s) (b x : Restart) : Keeps T old (Live.judgeRestart T b x s) := by
  unfold Live.judgeRestart
  (repeat' split) <;> simp (maxDischargeDepth := 20) [h]

@[simp] theorem Live.captureBroken_keeps (h : Keeps T old s) (b : Restart) : Keeps T old (Live.captureBroken T b s) := by
  simp only [Live.captureBroken]
  (repeat' split) <;> simp (maxDischargeDepth := 20) [h]

@[simp] theorem Live.seqCaptureEnd_keeps (h : Keeps T old s) (r : Roller) (c : Capture) (reason : EndReason) (axle : Nat) : Keeps T old (Live.seqCaptureEnd T r c reason axle s) := by
  simp only [Live.seqCaptureEnd]
  (repeat' split) <;> simp (maxDischargeDepth := 20) [h]

@[simp] theorem Live.heldEnds_keeps (h : Keeps T old s) : Keeps T old (Live.heldEnds T s) := by
  unfold Live.heldEnds
  (repeat' split) <;> simp (maxDischargeDepth := 20) [h]

@[simp] theorem Live.waitSees_keeps (h : Keeps T old s) (st : Station) : Keeps T old (Live.waitSees T st s) := by
  simp only [Live.waitSees]
  (repeat' split) <;> simp (maxDischargeDepth := 20) [h]

@[simp] theorem Live.seqSees_keeps (h : Keeps T old s) (st : Station) : Keeps T old (Live.seqSees T st s) := by
  unfold Live.seqSees
  (repeat' split) <;> simp (maxDischargeDepth := 20) [h]

@[simp] theorem Live.enter_keeps (h : Keeps T old s) (st : Station) (x : StationState) : Keeps T old (Live.enter T st x s) := by
  simp (maxDischargeDepth := 20) [Live.enter, h]

@[simp] theorem Live.seqTareEnd_keeps (h : Keeps T old s) (st : Station) (o : TareOutcome) : Keeps T old (Live.seqTareEnd T st o s) := by
  unfold Live.seqTareEnd
  (repeat' split) <;> simp (maxDischargeDepth := 20) [h]

@[simp] theorem Live.seqExit_keeps (h : Keeps T old s) (st : Station) : Keeps T old (Live.seqExit T st s) := by
  unfold Live.seqExit
  (repeat' split) <;> simp (maxDischargeDepth := 20) [h]

@[simp] theorem Live.pauseOrder_keeps (h : Keeps T old s) : Keeps T old (Live.pauseOrder s) := by
  unfold Live.pauseOrder
  (repeat' split) <;> simp (maxDischargeDepth := 20) [h]

@[simp] theorem Live.lockOrder_keeps (h : Keeps T old s) : Keeps T old (Live.lockOrder s) := by
  simp only [Live.lockOrder]
  simp (maxDischargeDepth := 20) [h]

@[simp] theorem Live.seqResume_keeps (h : Keeps T old s) : Keeps T old (Live.seqResume T s) := by
  simp only [Live.seqResume]
  (repeat' split) <;> simp (maxDischargeDepth := 20) [h]

@[simp] theorem Live.seqEmpty_keeps (h : Keeps T old s) : Keeps T old (Live.seqEmpty s) := by
  unfold Live.seqEmpty
  (repeat' split) <;> simp (maxDischargeDepth := 20) [h]

@[simp] theorem Live.seqClosed_keeps (h : Keeps T old s) : Keeps T old (Live.seqClosed T s) := by
  unfold Live.seqClosed
  (repeat' split) <;> simp (maxDischargeDepth := 20) [h]

@[simp] theorem Live.seqBegin_keeps (h : Keeps T old s) : Keeps T old (Live.seqBegin s) := by
  unfold Live.seqBegin
  (repeat' split) <;> simp (maxDischargeDepth := 20) [h]

@[simp] theorem Live.seqUnlock_keeps (h : Keeps T old s) : Keeps T old (Live.seqUnlock s) := by
  unfold Live.seqUnlock
  (repeat' split) <;> simp (maxDischargeDepth := 20) [h]

end Sys2Proof.Machine
end

