-- ==== Sys2Proof/Laws/KeepsStations.lean ====
section
/-! SUPPORT. What the stations keep: see Laws/Keeps.lean. -/

namespace Sys2Proof.Machine

variable {T : Tables} {old s : Live}

@[simp] theorem Live.enterReleasing_keeps (h : Keeps T old s) (r : Roller) : Keeps T old (Live.enterReleasing T r s) := by
  simp only [Live.enterReleasing]
  simp (maxDischargeDepth := 20) [h]

@[simp] theorem Live.enterReady_keeps (h : Keeps T old s) (r : Roller) : Keeps T old (Live.enterReady T r s) := by
  simp (maxDischargeDepth := 20) [Live.enterReady, h]

@[simp] theorem Live.enterSettling_keeps (h : Keeps T old s) (r : Roller) : Keeps T old (Live.enterSettling T r s) := by
  simp only [Live.enterSettling]
  (repeat' split) <;> simp (maxDischargeDepth := 20) [h]

@[simp] theorem Live.enterStill_keeps (h : Keeps T old s) (r : Roller) (x : StationState) : Keeps T old (Live.enterStill T r x s) := by
  simp (maxDischargeDepth := 20) [Live.enterStill, h]

@[simp] theorem Live.faultDriven_keeps (h : Keeps T old s) (r : Roller) : Keeps T old (Live.faultDriven T r s) := by
  simp (maxDischargeDepth := 20) [Live.faultDriven, h]

@[simp] theorem Live.enterOffline_keeps (h : Keeps T old s) (st : Station) : Keeps T old (Live.enterOffline T st s) := by
  unfold Live.enterOffline
  (repeat' split) <;> simp (maxDischargeDepth := 20) [h]

@[simp] theorem Live.setCapture_keeps (h : Keeps T old s) (r : Roller) (c : Option Capture) : Keeps T old (Live.setCapture r c s) := by
  simp (maxDischargeDepth := 20) [Live.setCapture, h]

@[simp] theorem Live.captureWrite_keeps (h : Keeps T old s) (holder : Roller) (c : Capture) (reason : EndReason) (r : Roller) : Keeps T old (Live.captureWrite T holder c reason r s) := by
  unfold Live.captureWrite
  (repeat' split) <;> simp (maxDischargeDepth := 20) [h]

@[simp] theorem Live.captureLeave_keeps (h : Keeps T old s) (how : Leaving) (r : Roller) : Keeps T old (Live.captureLeave T how r s) := by
  unfold Live.captureLeave
  (repeat' split) <;> simp (maxDischargeDepth := 20) [h]

@[simp] theorem Live.captureEvent_keeps (h : Keeps T old s) (reason : EndReason) (r : Roller) : Keeps T old (Live.captureEvent reason r s) := by
  simp (maxDischargeDepth := 20) [Live.captureEvent, h]

@[simp] theorem Live.captureStop_keeps (h : Keeps T old s) (holder : Roller) (c : Capture) (reason : EndReason) (how : Roller → Leaving) : Keeps T old (Live.captureStop T holder c reason how s) := by
  simp only [Live.captureStop]
  refine Keeps.foldl (fun x q hx => by simp [hx]) _ (Keeps.foldl (fun x q hx => by simp [hx]) _
    (Keeps.foldl (fun x q hx => by simp [hx]) _ (by simp [h])))

@[simp] theorem Live.captureReport_keeps (h : Keeps T old s) (holder : Roller) (c : Capture) (reason : EndReason) (axle : Nat) : Keeps T old (Live.captureReport T holder c reason axle s) := by
  simp (maxDischargeDepth := 20) [Live.captureReport, h]

@[simp] theorem Live.endCapture_keeps (h : Keeps T old s) (holder : Roller) (reason : EndReason) (how : Roller → Leaving) : Keeps T old (Live.endCapture T holder reason how s) := by
  unfold Live.endCapture
  (repeat' split) <;> simp (maxDischargeDepth := 20) [h]

@[simp] theorem Live.endAllCaptures_keeps (h : Keeps T old s) (reason : EndReason) : Keeps T old (Live.endAllCaptures T reason s) := by
  simp (maxDischargeDepth := 20) [Live.endAllCaptures, h]

@[simp] theorem Live.leaveTaring_keeps (h : Keeps T old s) (st : Station) (service : Bool) : Keeps T old (Live.leaveTaring T st service s) := by
  unfold Live.leaveTaring
  (repeat' split) <;> simp (maxDischargeDepth := 20) [h]

@[simp] theorem Live.tareDone_keeps (h : Keeps T old s) (st : Station) (c : TareContext) : Keeps T old (Live.tareDone T st c s) := by
  simp only [Live.tareDone]
  simp (maxDischargeDepth := 20) [h]

@[simp] theorem Live.dropTare_keeps (h : Keeps T old s) (st : Station) : Keeps T old (Live.dropTare st s) := by
  simp (maxDischargeDepth := 20) [Live.dropTare, h]

@[simp] theorem Live.tareAborted_keeps (h : Keeps T old s) (st : Station) (value : Int) : Keeps T old (Live.tareAborted T st value s) := by
  simp (maxDischargeDepth := 20) [Live.tareAborted, h]

@[simp] theorem Live.holdStation_keeps (h : Keeps T old s) (held : List Station) (st : Station) : Keeps T old (Live.holdStation T held s st) := by
  unfold Live.holdStation
  (repeat' split) <;> simp (maxDischargeDepth := 20) [h]

@[simp] theorem Live.holdStations_keeps (h : Keeps T old s) (held : List Station) : Keeps T old (Live.holdStations T held s) := by
  unfold Live.holdStations
  refine Keeps.foldl (fun x a hx => ?_) _ ?_ <;> simp (maxDischargeDepth := 20) [*]

@[simp] theorem Live.stopStation_keeps (h : Keeps T old s) (r : Roller) : Keeps T old (Live.stopStation T s r) := by
  unfold Live.stopStation
  (repeat' split) <;> simp (maxDischargeDepth := 20) [h]

@[simp] theorem Live.stopStations_keeps (h : Keeps T old s) : Keeps T old (Live.stopStations T s) := by
  unfold Live.stopStations
  refine Keeps.foldl (fun x a hx => ?_) _ ?_ <;> simp (maxDischargeDepth := 20) [*]

@[simp] theorem Live.releaseHold_keeps (h : Keeps T old s) (st : Station) : Keeps T old (Live.releaseHold T st s) := by
  simp only [Live.releaseHold]
  (repeat' split) <;> simp (maxDischargeDepth := 20) [h]

@[simp] theorem Live.releaseStations_keeps (h : Keeps T old s) : Keeps T old (Live.releaseStations T s) := by
  unfold Live.releaseStations
  refine Keeps.foldl (fun x a hx => ?_) _ h
  (repeat' split) <;> simp (maxDischargeDepth := 20) [hx]

end Sys2Proof.Machine
end

