-- ==== Sys2Proof/Laws/KeepsFaults.lean ====
section
/-! SUPPORT. What the fault action unit keeps: see Laws/Keeps.lean. -/

namespace Sys2Proof.Machine

variable {T : Tables} {old s : Live}

@[simp] theorem Live.giveOrders_keeps (h : Keeps T old s) (e : FaultEntry) : Keeps T old (Live.giveOrders T e s) := by
  unfold Live.giveOrders
  (repeat' split) <;> simp (maxDischargeDepth := 20) [h]

/-- An entry made for a source and scope that have none. -/
theorem Live.makeEntry_keeps (h : Keeps T old s) {e : FaultEntry} (hn : ∀ f ∈ s.faults, ¬ sameFault f e)
    (he : entryLaw e) : Keeps T old (s.makeEntry T e) := by
  have h1 : Keeps T old { s with faults := s.faults ++ [e] } := by
    refine h.faultList (fun l => ⟨?_, ?_⟩) ?_
    · refine List.pairwise_append.2 ⟨l.1, by simp, fun a ha b hb => ?_⟩
      simp only [List.mem_singleton] at hb
      subst hb
      exact hn a ha
    · intro f hf
      simp only [List.mem_append, List.mem_singleton] at hf
      rcases hf with hf | rfl
      · exact l.2 f hf
      · exact he
    · rintro - ⟨f, hf, hh⟩
      exact ⟨f, by simp [hf], hh⟩
  simp only [Live.makeEntry]
  split <;> simp (maxDischargeDepth := 20) [h1]

@[simp] theorem Live.markPresent_keeps (h : Keeps T old s) (src : Source) (scope : Scope) : Keeps T old (Live.markPresent src scope s) := by
  refine h.faultList (FaultLaw.map ?_ ?_ ?_) ?_
  · intro e; split <;> rfl
  · intro e; split <;> rfl
  · intro e he
    split
    · rename_i hc
      simp only [Bool.and_eq_true] at hc
      refine ⟨he.1, he.2.1, fun hx => ?_⟩
      rw [FaultEntry.is, Bool.and_eq_true, beq_iff_eq] at hc
      simp only at hx
      rw [hc.1.1, hc.2] at hx
      cases hx
    · exact he
  · rintro - ⟨e, hm, h1, h2, h3, h4⟩
    refine ⟨_, List.mem_map.2 ⟨e, hm, rfl⟩, ?_⟩
    split
    · exact ⟨h1, h2, h3, rfl⟩
    · exact ⟨h1, h2, h3, h4⟩

@[simp] theorem Live.raiseWith_keeps (h : Keeps T old s) (src : Source) (scope : Scope) (axle : Nat) (detail : Nat) : Keeps T old (Live.raiseWith T src scope axle detail s) := by
  unfold Live.raiseWith
  split
  · simp (maxDischargeDepth := 20) [h]
  · rename_i hf
    have hn : ∀ f ∈ s.faults, ∀ a p, ¬ sameFault f (newEntry src scope a p) := by
      intro f hm a p hs
      have := List.find?_eq_none.1 hf f hm
      simp [FaultEntry.is, hs.1, hs.2, newEntry] at this
    split
    · exact h
    · simp [h]
    · rename_i a h1 h2
      have he : entryLaw (newEntry src scope (T.actionFor src) (T.promptFor src)) := by
        refine ⟨?_, ?_, ?_⟩
        · simp only [newEntry]; cases ha : T.actionFor src <;> simp_all
        · intro hs; simp only [newEntry] at hs ⊢; subst hs; rfl
        · intro hc; exact hc
      exact Live.offerEvent_keeps (Live.makeEntry_keeps h (fun f hm => hn f hm _ _) he) _

@[simp] theorem Live.raise_keeps (h : Keeps T old s) (src : Source) (scope : Scope) (detail : Nat) : Keeps T old (Live.raise T src scope detail s) := by
  simp (maxDischargeDepth := 20) [Live.raise, h]

@[simp] theorem Live.raiseMistrack_keeps {x : Live × Bool} (h : Keeps T old x.1) (st : Station) : Keeps T old (Live.raiseMistrack T st x) := by
  unfold Live.raiseMistrack
  split <;> simp [h]

/-- Entries removed, ESTOP's not among them where it stands. -/
theorem Live.removeEntries_keeps (h : Keeps T old s) {p : FaultEntry → Bool}
    (hp : FaultLaw s → EstopEntry s → EstopEntry { s with faults := s.faults.filter fun e => !p e }) :
    Keeps T old (s.removeEntries T p) := by
  refine Keeps.foldl (fun x e hx => by simp [hx]) _ (h.faultList (fun l => ⟨l.1.filter _, ?_⟩) hp)
  intro e he
  exact l.2 e (List.mem_filter.1 he).1

@[simp] theorem Live.judgeEntrySilence_keeps (h : Keeps T old s) (i : Nat) : Keeps T old (Live.judgeEntrySilence T i s) := by
  unfold Live.judgeEntrySilence
  (repeat' split) <;> simp (maxDischargeDepth := 20) [h]

@[simp] theorem Live.judgeSilence_keeps (h : Keeps T old s) (st : Station) : Keeps T old (Live.judgeSilence T st s) := by
  unfold Live.judgeSilence
  refine Keeps.foldl (fun x a hx => ?_) _ h
  (repeat' split) <;> simp (maxDischargeDepth := 20) [hx]

@[simp] theorem Live.judgeReady_keeps (h : Keeps T old s) : Keeps T old (Live.judgeReady T s) := by
  unfold Live.judgeReady
  refine Keeps.foldl (fun x a hx => ?_) _ h
  (repeat' split) <;> simp (maxDischargeDepth := 20) [hx]

@[simp] theorem Live.startTare_keeps (h : Keeps T old s) (st : Station) : Keeps T old (Live.startTare T st s) := by
  unfold Live.startTare
  (repeat' split) <;> simp (maxDischargeDepth := 20) [h]

@[simp] theorem Live.coverIdle_keeps (h : Keeps T old s) (st : Station) : Keeps T old (Live.coverIdle T s st) := by
  unfold Live.coverIdle
  (repeat' split) <;> simp (maxDischargeDepth := 20) [h]

@[simp] theorem Live.bringUp_keeps (h : Keeps T old s) (st : Station) : Keeps T old (Live.bringUp T s st) := by
  unfold Live.bringUp
  (repeat' split) <;> simp (maxDischargeDepth := 20) [h]

@[simp] theorem Live.makeStale_keeps (h : Keeps T old s) (st : Station) : Keeps T old (Live.makeStale T s st) := by
  simp only [Live.makeStale]
  (repeat' split) <;> simp (maxDischargeDepth := 20) [h]

@[simp] theorem Live.presentTare_keeps (h : Keeps T old s) (st : Station) : Keeps T old (Live.presentTare T s st) := by
  simp only [Live.presentTare]
  (repeat' split) <;> simp (maxDischargeDepth := 20) [h]

end Sys2Proof.Machine
end

