-- ==== Sys2Proof/Laws/KeepsRequests.lean ====
section
/-! SUPPORT. What the requests to stations keep: see Laws/Keeps.lean. -/

namespace Sys2Proof.Machine

variable {T : Tables} {old s : Live}

@[simp] theorem Live.acceptSpin_keeps (h : Keeps T old s) (r : Roller) (manual : Bool) : Keeps T old (Live.acceptSpin T r manual s) := by
  simp only [Live.acceptSpin]
  simp (maxDischargeDepth := 20) [h]

@[simp] theorem Live.requestSpin_keeps (h : Keeps T old s) (r : Roller) (manual : Bool) : Keeps T old (Live.requestSpin T r manual s).2 := by
  unfold Live.requestSpin
  (repeat' split) <;> simp (maxDischargeDepth := 20) [h]

@[simp] theorem Live.enterMeasuring_keeps (h : Keeps T old s) (r : Roller) : Keeps T old (Live.enterMeasuring T r s) := by
  simp (maxDischargeDepth := 20) [Live.enterMeasuring, h]

@[simp] theorem Live.acceptCapture_keeps (h : Keeps T old s) (holder : Roller) (c : CaptureSettings) (m : Marks) : Keeps T old (Live.acceptCapture T holder c m s) := by
  simp only [Live.acceptCapture]
  refine Keeps.foldl (fun x a hx => ?_) _ ?_ <;> simp (maxDischargeDepth := 20) [*]

@[simp] theorem Live.requestCapture_keeps (h : Keeps T old s) (r : Roller) (c : CaptureSettings) (m : Marks) : Keeps T old (Live.requestCapture T r c m s).2 := by
  unfold Live.requestCapture
  (repeat' split) <;> simp (maxDischargeDepth := 20) [h]

@[simp] theorem Live.requestRelease_keeps (h : Keeps T old s) (r : Roller) : Keeps T old (Live.requestRelease T r s).2 := by
  unfold Live.requestRelease
  (repeat' split) <;> simp (maxDischargeDepth := 20) [h]

@[simp] theorem Live.acceptTare_keeps (h : Keeps T old s) (st : Station) (service : Bool) (clearBar : Bool) : Keeps T old (Live.acceptTare T st service clearBar s) := by
  simp only [Live.acceptTare]
  simp (maxDischargeDepth := 20) [h]

@[simp] theorem Live.requestTare_keeps (h : Keeps T old s) (st : Station) (clearBar : Bool) : Keeps T old (Live.requestTare T st clearBar s).2 := by
  unfold Live.requestTare
  (repeat' split) <;> simp (maxDischargeDepth := 20) [h]

@[simp] theorem Live.startWork_keeps (h : Keeps T old s) (st : Station) (a : Answer) : Keeps T old (Live.startWork T st a s) := by
  unfold Live.startWork
  (repeat' split) <;> simp (maxDischargeDepth := 20) [h]

@[simp] theorem Live.startCapture_keeps (h : Keeps T old s) (r : Roller) (c : CaptureSettings) (a : Answer) : Keeps T old (Live.startCapture T r c a s) := by
  unfold Live.startCapture
  refine Keeps.foldl (fun x a hx => ?_) _ h
  simp (maxDischargeDepth := 20) [hx]

@[simp] theorem Live.beginTare_keeps (h : Keeps T old s) (st : Station) (a : Answer) : Keeps T old (Live.beginTare T st a s) := by
  unfold Live.beginTare
  (repeat' split) <;> simp (maxDischargeDepth := 20) [h]

end Sys2Proof.Machine
end

