-- ==== Sys2Proof/Laws/KeepsDelivery.lean ====
section
/-! SUPPORT. What delivered values keep: see Laws/Keeps.lean. -/

namespace Sys2Proof.Machine

variable {T : Tables} {old s : Live}

@[simp] theorem Live.reportExit_keeps (h : Keeps T old s) (r : Roller) : Keeps T old (Live.reportExit T r s).1 := by
  simp only [Live.reportExit]
  simp (maxDischargeDepth := 20) [h]

@[simp] theorem Live.raiseExitMistrack_keeps {x : Live × Bool} (h : Keeps T old x.1) (r : Roller) (axle : Nat) :
    Keeps T old (Live.raiseExitMistrack T r axle x) := by
  unfold Live.raiseExitMistrack
  split <;> simp [h]

@[simp] theorem Live.exitIfSeated_keeps (h : Keeps T old s) (r : Roller) : Keeps T old (Live.exitIfSeated T r s) := by
  unfold Live.exitIfSeated
  (repeat' split) <;> simp (maxDischargeDepth := 20) [h]

@[simp] theorem Live.axleLost_keeps (h : Keeps T old s) (r : Roller) : Keeps T old (Live.axleLost T r s) := by
  simp only [Live.axleLost]
  (repeat' split) <;> simp (maxDischargeDepth := 20) [h]

@[simp] theorem Live.tareRange_keeps (h : Keeps T old s) (st : Station) (c : TareContext) (entry : Nat) : Keeps T old (Live.tareRange T st c entry s) := by
  simp only [Live.tareRange]
  simp (maxDischargeDepth := 20) [h]

@[simp] theorem Live.tareTake_keeps (h : Keeps T old s) (st : Station) (entry : Nat) (cal : Int) : Keeps T old (Live.tareTake T st entry cal s) := by
  simp only [Live.tareTake]
  (repeat' split) <;> simp (maxDischargeDepth := 20) [h]

@[simp] theorem Live.tareInterrupted_keeps (h : Keeps T old s) (r : Roller) (sum : Int) : Keeps T old (Live.tareInterrupted T r sum s) := by
  simp only [Live.tareInterrupted]
  (repeat' split) <;> simp (maxDischargeDepth := 20) [h]

@[simp] theorem Live.judgeLoad_keeps (h : Keeps T old s) (r : Roller) : Keeps T old (Live.judgeLoad T r s) := by
  simp only [Live.judgeLoad]
  (repeat' split) <;> simp (maxDischargeDepth := 20) [h]

@[simp] theorem Live.takeLoad_keeps (h : Keeps T old s) (r : Roller) (d : Side) (v : Int) : Keeps T old (Live.takeLoad T r d v s) := by
  simp only [Live.takeLoad]
  (repeat' split) <;> simp (maxDischargeDepth := 20) [h]

@[simp] theorem Live.releaseComplete_keeps (h : Keeps T old s) (r : Roller) : Keeps T old (Live.releaseComplete T r s) := by
  simp only [Live.releaseComplete]
  (repeat' split) <;> simp (maxDischargeDepth := 20) [h]

@[simp] theorem Live.takeDrum_keeps (h : Keeps T old s) (r : Roller) (d : Side) (v : Int) : Keeps T old (Live.takeDrum T r d v s) := by
  simp only [Live.takeDrum]
  (repeat' split) <;> simp (maxDischargeDepth := 20) [h]

@[simp] theorem Live.goOn_keeps (h : Keeps T old s) (hr : Roller) (c : Capture) (e : Option EndReason) : Keeps T old (Live.goOn T hr c e s) := by
  simp only [Live.goOn]
  (repeat' split) <;> simp (maxDischargeDepth := 20) [h]

@[simp] theorem Live.takeForce_keeps (h : Keeps T old s) (r : Roller) (d : Side) (v : Int) : Keeps T old (Live.takeForce T r d v s) := by
  simp only [Live.takeForce]
  (repeat' split) <;> simp (maxDischargeDepth := 20) [h]

@[simp] theorem Live.takePedal_keeps (h : Keeps T old s) (r : Roller) (v : Int) : Keeps T old (Live.takePedal T r v s) := by
  unfold Live.takePedal
  (repeat' split) <;> simp (maxDischargeDepth := 20) [h]

@[simp] theorem Live.takeWheel_keeps (h : Keeps T old s) (r : Roller) (d : Side) (v : Int) : Keeps T old (Live.takeWheel T r d v s) := by
  simp only [Live.takeWheel]
  (repeat' split) <;> simp (maxDischargeDepth := 20) [h]

@[simp] theorem Live.deliverRoller_keeps (h : Keeps T old s) (r : Roller) (role : Role) (entry : Nat) (cal : Int) (v : Int) : Keeps T old (Live.deliverRoller T r role entry cal v s) := by
  simp only [Live.deliverRoller]
  (repeat' split) <;> simp (maxDischargeDepth := 20) [h]

@[simp] theorem Live.startCrossing_keeps (h : Keeps T old s) (d : Direction) : Keeps T old (Live.startCrossing T d s) := by
  simp (maxDischargeDepth := 20) [Live.startCrossing, h]

@[simp] theorem Live.endCrossing_keeps (h : Keeps T old s) (c : Crossing) : Keeps T old (Live.endCrossing T c s) := by
  simp only [Live.endCrossing]
  (repeat' split) <;> simp (maxDischargeDepth := 20) [h]

@[simp] theorem Live.riseInTare_keeps (h : Keeps T old s) (d : Direction) : Keeps T old (Live.riseInTare T d s) := by
  simp only [Live.riseInTare]
  (repeat' split) <;> simp (maxDischargeDepth := 20) [h]

@[simp] theorem Live.takeContact_keeps (h : Keeps T old s) (d : Direction) (closed : Bool) : Keeps T old (Live.takeContact T d closed s) := by
  simp only [Live.takeContact]
  (repeat' split) <;> simp (maxDischargeDepth := 20) [h]

@[simp] theorem Live.takeDisplacement_keeps (h : Keeps T old s) (entry : Nat) (cal : Int) (v : Int) : Keeps T old (Live.takeDisplacement T entry cal v s) := by
  simp only [Live.takeDisplacement]
  (repeat' split) <;> simp (maxDischargeDepth := 20) [h]

end Sys2Proof.Machine
end

