-- ==== Sys2Proof/Laws/KeepsSteering.lean ====
section
/-! SUPPORT. What the steering unit keeps: see Laws/Keeps.lean. -/

namespace Sys2Proof.Machine

variable {T : Tables} {old s : Live}

@[simp] theorem Live.updChannel_keeps (h : Keeps T old s) (i : Nat) (f : ChannelState → ChannelState) : Keeps T old (Live.updChannel i f s) := by
  unfold Live.updChannel
  (repeat' split) <;> simp (maxDischargeDepth := 20) [h]

@[simp] theorem Live.judgeWindow_keeps (h : Keeps T old s) (i : Nat) (e : ChannelEntry) (v : Int) : Keeps T old (Live.judgeWindow T i e v s).1 := by
  simp only [Live.judgeWindow]
  (repeat' split) <;> simp (maxDischargeDepth := 20) [h]

@[simp] theorem Live.judgeGuard_keeps (h : Keeps T old s) (v : Int) : Keeps T old (Live.judgeGuard T v s) := by
  simp only [Live.judgeGuard]
  (repeat' split) <;> simp (maxDischargeDepth := 20) [h]

@[simp] theorem Live.deliver_keeps (h : Keeps T old s) (i : Nat) (e : ChannelEntry) (cal : Int) (v : Int) : Keeps T old (Live.deliver T i e cal v s) := by
  unfold Live.deliver
  (repeat' split) <;> simp (maxDischargeDepth := 20) [h]

@[simp] theorem Live.takeSample_keeps (h : Keeps T old s) (i : Nat) (e : ChannelEntry) (x : Half) : Keeps T old (Live.takeSample T i e s x) := by
  simp only [Live.takeSample]
  (repeat' split) <;> simp (maxDischargeDepth := 20) [h]

@[simp] theorem Live.endSilence_keeps (h : Keeps T old s) (i : Nat) (e : ChannelEntry) : Keeps T old (Live.endSilence T i e s) := by
  simp only [Live.endSilence]
  (repeat' split) <;> simp (maxDischargeDepth := 20) [h]

@[simp] theorem Live.fallSilent_keeps (h : Keeps T old s) (i : Nat) : Keeps T old (Live.fallSilent T i s) := by
  simp (maxDischargeDepth := 20) [Live.fallSilent, h]

@[simp] theorem Live.offerMirrorOf_keeps (h : Keeps T old s) (n : Nat) (f : Frame) : Keeps T old (Live.offerMirrorOf T n f s) := by
  unfold Live.offerMirrorOf
  split
  · simp [h]
  · refine Keeps.foldl (fun x a hx => Live.offerEvent_keeps hx _) _ (Live.offerMirror_keeps (Live.setUp_keeps (Live.chosen_keeps h) ?_ ?_) _)
    · intro b; rw [List.length_take]; exact (Nat.min_le_right _ _).trans b
    · exact (List.take_sublist _ _).countP_le

@[simp] theorem Live.mirror_keeps (h : Keeps T old s) (i : Nat) (e : ChannelEntry) (raw : Frame) (values : List Int) (n : Nat) : Keeps T old (Live.mirror T i e raw values n s) := by
  simp only [Live.mirror]
  (repeat' split) <;> simp (maxDischargeDepth := 20) [h]

@[simp] theorem Live.takeSamples_keeps (i : Nat) (e : ChannelEntry) :
    ∀ (l : List Half) {s : Live}, Keeps T old s → Keeps T old (Live.takeSamples T i e l s).1
  | [], _, h => h
  | x :: l, _, h => Live.takeSamples_keeps i e l (Live.takeSample_keeps h i e x)

@[simp] theorem Live.steer1_keeps (h : Keeps T old s) (i : Nat) (e : ChannelEntry) (raw : Frame) (samples : List Half) : Keeps T old (Live.steer1 T i e raw samples s) :=
  Live.mirror_keeps (Live.takeSamples_keeps _ _ _ (Live.endSilence_keeps h _ _)) _ _ _ _ _

@[simp] theorem Live.startSteering_keeps (h : Keeps T old s) : Keeps T old (Live.startSteering T s) := by
  simp (maxDischargeDepth := 20) [Live.startSteering, h]

@[simp] theorem Live.stopSteering_keeps (h : Keeps T old s) : Keeps T old (Live.stopSteering s) := by
  exact Keeps.foldl (fun x a hx => by simp [hx]) _ (Live.setPS_keeps (Live.setSteer_keeps h _) _)

@[simp] theorem Live.checkGuardEntry_keeps (h : Keeps T old s) : Keeps T old (Live.checkGuardEntry T s) := by
  simp only [Live.checkGuardEntry]
  (repeat' split) <;> simp (maxDischargeDepth := 20) [h]

@[simp] theorem Live.stationsUnsteered_keeps (h : Keeps T old s) : Keeps T old (Live.stationsUnsteered T s) := by
  exact Keeps.foldl (fun x a hx => by simp [hx]) _ (Live.setSteer_keeps h _)

@[simp] theorem Live.stationsSteered_keeps (h : Keeps T old s) : Keeps T old (Live.stationsSteered T s) := by
  exact Live.setSteer_keeps h _

@[simp] theorem Live.steerLaneReset_keeps (h : Keeps T old s) : Keeps T old (Live.steerLaneReset s) := by
  simp (maxDischargeDepth := 20) [Live.steerLaneReset, h]

end Sys2Proof.Machine
end

