-- ==== Sys2Proof/Laws/KeepsPlanWalk.lean ====
section
/-! SUPPORT. What taking a unit keeps: see Laws/Keeps.lean. -/

namespace Sys2Proof.Machine

variable {T : Tables} {old s : Live}

@[simp] theorem Live.planClose_keeps (h : Keeps T old s) : Keeps T old (Live.planClose T s) := by
  simp (maxDischargeDepth := 20) [Live.planClose, h]

@[simp] theorem Live.seqWaits_keeps (h : Keeps T old s) (w : SeqWait) (st : Station) : Keeps T old (Live.seqWaits T w st s) := by
  simp (maxDischargeDepth := 20) [Live.seqWaits, h]

@[simp] theorem Live.seqAnswered_keeps (h : Keeps T old s) (st : Station) (w : Option SeqWait) (a : Answer) : Keeps T old (Live.seqAnswered T st w a s) := by
  unfold Live.seqAnswered
  (repeat' split) <;> simp (maxDischargeDepth := 20) [h]

@[simp] theorem Live.takeSpin_keeps (h : Keeps T old s) (r : Roller) (wait : Bool) : Keeps T old (Live.takeSpin T r wait s) := by
  simp only [Live.takeSpin]
  simp (maxDischargeDepth := 20) [h]

@[simp] theorem Live.takeRelease_keeps (h : Keeps T old s) (r : Roller) (wait : Bool) : Keeps T old (Live.takeRelease T r wait s) := by
  simp only [Live.takeRelease]
  simp (maxDischargeDepth := 20) [h]

@[simp] theorem Live.takeTare_keeps (h : Keeps T old s) (st : Station) (wait : Bool) : Keeps T old (Live.takeTare T st wait s) := by
  simp only [Live.takeTare]
  simp (maxDischargeDepth := 20) [h]

@[simp] theorem Live.takeCapture_keeps (h : Keeps T old s) (p : Plan) (u : PlanUnit) (r : Roller) (b : List Byte) : Keeps T old (Live.takeCapture T p u r b s) := by
  simp only [Live.takeCapture]
  (repeat' split) <;> simp (maxDischargeDepth := 20) [h]

@[simp] theorem Live.takePrompt_keeps (h : Keeps T old s) (n : Nat) (stepEnd : Bool) : Keeps T old (Live.takePrompt T n stepEnd s) := by
  simp only [Live.takePrompt]
  (repeat' split) <;> simp (maxDischargeDepth := 20) [h]

@[simp] theorem Live.takeAdvance_keeps (h : Keeps T old s) (p : Plan) : Keeps T old (Live.takeAdvance T p s) := by
  unfold Live.takeAdvance
  (repeat' split) <;> simp (maxDischargeDepth := 20) [h]

@[simp] theorem Live.takeAwait_keeps (h : Keeps T old s) (c : AwaitCondition) (st : Station) (timeout : Nat) (halt : Bool) : Keeps T old (Live.takeAwait T c st timeout halt s) := by
  simp (maxDischargeDepth := 20) [Live.takeAwait, h]

theorem Live.onRoller_keeps (h : Keeps T old s) (st : Station) {f : Roller → Live → Live}
    (hf : ∀ r, Keeps T old (f r s)) : Keeps T old (Live.onRoller T st f s) := by
  unfold Live.onRoller
  split
  · exact hf _
  · simp [h]

@[simp] theorem Live.takeStep_keeps (h : Keeps T old s) (p : Plan) (u : PlanUnit) : Keeps T old (Live.takeStep T p u s) := by
  unfold Live.takeStep
  split <;> first | exact Live.onRoller_keeps h _ (fun r => by simp [h]) | simp [h]

@[simp] theorem Live.takeSkipped_keeps (h : Keeps T old s) (u : PlanUnit) (b : List Byte) : Keeps T old (Live.takeSkipped u b s) := by
  simp only [Live.takeSkipped]
  exact Live.setSeq_keeps (Keeps.foldl (fun x st hx => by simp [hx]) _ h) _

@[simp] theorem Live.judgeUnit_keeps (h : Keeps T old s) (p : Plan) (u : PlanUnit) : Keeps T old (Live.judgeUnit T p u s) := by
  unfold Live.judgeUnit
  (repeat' split) <;> simp (maxDischargeDepth := 20) [h]

@[simp] theorem Live.takeUnit_keeps (h : Keeps T old s) : Keeps T old (Live.takeUnit T s) := by
  unfold Live.takeUnit
  (repeat' split) <;> simp (maxDischargeDepth := 20) [h]

@[simp] theorem Live.awaitExpires_keeps (h : Keeps T old s) (c : AwaitCondition) (st : Station) (halt : Bool) : Keeps T old (Live.awaitExpires T c st halt s) := by
  unfold Live.awaitExpires
  (repeat' split) <;> simp (maxDischargeDepth := 20) [h]

@[simp] theorem Live.takeConfirm_keeps (h : Keeps T old s) : Keeps T old (Live.takeConfirm T s) := by
  unfold Live.takeConfirm
  (repeat' split) <;> simp (maxDischargeDepth := 20) [h]

@[simp] theorem Live.takeRepeat_keeps (h : Keeps T old s) : Keeps T old (Live.takeRepeat T s) := by
  unfold Live.takeRepeat
  (repeat' split) <;> simp (maxDischargeDepth := 20) [h]

@[simp] theorem Live.armSkip_keeps (h : Keeps T old s) : Keeps T old (Live.armSkip T s) := by
  unfold Live.armSkip
  (repeat' split) <;> simp (maxDischargeDepth := 20) [h]

@[simp] theorem Live.skipCurrent_keeps (h : Keeps T old s) (r : Roller) : Keeps T old (Live.skipCurrent T r s) := by
  unfold Live.skipCurrent
  (repeat' split) <;> simp (maxDischargeDepth := 20) [h]

@[simp] theorem Live.takeSkip_keeps (h : Keeps T old s) : Keeps T old (Live.takeSkip T s) := by
  unfold Live.takeSkip
  (repeat' split) <;> simp (maxDischargeDepth := 20) [h]

end Sys2Proof.Machine
end

