-- ==== Sys2Proof/Laws/KeepsPrint.lean ====
section
/-! SUPPORT. What the composer and the print line keep: see Laws/Keeps.lean. -/

namespace Sys2Proof.Machine

variable {T : Tables} {old s : Live}

/-- A write of the printer unit: slots leave the print queue but none joins, and the job's law stays. -/
theorem Live.setPrinter_keeps (h : Keeps T old s) {p : Printer}
    (hq : (p.queue.map (·.slot)).Sublist (s.printer.queue.map (·.slot))) (hj : s.printer.jobLaw → p.jobLaw) :
    Keeps T old (s.setPrinter p) := by
  refine h.trans ⟨rfl, rfl, fun _ => id, id, fun _ => id, fun l => ⟨l.1, l.2.1.sublist hq, ?_, hj l.2.2.2⟩⟩
  intro e he
  obtain ⟨f, hf, hs⟩ := List.mem_map.1 (hq.subset (List.mem_map_of_mem he))
  have := l.2.2.1 f hf
  rw [hs] at this
  exact this

/-- A write of the printer unit that leaves queue, job and composer. -/
@[simp] theorem Live.setPrinter_keeps_job (h : Keeps T old s) {p : Printer} (hq : p.queue = s.printer.queue)
    (hj : p.job = s.printer.job) (hc : p.composer = s.printer.composer) : Keeps T old (s.setPrinter p) :=
  Live.setPrinter_keeps h (by rw [hq]) fun l j hx => by
    have := l j (hj ▸ hx)
    exact ⟨by simpa [Printer.underWay, hc] using this.1, hq ▸ this.2⟩

/-- Without a job the job's law holds. -/
theorem Printer.jobLaw_none {p : Printer} (h : p.job = none) : p.jobLaw := fun j hj => by rw [h] at hj; cases hj

@[simp] theorem Printer.setBuffer_queue (n : BufferName) (b : BandBuffer) (p : Printer) :
    (p.setBuffer n b).queue = p.queue := by cases n <;> rfl

@[simp] theorem Printer.setBuffer_composer (n : BufferName) (b : BandBuffer) (p : Printer) :
    (p.setBuffer n b).composer = p.composer := by cases n <;> rfl

@[simp] theorem Printer.setBuffer_job (n : BufferName) (b : BandBuffer) (p : Printer) :
    (p.setBuffer n b).job = p.job := by cases n <;> rfl

@[simp] theorem Printer.beginBand_queue (p : Printer) : p.beginBand.queue = p.queue := by
  simp only [Printer.beginBand]
  (repeat' split) <;> simp

@[simp] theorem Printer.beginBand_composer (p : Printer) : p.beginBand.composer = p.composer := by
  simp only [Printer.beginBand]
  (repeat' split) <;> simp

/-- The composition of a band begins: the job stays that of its slot. -/
theorem Printer.beginBand_job {p : Printer} {j : Job} (h : p.beginBand.job = some j) :
    ∃ i, p.job = some i ∧ i.slot = j.slot := by
  unfold Printer.beginBand at h
  split at h
  · rename_i i hi
    simp only at h
    split at h
    · rw [Printer.setBuffer_job] at h
      cases h
      exact ⟨i, hi, rfl⟩
    · exact ⟨j, h, rfl⟩
  · exact ⟨j, h, rfl⟩

theorem Printer.beginBand_jobLaw {p : Printer} (h : p.jobLaw) : p.beginBand.jobLaw := by
  intro j hj
  obtain ⟨i, hi, hs⟩ := Printer.beginBand_job hj
  have := h i hi
  exact ⟨by simpa [Printer.underWay] using this.1, by simpa [hs] using this.2⟩

@[simp] theorem Live.offerEvent_printer (f : Frame) : (s.offerEvent f).printer = s.printer := by
  unfold Live.offerEvent
  split <;> rfl

@[simp] theorem Live.event_printer (c : EventCode) (st : Option Station) (a v : Nat) :
    (s.event c st a v).printer = s.printer := Live.offerEvent_printer _

@[simp] theorem Live.setPrintQueue_printer (q : List PrintEntry) :
    (s.setPrintQueue q).printer = { s.printer with queue := q } := by
  simp only [Live.setPrintQueue]
  split <;> rfl

/-- The printer unit written after an EVENT, or before it. -/
theorem Live.event_setPrinter (c : EventCode) (st : Option Station) (a v : Nat) (p : Printer) :
    (s.event c st a v).setPrinter p = (s.setPrinter p).event c st a v := by
  by_cases hc : s.chain.up.length < Config.upCapacity <;>
    simp [Live.event, Live.offerEvent, Live.setPrinter, Live.setUp, Live.setSticky, hc]

/-- The printer unit written after its queue: the queue's write leaves COMPOSER_FREE alone. -/
theorem Live.setPrintQueue_setPrinter (q : List PrintEntry) (p : Printer) :
    (s.setPrintQueue q).setPrinter p =
      if q.isEmpty then (s.setPrinter p).setSticky { s.mgmt.sticky with composerFree := true } else s.setPrinter p := by
  simp only [Live.setPrintQueue]
  split <;> rfl



@[simp] theorem Live.startJob_keeps (h : Keeps T old s) : Keeps T old (Live.startJob T s) := by
  simp only [Live.startJob]
  split
  · exact h
  · rename_i e rest hq
    split
    · refine Live.setPrinter_keeps h (by simp) fun _ => Printer.beginBand_jobLaw fun j hj => ?_
      simp only [Option.some.injEq] at hj
      subst hj
      exact ⟨rfl, by simp [hq]⟩
    · exact h

theorem Live.setPrintQueue_keeps (h : Keeps T old s) {q : List PrintEntry}
    (hq : (q.map (·.slot)).Sublist (s.printer.queue.map (·.slot)))
    (hj : s.printer.jobLaw → Printer.jobLaw { s.printer with queue := q }) : Keeps T old (s.setPrintQueue q) := by
  have h1 : Keeps T old (s.setPrinter { s.printer with queue := q }) := Live.setPrinter_keeps h hq hj
  simp only [Live.setPrintQueue]
  split <;> simp [h1]

/-- The head entry judged after a fault: there is no job any more. -/
theorem Live.spendRestart_keeps (h : Keeps T old s) (hn : s.printer.job = none) :
    Keeps T old s.spendRestart ∧ s.spendRestart.printer.job = none := by
  unfold Live.spendRestart
  split
  · exact ⟨h, hn⟩
  · rename_i e rest hq
    split
    · exact ⟨Live.setPrinter_keeps h (by simp [hq]) fun _ => Printer.jobLaw_none hn, hn⟩
    · refine ⟨Live.event_keeps (Live.setPrintQueue_keeps (q := rest) h (by simp [hq]) fun _ => Printer.jobLaw_none hn) _ _ _ _, ?_⟩
      simpa using hn

@[simp] theorem Live.abandonJob_keeps (h : Keeps T old s) : Keeps T old (Live.abandonJob s) := by
  simp only [Live.abandonJob]
  split
  · have h1 : Keeps T old (s.setPrinter (s.printer.abandon s.lines.bandAck)) :=
      Live.setPrinter_keeps h (.refl _) fun _ => Printer.jobLaw_none rfl
    have h2 := Live.spendRestart_keeps h1 rfl
    exact Live.setPrinter_keeps h2.1 (.refl _) fun _ => Printer.jobLaw_none h2.2
  · exact h

@[simp] theorem Live.printerFault_keeps (h : Keeps T old s) : Keeps T old (Live.printerFault T s) := by
  simp only [Live.printerFault]
  (repeat' split) <;> simp (maxDischargeDepth := 20) [h]

@[simp] theorem Live.becomeReady_keeps (h : Keeps T old s) : Keeps T old (Live.becomeReady T s) := by
  simp only [Live.becomeReady]
  split
  · have h1 : Keeps T old (if s.printer.fault then
        (s.setPrinter { s.printer with fault := false }).endCondition .printer .lane else s) := by
      split
      · simp [h]
      · exact h
    generalize (if s.printer.fault then
        (s.setPrinter { s.printer with fault := false }).endCondition .printer .lane else s) = x at h1
    split
    · rename_i hp
      split
      · refine Live.setPrinter_keeps h1 (.refl _) fun l => Printer.jobLaw_none ?_
        cases hj : x.printer.job with
        | none => rfl
        | some j => have := (l j hj).1; simp [Printer.underWay, hp] at this
      · simp [h1]
    · exact h1
  · exact h

/-- The end of the job of the printer unit. -/
theorem Live.endJob_keeps (h : Keeps T old s) {j : Job} (hj : s.printer.job = some j) : Keeps T old (s.endJob j) := by
  have h1 : Keeps T old (s.setSlot j.slot (issue (s.records.slots.get j.slot))) := by
    refine Live.setSlot_keeps h fun ⟨⟨h1, h2⟩, h3, h4, h5⟩ => ?_
    have hh := (h5 j hj).2
    have hs : s.slotState j.slot = .closed ∨ s.slotState j.slot = .issued := by
      cases hq : s.printer.queue with
      | nil => rw [hq] at hh; cases hh
      | cons e q =>
        rw [hq] at hh
        simp only [List.head?_cons, Option.map_some, Option.some.injEq] at hh
        rw [← hh]
        exact h4 e (by simp [hq])
    have hself : (s.setSlot j.slot (issue (s.records.slots.get j.slot))).slotState j.slot = .issued := by
      simp [Live.slotState, Live.setSlot, issue]
    have hne : ∀ k, k ≠ j.slot →
        (s.setSlot j.slot (issue (s.records.slots.get j.slot))).slotState k = s.slotState k := fun k hk => by
      simp [Live.slotState, Live.setSlot, Four.get_set_of_ne _ _ hk]
    refine ⟨⟨?_, ?_⟩, h3, ?_, h5⟩
    · intro a b ha hb
      by_cases hai : a = j.slot
      · subst hai; rw [hself] at ha; cases ha
      · by_cases hbi : b = j.slot
        · subst hbi; rw [hself] at hb; cases hb
        · rw [hne a hai] at ha; rw [hne b hbi] at hb; exact h1 a b ha hb
    · intro k
      by_cases hk : k = j.slot
      · subst hk
        rw [hself]
        have hf : s.slotState j.slot ≠ .free := by rcases hs with h | h <;> rw [h] <;> decide
        have := (h2 j.slot).not.1 hf
        simpa [Live.setSlot, issue] using this
      · rw [hne k hk, h2]; simp [Live.setSlot, Four.get_set_of_ne _ _ hk]
    · intro e he
      by_cases hk : e.slot = j.slot
      · rw [hk, hself]; exact .inr rfl
      · rw [hne _ hk]; exact h4 e he
  simp only [Live.endJob]
  rw [Live.event_setPrinter, Live.setPrintQueue_setPrinter]
  have h2 : ∀ p : Printer, p.queue = (s.setSlot j.slot (issue (s.records.slots.get j.slot))).printer.queue.drop 1 →
      p.job = none → Keeps T old ((s.setSlot j.slot (issue (s.records.slots.get j.slot))).setPrinter p) := fun p hp hn =>
    Live.setPrinter_keeps h1 (by rw [hp]; exact (List.drop_sublist 1 _).map _) fun _ => Printer.jobLaw_none hn
  split
  · exact Live.event_keeps (Live.setSticky_keeps (h2 _ (by simp) rfl) _) _ _ _ _
  · exact Live.event_keeps (h2 _ (by simp) rfl) _ _ _ _

end Sys2Proof.Machine
end

