-- ==== Sys2Proof/Laws/KeepsManagement.lean ====
section
/-! SUPPORT. What table changes and the lane reset keep: see Laws/Keeps.lean. -/

namespace Sys2Proof.Machine

variable {T : Tables} {old s : Live}

/-- A write of the chain interface that leaves both queues. -/
theorem Keeps.chain (h : Keeps T old s) {x : Chain} (hu : x.up = s.chain.up) (hd : x.down = s.chain.down) :
    Keeps T old { s with chain := x } := h.same rfl rfl hu hd rfl rfl rfl rfl rfl rfl

@[simp] theorem Live.raiseNoise_keeps (h : Keeps T old s) (port : Port) : Keeps T old (Live.raiseNoise T port s) := by
  exact Live.raise_keeps (Keeps.chain (x := { s.chain with noise := true }) h rfl rfl) _ _ _

@[simp] theorem Live.rejudgeNoise_keeps (h : Keeps T old s) (before : Nat) : Keeps T old (Live.rejudgeNoise T before s) := by
  simp only [Live.rejudgeNoise]
  (repeat' split) <;> simp (maxDischargeDepth := 20) [h]

@[simp] theorem Live.rereadChain_keeps (h : Keeps T old s) (oldLimit : Nat) : Keeps T old (Live.rereadChain T oldLimit s) := by
  simp only [Live.rereadChain]
  refine Live.rejudgeNoise_keeps ?_ _
  split
  · exact Live.offerFreedUp_keeps (Live.setUp_keeps h (trimMirrors_length _ _).trans (trimMirrors_mirrors_le _ _))
  · exact h

@[simp] theorem Live.dropDriveFault_keeps (h : Keeps T old s) (r : Roller) : Keeps T old (Live.dropDriveFault s r) := by
  unfold Live.dropDriveFault
  (repeat' split) <;> simp (maxDischargeDepth := 20) [h]

@[simp] theorem Live.laneLeaves_keeps (h : Keeps T old s) (oldLimit : Nat) : Keeps T old (Live.laneLeaves T oldLimit s) := by
  refine Live.setGuide_keeps_queue (Live.stationsUnsteered_keeps ?_) rfl
  exact Keeps.foldl (fun x q hx => by simp [hx]) _ (Keeps.foldl (fun x st hx => by simp [hx]) _ (by simp [h]))

@[simp] theorem Live.laneBecomes_keeps (h : Keeps T old s) (oldLimit : Nat) : Keeps T old (Live.laneBecomes T oldLimit s) := by
  refine Live.render_keeps (Live.allDirty_keeps (Live.setGuide_keeps_queue (Live.stationsSteered_keeps ?_) rfl))
  refine Keeps.foldl (fun x st hx => by simp [hx]) _ ?_
  split
  · simp [h]
  · exact Keeps.foldl (fun x st hx => by simp [hx]) _ (by simp [h])

@[simp] theorem Live.regionLeaves_keeps (h : Keeps T old s) (oldLimit : Nat) (n : RegionName) : Keeps T old (Live.regionLeaves T oldLimit n s) := by
  simp only [Live.regionLeaves]
  (repeat' split) <;> simp (maxDischargeDepth := 20) [h]

@[simp] theorem Live.regionBecomes_keeps (h : Keeps T old s) (oldLimit : Nat) (n : RegionName) : Keeps T old (Live.regionBecomes T oldLimit n s) := by
  simp only [Live.regionBecomes]
  (repeat' split) <;> simp (maxDischargeDepth := 20) [h]

@[simp] theorem linkWindow_keeps (h : Keeps T old s) : Keeps T old (linkWindow T s).2 := by
  simp only [linkWindow]
  split <;> simp [h]

@[simp] theorem Live.chainLaneReset_keeps (h : Keeps T old s) : Keeps T old (Live.chainLaneReset s) := by
  have h1 : Keeps T old (s.setUp (flushMirrors s.chain.up)).offerFreedUp :=
    Live.offerFreedUp_keeps (Live.setUp_keeps h (flushMirrors_length _).trans (flushMirrors_mirrors_le _))
  exact Live.offerFreedDown_keeps (Live.setDown_keeps h1 (dropHost_length _).trans)

@[simp] theorem Live.tareLaneReset_keeps (h : Keeps T old s) (st : Station) : Keeps T old (Live.tareLaneReset T st s) := by
  simp only [Live.tareLaneReset]
  simp (maxDischargeDepth := 20) [h]

@[simp] theorem Live.stationLaneReset_keeps (h : Keeps T old s) (st : Station) : Keeps T old (Live.stationLaneReset T s st) := by
  simp only [Live.stationLaneReset]
  (repeat' split) <;> simp (maxDischargeDepth := 20) [h]

@[simp] theorem Live.recordLaneReset_keeps (h : Keeps T old s) : Keeps T old (Live.recordLaneReset T s) := by
  simp only [Live.recordLaneReset]
  (repeat' split) <;> simp (maxDischargeDepth := 20) [h]

@[simp] theorem Live.faultsLaneReset_keeps (h : Keeps T old s) : Keeps T old (Live.faultsLaneReset T s) := by
  refine Live.guideLaneReset_keeps (Live.releaseStations_keeps (h.faultList (fun l => ⟨l.1.filter _, fun e he => ?_⟩) ?_)) _
  · exact l.2 e (List.mem_filter.1 he).1
  · rintro - ⟨e, he, h1, h2, h3, h4⟩
    exact ⟨e, List.mem_filter.2 ⟨he, by simp [h3]⟩, h1, h2, h3, h4⟩

@[simp] theorem Live.laneReset_keeps (h : Keeps T old s) : Keeps T old (Live.laneReset T s) := by
  refine Live.steerLaneReset_keeps (Live.seqEmpty_keeps (Live.faultsLaneReset_keeps ?_))
  exact Keeps.foldl (fun x st hx => by simp [hx]) _ (by simp [h])

end Sys2Proof.Machine
end

