-- ==== Sys2Proof/Laws/KeepsFrames.lean ====
section
/-! SUPPORT. What frames at the ports keep: see Laws/Keeps.lean. -/

namespace Sys2Proof.Machine

variable {T : Tables} {old s : Live}


@[simp] theorem Live.countBad_keeps (h : Keeps T old s) (port : Port) : Keeps T old (Live.countBad port s) := by
  cases port
  · exact (Keeps.chain (x := { s.chain with badUp := s.chain.badUp + 1 }) h rfl rfl).mgmt _
  · exact (Keeps.chain (x := { s.chain with badDown := s.chain.badDown + 1 }) h rfl rfl).mgmt _

@[simp] theorem Live.badFrame_keeps (h : Keeps T old s) (port : Port) : Keeps T old (Live.badFrame T port s) := by
  simp only [Live.badFrame]
  (repeat' split) <;> simp (maxDischargeDepth := 20) [h]

@[simp] theorem Live.windowEnds_keeps (h : Keeps T old s) : Keeps T old (Live.windowEnds T s) := by
  simp only [Live.windowEnds]
  split
  · exact Live.endCondition_keeps (Keeps.chain h (by rfl) (by rfl)) (by decide) _
  · exact Keeps.chain h (by rfl) (by rfl)

@[simp] theorem Live.offerHost_keeps (h : Keeps T old s) (f : Frame) : Keeps T old (Live.offerHost f s) := by
  unfold Live.offerHost
  split
  · rename_i ht; exact Live.admitDown?_keeps h ht
  · simp [h]

@[simp] theorem Live.filtered_keeps (h : Keeps T old s) (st : Option Station) (dest : Nat) : Keeps T old (Live.filtered st dest s) := by
  simp (maxDischargeDepth := 20) [Live.filtered, h]

@[simp] theorem Live.hostFrame_keeps (h : Keeps T old s) (f : Frame) : Keeps T old (Live.hostFrame T f s) := by
  simp only [Live.hostFrame]
  (repeat' split) <;> simp (maxDischargeDepth := 20) [h]

@[simp] theorem takeKeepalive_keeps (h : Keeps T old s) : Keeps T old (takeKeepalive T s).2 := by
  simp only [takeKeepalive]
  (repeat' split) <;> simp (maxDischargeDepth := 20) [h]

@[simp] theorem Live.bufferRequest_keeps (h : Keeps T old s) (payload : List Byte) : Keeps T old (Live.bufferRequest payload s) := by
  unfold Live.bufferRequest
  (repeat' split) <;> simp (maxDischargeDepth := 20) [h]

@[simp] theorem takeUp_keeps (h : Keeps T old s) (f : Frame) : Keeps T old (takeUp f T s).2 := by
  unfold takeUp
  (repeat' split) <;> simp (maxDischargeDepth := 20) [h]

@[simp] theorem Live.sampleFrame_keeps (h : Keeps T old s) (f : Frame) (channel : Byte) (samples : List Half) : Keeps T old (Live.sampleFrame T f channel samples s) := by
  unfold Live.sampleFrame
  (repeat' split) <;> simp (maxDischargeDepth := 20) [h]

@[simp] theorem Live.headStatus_keeps (h : Keeps T old s) (r : Roller) (drive : Nat) (code : Nat) : Keeps T old (Live.headStatus T r drive code s) := by
  simp only [Live.headStatus]
  (repeat' split) <;> simp (maxDischargeDepth := 20) [h]

@[simp] theorem Live.button_keeps (h : Keeps T old s) (code : Nat) : Keeps T old (Live.button T code s) := by
  unfold Live.button
  (repeat' split) <;> simp (maxDischargeDepth := 20) [h]

@[simp] theorem Live.takeDown_keeps (h : Keeps T old s) (f : Frame) : Keeps T old (Live.takeDown f T s) := by
  unfold Live.takeDown
  (repeat' split) <;> simp (maxDischargeDepth := 20) [h]

@[simp] theorem Live.upSent_keeps (h : Keeps T old s) : Keeps T old (Live.upSent s) := by
  unfold Live.upSent
  split
  · exact h
  · rename_i f rest hq
    refine Live.offerFreedUp_keeps (Live.setUp_keeps h (fun hb => ?_) ?_)
    · rw [hq] at hb; simp at hb; omega
    · rw [hq]; simp [mirrorCount, List.countP_cons]

@[simp] theorem Live.downSent_keeps (h : Keeps T old s) : Keeps T old (Live.downSent s) := by
  unfold Live.downSent
  split
  · exact h
  · rename_i f rest hq
    exact Live.offerFreedDown_keeps (Live.setDown_keeps h fun hb => by rw [hq] at hb; simp at hb; omega)

end Sys2Proof.Machine
end

