-- ==== Sys2Proof/Laws/KeepsTableRequests.lean ====
section
/-! SUPPORT. What the management requests keep: see Laws/Keeps.lean. -/

namespace Sys2Proof.Machine

variable {T : Tables} {old s : Live}

@[simp] theorem refuse_keeps (h : Keeps T old s) (U : Tables) (x : Status) : Keeps T old (refuse U s x).live := h

@[simp] theorem accept_keeps (h : Keeps T old s) (U : Tables) (d : List Byte) : Keeps T old (accept U s d).live := h

@[simp] theorem unknownRequest_keeps (h : Keeps T old s) (a : List Byte) : Keeps T old (unknownRequest T a s).live := by
  simp (maxDischargeDepth := 20) [unknownRequest, h]

@[simp] theorem statusRequest_keeps (h : Keeps T old s) (a : List Byte) : Keeps T old (statusRequest T a s).live := by
  unfold statusRequest
  (repeat' split) <;> simp (maxDischargeDepth := 20) [h]

@[simp] theorem Live.changeMode_keeps (h : Keeps T old s) (m : LaneMode) : Keeps T old (Live.changeMode T m s) := by
  have h1 := Keeps.mode h m
  simp only [Live.changeMode]
  split
  · refine Keeps.foldl (fun x st hx => ?_) _ h1
    split <;> simp [hx]
  · split
    · exact Keeps.foldl (fun x st hx => by simp [hx]) _ h1
    · exact h1

@[simp] theorem laneModeRequest_keeps (h : Keeps T old s) (a : List Byte) : Keeps T old (laneModeRequest T a s).live := by
  unfold laneModeRequest
  (repeat' split) <;> simp (maxDischargeDepth := 20) [h]

@[simp] theorem windowRequest_keeps (h : Keeps T old s) (a : List Byte) : Keeps T old (windowRequest T a s).live := by
  simp only [windowRequest]
  (repeat' split) <;> simp (maxDischargeDepth := 20) [h]

theorem beginRegion_keeps {n : RegionName} {total : Nat} (h : Keeps (T.begin n total) old s) :
    Keeps (T.begin n total) old (beginRegion T n total s).live := by
  simp only [beginRegion]
  (repeat' split) <;> simp [h]

@[simp] theorem dataRegion_keeps (h : Keeps T old s) (n : RegionName) (offset : Nat) (data : List Byte) : Keeps T old (dataRegion T n offset data s).live := by
  unfold dataRegion
  (repeat' split) <;> simp (maxDischargeDepth := 20) [h]

@[simp] theorem tableDataRequest_keeps (h : Keeps T old s) (a : List Byte) : Keeps T old (tableDataRequest T a s).live := by
  unfold tableDataRequest
  (repeat' split) <;> simp (maxDischargeDepth := 20) [h]

theorem endRegion_keeps {n : RegionName} (check : Nat)
    (h : Keeps (T.finish n { state := .valid, content := (T.get n).content }) old s) :
    Keeps (T.finish n { state := .valid, content := (T.get n).content }) old (endRegion T n check s).live := by
  simp only [endRegion]
  (repeat' split) <;> simp [h]

@[simp] theorem tableAbortRequest_keeps (h : Keeps T old s) (a : List Byte) : Keeps T old (tableAbortRequest T a s).live := by
  unfold tableAbortRequest
  (repeat' split) <;> simp (maxDischargeDepth := 20) [h]

@[simp] theorem readRegion_keeps (h : Keeps T old s) (n : RegionName) (offset : Nat) (count : Nat) : Keeps T old (readRegion T n offset count s).live := by
  simp only [readRegion]
  (repeat' split) <;> simp (maxDischargeDepth := 20) [h]

@[simp] theorem tableReadRequest_keeps (h : Keeps T old s) (a : List Byte) : Keeps T old (tableReadRequest T a s).live := by
  unfold tableReadRequest
  (repeat' split) <;> simp (maxDischargeDepth := 20) [h]

@[simp] theorem readItem_keeps (h : Keeps T old s) (i : Fin 4) (item : Nat) (next : Bool) : Keeps T old (readItem T i item next s).live := by
  simp only [readItem]
  (repeat' split) <;> simp (maxDischargeDepth := 20) [h]

@[simp] theorem recordReadRequest_keeps (h : Keeps T old s) (a : List Byte) : Keeps T old (recordReadRequest T a s).live := by
  unfold recordReadRequest
  (repeat' split) <;> simp (maxDischargeDepth := 20) [h]

@[simp] theorem laneResetRequest_keeps (h : Keeps T old s) (a : List Byte) : Keeps T old (laneResetRequest T a s).live := by
  unfold laneResetRequest
  split <;> simp [h]

@[simp] theorem upFlushRequest_keeps (h : Keeps T old s) (a : List Byte) : Keeps T old (upFlushRequest T a s).live := by
  unfold upFlushRequest
  split
  · exact Live.offerFreedUp_keeps (Live.setUp_keeps h (flushMirrors_length _).trans (flushMirrors_mirrors_le _))
  · exact h

end Sys2Proof.Machine
end

