-- ==== Sys2Proof/Laws/KeepsLaneRequests.lean ====
section
/-! SUPPORT. What the lane requests keep: see Laws/Keeps.lean. -/

namespace Sys2Proof.Machine

variable {T : Tables} {old s : Live}

/-- A record opened in a FREE slot while none is OPEN. -/
theorem Live.openRecordIn_keeps (h : Keeps T old s) {i : Fin 4} (r : VehicleRecord) (hi : s.slotState i = .free)
    (ho : ∀ j, s.slotState j ≠ .opened) : Keeps T old (s.openRecordIn i r) := by
  have h1 : Keeps T old (s.setSlot i { state := .opened, record := some r }) := by
    refine Live.setSlot_keeps h fun ⟨⟨h1, h2⟩, h3, h4, h5⟩ => ?_
    have hself : (s.setSlot i { state := .opened, record := some r }).slotState i = .opened := by
      simp [Live.slotState, Live.setSlot]
    have hne : ∀ k, k ≠ i →
        (s.setSlot i { state := .opened, record := some r }).slotState k = s.slotState k := fun k hk => by
      simp [Live.slotState, Live.setSlot, Four.get_set_of_ne _ _ hk]
    refine ⟨⟨?_, ?_⟩, h3, ?_, h5⟩
    · intro a b ha hb
      by_cases hai : a = i
      · by_cases hbi : b = i
        · rw [hai, hbi]
        · rw [hne b hbi] at hb; exact absurd hb (ho b)
      · rw [hne a hai] at ha; exact absurd ha (ho a)
    · intro k
      by_cases hk : k = i
      · subst hk; rw [hself]; simp [Live.setSlot]
      · rw [hne k hk, h2]; simp [Live.setSlot, Four.get_set_of_ne _ _ hk]
    · intro e he
      have := h4 e he
      by_cases hk : e.slot = i
      · rw [hk, hi] at this; rcases this with h | h <;> cases h
      · rw [hne _ hk]; exact this
  simp only [Live.openRecordIn]
  split <;> simp [h1]

theorem Live.openSlot_none (h : s.openSlot.isSome = false) (j : Fin 4) : s.slotState j ≠ .opened := by
  intro hj
  have hn : s.openSlot = none := by simpa using h
  have := List.find?_eq_none.1 hn j (by fin_cases j <;> simp [fourIndices])
  rw [Live.slotState] at hj
  simp [hj] at this

theorem Live.freeSlot_state {i : Fin 4} (h : s.freeSlot = some i) : s.slotState i = .free := by
  simpa [Live.slotState] using List.find?_some h

@[simp] theorem vehicleBeginRequest_keeps (h : Keeps T old s) (a : List Byte) : Keeps T old (vehicleBeginRequest T a s).live := by
  simp only [vehicleBeginRequest]
  split
  · exact h
  · split
    · exact h
    · rename_i hno
      simp only [not_or, Bool.not_eq_true] at hno
      split
      · exact h
      · rename_i i hi
        have ho : ∀ r, Keeps T old (s.openRecordIn i r) := fun r =>
          Live.openRecordIn_keeps h r (Live.freeSlot_state hi) (Live.openSlot_none hno.1)
        (repeat' split) <;> simp [h, ho]

@[simp] theorem vehicleCloseRequest_keeps (h : Keeps T old s) (a : List Byte) : Keeps T old (vehicleCloseRequest T a s).live := by
  unfold vehicleCloseRequest
  (repeat' split) <;> simp (maxDischargeDepth := 20) [h]

@[simp] theorem vehicleAbortRequest_keeps (h : Keeps T old s) (a : List Byte) : Keeps T old (vehicleAbortRequest T a s).live := by
  unfold vehicleAbortRequest
  (repeat' split) <;> simp (maxDischargeDepth := 20) [h]

/-- A slot that is neither OPEN nor queued becomes FREE. -/
theorem Live.freeTheSlot_keeps (h : Keeps T old s) {i : Fin 4} (hq : s.printQueued i = false) :
    Keeps T old (s.freeTheSlot i) := by
  refine Keeps.mgmt (Live.setSlot_keeps h fun ⟨⟨h1, h2⟩, h3, h4, h5⟩ => ?_) _
  have hself : (s.setSlot i .empty).slotState i = .free := by simp [Live.slotState, Live.setSlot, RecordSlot.empty]
  have hne : ∀ k, k ≠ i → (s.setSlot i .empty).slotState k = s.slotState k := fun k hk => by
    simp [Live.slotState, Live.setSlot, Four.get_set_of_ne _ _ hk]
  refine ⟨⟨?_, ?_⟩, h3, ?_, h5⟩
  · intro a b ha hb
    by_cases hai : a = i
    · subst hai; rw [hself] at ha; cases ha
    · by_cases hbi : b = i
      · subst hbi; rw [hself] at hb; cases hb
      · rw [hne a hai] at ha; rw [hne b hbi] at hb; exact h1 a b ha hb
  · intro k
    by_cases hk : k = i
    · subst hk; rw [hself]; simp [Live.setSlot, RecordSlot.empty]
    · rw [hne k hk, h2]; simp [Live.setSlot, Four.get_set_of_ne _ _ hk]
  · intro e he
    have hk : e.slot ≠ i := by
      intro hk
      simp only [Live.printQueued, List.any_eq_false, beq_iff_eq] at hq
      exact hq e he hk
    rw [hne _ hk]
    exact h4 e he

@[simp] theorem recordReleaseRequest_keeps (h : Keeps T old s) (a : List Byte) : Keeps T old (recordReleaseRequest T a s).live := by
  simp only [recordReleaseRequest]
  split
  · exact h
  · split
    · exact h
    · rename_i hb
      simp only [Bool.or_eq_true, not_or, Bool.not_eq_true] at hb
      split
      · exact h
      · exact Live.freeTheSlot_keeps h hb.1

@[simp] theorem stationReply_keeps (h : Keeps T old s) (st : Station) (a : Answer) : Keeps T old (stationReply T st a s).live := by
  unfold stationReply
  (repeat' split) <;> simp (maxDischargeDepth := 20) [h]

theorem onRollerRequest_keeps (h : Keeps T old s) (a : List Byte) {f : Roller → Answered}
    (hf : ∀ r, Keeps T old (f r).live) : Keeps T old (onRollerRequest T a f s).live := by
  unfold onRollerRequest
  (repeat' split) <;> simp [h, hf]



@[simp] theorem stationSpinRequest_keeps (h : Keeps T old s) (a : List Byte) : Keeps T old (stationSpinRequest T a s).live := by
  unfold stationSpinRequest
  split
  · exact h
  · exact onRollerRequest_keeps h a fun r => by simp (maxDischargeDepth := 20) [h]

@[simp] theorem stationCaptureRequest_keeps (h : Keeps T old s) (a : List Byte) : Keeps T old (stationCaptureRequest T a s).live := by
  simp only [stationCaptureRequest]
  split
  · exact h
  · exact onRollerRequest_keeps h a fun r => by split <;> simp (maxDischargeDepth := 20) [h]

@[simp] theorem stationReleaseRequest_keeps (h : Keeps T old s) (a : List Byte) : Keeps T old (stationReleaseRequest T a s).live := by
  unfold stationReleaseRequest
  split
  · exact h
  · exact onRollerRequest_keeps h a fun r => by simp (maxDischargeDepth := 20) [h]

@[simp] theorem stationTareRequest_keeps (h : Keeps T old s) (a : List Byte) : Keeps T old (stationTareRequest T a s).live := by
  simp only [stationTareRequest]
  (repeat' split) <;> simp (maxDischargeDepth := 20) [h]

@[simp] theorem clearedReply_keeps (h : Keeps T old s) (p : FaultEntry → Bool) (removed : Nat) : Keeps T old (clearedReply T p removed s).live := by
  unfold clearedReply
  split <;> exact h

@[simp] theorem clearJudged_keeps (h : Keeps T old s) (p : FaultEntry → Bool) : Keeps T old (clearJudged T p s).live := by
  refine clearedReply_keeps (Live.releaseStations_keeps (Live.removeEntries_keeps h ?_)) _ _
  rintro - ⟨e, he, h1, h2, h3, h4⟩
  exact ⟨e, List.mem_filter.2 ⟨he, by simp [h4]⟩, h1, h2, h3, h4⟩

@[simp] theorem clearFaultRequest_keeps (h : Keeps T old s) (a : List Byte) : Keeps T old (clearFaultRequest T a s).live := by
  unfold clearFaultRequest
  (repeat' split) <;> simp (maxDischargeDepth := 20) [h]

@[simp] theorem resumeRequest_keeps (h : Keeps T old s) (a : List Byte) : Keeps T old (resumeRequest T a s).live := by
  simp only [resumeRequest]
  split
  · exact h
  · refine clearedReply_keeps ?_ _ _
    have h1 : Keeps T old ((s.removeEntries T fun e => e.action == .stop && !e.present).releaseStations T) := by
      refine Live.releaseStations_keeps (Live.removeEntries_keeps h ?_)
      rintro - ⟨e, he, h1, h2, h3, h4⟩
      exact ⟨e, List.mem_filter.2 ⟨he, by simp [h4]⟩, h1, h2, h3, h4⟩
    split <;> simp [h1]

/-- The lockout cleared while no LOCK's condition is present. -/
theorem Live.clearLocks_keeps (h : Keeps T old s) (hp : s.faults.find? (fun e => isLock e && e.present) = none) :
    Keeps T old (s.clearLocks T) := by
  have h1 : Keeps T old (s.removeEntries T isLock) := by
    refine Live.removeEntries_keeps h ?_
    rintro - ⟨e, he, -, -, h3, h4⟩
    have := List.find?_eq_none.1 hp e he
    simp [isLock, h3, h4] at this
  refine Live.seqUnlock_keeps (Live.releaseStations_keeps ?_)
  exact Keeps.foldl (fun x st hx => by simp [hx]) _ (Keeps.foldl (fun x st hx => by simp [hx]) _ h1)

@[simp] theorem clearLockoutRequest_keeps (h : Keeps T old s) (a : List Byte) : Keeps T old (clearLockoutRequest T a s).live := by
  unfold clearLockoutRequest
  split
  · exact h
  · split
    · exact h
    · split
      · exact h
      · rename_i hp
        split
        · exact Live.clearLocks_keeps h hp
        · exact h

@[simp] theorem promptPostRequest_keeps (h : Keeps T old s) (a : List Byte) : Keeps T old (promptPostRequest T a s).live := by
  unfold promptPostRequest
  dsimp only
  (repeat' split) <;> simp [h]

@[simp] theorem clearAllPrompts_keeps (h : Keeps T old s) : Keeps T old (clearAllPrompts T s).live := by
  exact Live.setQueue_keeps h (List.length_filter_le _ _).trans

@[simp] theorem clearPrompt_keeps (h : Keeps T old s) (n : Nat) : Keeps T old (clearPrompt T n s).live := by
  unfold clearPrompt
  split
  · exact h
  · split
    · exact Live.setQueue_keeps h (List.length_filter_le _ _).trans
    · exact h

@[simp] theorem promptClearRequest_keeps (h : Keeps T old s) (a : List Byte) : Keeps T old (promptClearRequest T a s).live := by
  unfold promptClearRequest
  (repeat' split) <;> simp (maxDischargeDepth := 20) [h]

@[simp] theorem printRequest_keeps (h : Keeps T old s) (a : List Byte) : Keeps T old (printRequest T a s).live := by
  simp only [printRequest]
  split
  · exact h
  · rename_i i hi
    split
    · exact h
    · rename_i hs
      split
      · exact h
      · rename_i hq
        refine Live.appendPrint_keeps h (fun _ => ?_) fun _ hm => ?_
        · simp only [Live.slotState]; by_contra hx; simp only [not_or] at hx; exact hs hx
        · obtain ⟨e, he, hk⟩ := List.mem_map.1 hm
          exact hq (List.any_eq_true.2 ⟨e, he, by simpa using hk⟩)

@[simp] theorem Live.cancelPrint_keeps (h : Keeps T old s) (i : Fin 4) : Keeps T old (Live.cancelPrint i s) := by
  have hsub : (((s.printer.queue.filter fun e => e.slot != i)).map (·.slot)).Sublist (s.printer.queue.map (·.slot)) :=
    List.filter_sublist.map _
  simp only [Live.cancelPrint]
  split
  · rw [Live.setPrintQueue_setPrinter]
    have h1 : ∀ p : Printer, p.queue = (s.printer.queue.filter fun e => e.slot != i) → p.job = none →
        Keeps T old (s.setPrinter p) := fun p hp hn =>
      Live.setPrinter_keeps h (by rw [hp]; exact hsub) fun _ => Printer.jobLaw_none hn
    split
    · exact Live.setSticky_keeps (h1 _ (by simp [Printer.abandon]) rfl) _
    · exact h1 _ (by simp [Printer.abandon]) rfl
  · rename_i hc
    refine Live.setPrintQueue_keeps h hsub fun l j hj => ?_
    obtain ⟨hu, hh⟩ := l j hj
    refine ⟨hu, ?_⟩
    simp only [Live.printHead, hu, Bool.and_true, beq_iff_eq, hh] at hc
    cases hq : s.printer.queue with
    | nil => rw [hq] at hh; cases hh
    | cons e q =>
      rw [hq] at hh
      simp only [List.head?_cons, Option.map_some, Option.some.injEq] at hh
      have hne : e.slot ≠ i := fun hx => hc (by rw [← hh, hx])
      rw [List.filter_cons_of_pos (by simpa using hne)]
      exact congrArg some hh

@[simp] theorem printCancelRequest_keeps (h : Keeps T old s) (a : List Byte) : Keeps T old (printCancelRequest T a s).live := by
  unfold printCancelRequest
  (repeat' split) <;> simp (maxDischargeDepth := 20) [h]

end Sys2Proof.Machine
end

