-- ==== Sys2Proof/Laws/KeepsTimers.lean ====
section
/-! SUPPORT. What the expiries keep: see Laws/Keeps.lean. -/

namespace Sys2Proof.Machine

variable {T : Tables} {old s : Live}

@[simp] theorem Live.tareTick_keeps (h : Keeps T old s) (st : Station) : Keeps T old (Live.tareTick T st s) := by
  simp only [Live.tareTick]
  (repeat' split) <;> simp (maxDischargeDepth := 20) [h]

@[simp] theorem Live.settle_keeps (h : Keeps T old s) (r : Roller) : Keeps T old (Live.settle T r s) := by
  simp only [Live.settle]
  split <;> simp (maxDischargeDepth := 20) [h]

@[simp] theorem Live.releaseExpires_keeps (h : Keeps T old s) (r : Roller) : Keeps T old (Live.releaseExpires T r s) := by
  simp only [Live.releaseExpires]
  simp (maxDischargeDepth := 20) [h]

@[simp] theorem Live.refresh_keeps (h : Keeps T old s) : Keeps T old (Live.refresh T s) := by
  simp only [Live.refresh]
  (repeat' split) <;> simp (maxDischargeDepth := 20) [h]

end Sys2Proof.Machine
end

