-- ==== Sys2Proof/Laws/KeepsLines.lean ====
section
/-! SUPPORT. What the print line events keep: see Laws/Keeps.lean. -/

namespace Sys2Proof.Machine

variable {T : Tables} {old s : Live}

@[simp] theorem Live.bandComposed_keeps (h : Keeps T old s) (n : BufferName) : Keeps T old (Live.bandComposed T n s) := by
  simp only [Live.bandComposed]
  split
  · refine Live.setPrinter_keeps h (by simp) fun l => Printer.beginBand_jobLaw fun j hj => ?_
    simp only [Printer.setBuffer_job] at hj
    exact ⟨by simpa [Printer.underWay] using (l j hj).1, by simpa using (l j hj).2⟩
  · exact h

@[simp] theorem Live.bandTaken_keeps (h : Keeps T old s) : Keeps T old (Live.bandTaken s) := by
  unfold Live.bandTaken
  split
  · have h1 : Keeps T old (s.setPrinter { s.printer with bandReq := false, timer := some 0, line := .taken }) := by
      simp [h]
    dsimp only
    split
    · rename_i j hj
      split
      · exact Live.endJob_keeps h1 hj
      · exact h1
    · exact h1
  · exact h

@[simp] theorem Live.ackExpires_keeps (h : Keeps T old s) : Keeps T old (Live.ackExpires T s) := by
  simp only [Live.ackExpires]
  simp (maxDischargeDepth := 20) [h]





end Sys2Proof.Machine
end

