-- ==== Sys2Proof/Laws/PerInstr.lean ====
section
/-! SUPPORT. A family of laws made per command: the frames that a well-formed command stands for are good frames (R4). -/

namespace Sys2Proof.Laws.GoodFrames

open Sys2Proof Sys2Proof.Machine

/-- The frame that a command stands for, with the port at which it is taken. HEAD_FRAME_PASSED_UP is left out: its frame is any
frame of a head, a bad one among them. -/
def carried (i : Instr) : List (Port × Frame) :=
  match i with
  | .mgmtFrame p => [(.up, hostToController kindMgmt p)]
  | .keepalive => [(.up, hostToController kindKeepalive [])]
  | .hostPassThrough f => [(.up, f)]
  | .sampleFrame src ch l => [(.down, headFrame src kindSample (samplePayload ch l))]
  | .headStatus src d c => [(.down, headFrame src kindHeadStatus [d, c])]
  | .buttonConfirm src => [(.down, headFrame src kindButton [byte buttonConfirmCode])]
  | .buttonRepeat src => [(.down, headFrame src kindButton [byte buttonRepeatCode])]
  | .buttonSkip src => [(.down, headFrame src kindButton [byte buttonSkipCode])]
  | .buttonUnknown src code => [(.down, headFrame src kindButton [code])]
  | .operatorStop src => [(.down, headFrame src kindButton [byte buttonStopCode])]
  | _ => []

/-- A well-formed command stands for no bad frame. -/
def Statement (i : Instr) : Prop := WellFormed i = true → ∀ x ∈ carried i, frameBad x.1 x.2 = false

/-- A BUTTON frame of one byte is a good frame. -/
theorem button_good (src code : Byte) : frameBad .down (headFrame src kindButton [code]) = false := by
  simp [frameBad, headFrame, fieldsBad, lengthFits, kindButton, kindSample, kindHeadStatus]

theorem mgmtFrame (p : List Byte) : Statement (.mgmtFrame p) := by
  intro h x hx
  simp only [carried, List.mem_singleton] at hx
  subst hx
  simp only [WellFormed, requestFits, payloadFits, Bool.and_eq_true, decide_eq_true_eq] at h
  have h1 : ¬ (p.length > 48) := by omega
  have h2 : 1 ≤ p.length ∧ p.length ≤ 48 := by omega
  simp [frameBad, hostToController, fieldsBad, lengthFits, h1, h2]

theorem keepalive : Statement .keepalive := by
  intro _ x hx
  simp only [carried, List.mem_singleton] at hx
  subst hx
  decide

theorem hostPassThrough (f : Frame) : Statement (.hostPassThrough f) := by
  intro h x hx
  simp only [carried, List.mem_singleton] at hx
  subst hx
  simp only [WellFormed, hostFrameFits, chainAddress, payloadFits, Bool.and_eq_true, decide_eq_true_eq] at h
  have h0 : f.dest ≠ 0 := fun k => by rw [k] at h; exact absurd h.1.1 (by decide)
  have h1 : ¬ (f.payload.length > 48) := by omega
  have h2 : f.dest ≠ 0#8 := h0
  simp [frameBad, fieldsBad, h2, h1]

theorem badFrame (port : Port) (bytes : List Byte) : Statement (Instr.badFrame port bytes) := by
  intro _ x hx; cases hx

theorem badFrameWindowEnd : Statement (.badFrameWindowEnd) := by
  intro _ x hx; cases hx

theorem sampleFrame (src ch : Byte) (l : List Half) : Statement (.sampleFrame src ch l) := by
  intro h x hx
  simp only [carried, List.mem_singleton] at hx
  subst hx
  simp only [WellFormed, samplesFit, Bool.and_eq_true, decide_eq_true_eq] at h
  have hl : (List.flatMap (fun x : Half => be16 x.toNat) l).length = 2 * l.length := by
    clear h
    induction l with
    | nil => rfl
    | cons a l ih => simp [be16]; omega
  have h1 : (byte l.length).toNat = l.length := by simp [byte]; omega
  simp [frameBad, headFrame, samplePayload, fieldsBad, lengthFits, hl, rd, h1, kindSample]
  omega

theorem headStatus (src d c : Byte) : Statement (.headStatus src d c) := by
  intro _ x hx
  simp only [carried, List.mem_singleton] at hx
  subst hx
  simp [frameBad, headFrame, fieldsBad, lengthFits, kindSample, kindHeadStatus]

theorem headFramePassedUp (frame : Frame) : Statement (Instr.headFramePassedUp frame) := by
  intro _ x hx; cases hx

theorem buttonConfirm (src : Byte) : Statement (.buttonConfirm src) := by
  intro _ x hx
  simp only [carried, List.mem_singleton] at hx
  subst hx
  exact button_good src _

theorem buttonRepeat (src : Byte) : Statement (.buttonRepeat src) := by
  intro _ x hx
  simp only [carried, List.mem_singleton] at hx
  subst hx
  exact button_good src _

theorem buttonSkip (src : Byte) : Statement (.buttonSkip src) := by
  intro _ x hx
  simp only [carried, List.mem_singleton] at hx
  subst hx
  exact button_good src _

theorem buttonUnknown (src code : Byte) : Statement (.buttonUnknown src code) := by
  intro _ x hx
  simp only [carried, List.mem_singleton] at hx
  subst hx
  exact button_good src code

theorem operatorStop (src : Byte) : Statement (.operatorStop src) := by
  intro _ x hx
  simp only [carried, List.mem_singleton] at hx
  subst hx
  exact button_good src _

theorem upFrameSent : Statement (.upFrameSent) := by
  intro _ x hx; cases hx

theorem downFrameSent : Statement (.downFrameSent) := by
  intro _ x hx; cases hx

theorem mgmtUnknownRequest : Statement (.mgmtUnknownRequest) := by
  intro _ x hx; cases hx

theorem status : Statement (.status) := by
  intro _ x hx; cases hx

theorem laneMode : Statement (.laneMode) := by
  intro _ x hx; cases hx

theorem window : Statement (.window) := by
  intro _ x hx; cases hx

theorem tableBegin : Statement (.tableBegin) := by
  intro _ x hx; cases hx

theorem tableData : Statement (.tableData) := by
  intro _ x hx; cases hx

theorem tableEnd : Statement (.tableEnd) := by
  intro _ x hx; cases hx

theorem tableAbort : Statement (.tableAbort) := by
  intro _ x hx; cases hx

theorem tableRead : Statement (.tableRead) := by
  intro _ x hx; cases hx

theorem recordRead : Statement (.recordRead) := by
  intro _ x hx; cases hx

theorem laneReset : Statement (.laneReset) := by
  intro _ x hx; cases hx

theorem upFlush : Statement (.upFlush) := by
  intro _ x hx; cases hx

theorem vehicleBegin : Statement (.vehicleBegin) := by
  intro _ x hx; cases hx

theorem vehicleClose : Statement (.vehicleClose) := by
  intro _ x hx; cases hx

theorem vehicleAbort : Statement (.vehicleAbort) := by
  intro _ x hx; cases hx

theorem recordRelease : Statement (.recordRelease) := by
  intro _ x hx; cases hx

theorem stationSpin : Statement (.stationSpin) := by
  intro _ x hx; cases hx

theorem stationCapture : Statement (.stationCapture) := by
  intro _ x hx; cases hx

theorem stationRelease : Statement (.stationRelease) := by
  intro _ x hx; cases hx

theorem stationTare : Statement (.stationTare) := by
  intro _ x hx; cases hx

theorem clearFault : Statement (.clearFault) := by
  intro _ x hx; cases hx

theorem resume : Statement (.resume) := by
  intro _ x hx; cases hx

theorem clearLockout : Statement (.clearLockout) := by
  intro _ x hx; cases hx

theorem promptPost : Statement (.promptPost) := by
  intro _ x hx; cases hx

theorem promptClear : Statement (.promptClear) := by
  intro _ x hx; cases hx

theorem print : Statement (.print) := by
  intro _ x hx; cases hx

theorem printCancel : Statement (.printCancel) := by
  intro _ x hx; cases hx

theorem sequencerTakeUnit : Statement (.sequencerTakeUnit) := by
  intro _ x hx; cases hx

theorem autoTare (station : Station) : Statement (Instr.autoTare station) := by
  intro _ x hx; cases hx

theorem keepaliveUpperExpiry : Statement (.keepaliveUpperExpiry) := by
  intro _ x hx; cases hx

theorem silenceLimit (entry : Nat) : Statement (Instr.silenceLimit entry) := by
  intro _ x hx; cases hx

theorem settleExpiry (roller : Roller) : Statement (Instr.settleExpiry roller) := by
  intro _ x hx; cases hx

theorem spinTimeout (roller : Roller) : Statement (Instr.spinTimeout roller) := by
  intro _ x hx; cases hx

theorem readyLapsed (roller : Roller) : Statement (Instr.readyLapsed roller) := by
  intro _ x hx; cases hx

theorem releaseTimeout (roller : Roller) : Statement (Instr.releaseTimeout roller) := by
  intro _ x hx; cases hx

theorem captureTimeout (roller : Roller) : Statement (Instr.captureTimeout roller) := by
  intro _ x hx; cases hx

theorem tareAgeTick (station : Station) : Statement (Instr.tareAgeTick station) := by
  intro _ x hx; cases hx

theorem awaitTimeout : Statement (.awaitTimeout) := by
  intro _ x hx; cases hx

theorem promptHoldExpiry : Statement (.promptHoldExpiry) := by
  intro _ x hx; cases hx

theorem refreshExpiry : Statement (.refreshExpiry) := by
  intro _ x hx; cases hx

theorem printJobStart : Statement (.printJobStart) := by
  intro _ x hx; cases hx

theorem bandComposed (buffer : BufferName) : Statement (Instr.bandComposed buffer) := by
  intro _ x hx; cases hx

theorem bandOffer : Statement (.bandOffer) := by
  intro _ x hx; cases hx

theorem bandAckRise (ready : Bool) : Statement (Instr.bandAckRise ready) := by
  intro _ x hx; cases hx

theorem bandAckFall (ready : Bool) : Statement (Instr.bandAckFall ready) := by
  intro _ x hx; cases hx

theorem ackTimeout : Statement (.ackTimeout) := by
  intro _ x hx; cases hx

theorem paperOutAsserted (ready : Bool) : Statement (Instr.paperOutAsserted ready) := by
  intro _ x hx; cases hx

theorem headHotAsserted (ready : Bool) : Statement (Instr.headHotAsserted ready) := by
  intro _ x hx; cases hx

theorem printerReady : Statement (.printerReady) := by
  intro _ x hx; cases hx

theorem estopAsserted : Statement (.estopAsserted) := by
  intro _ x hx; cases hx

theorem estopReleased : Statement (.estopReleased) := by
  intro _ x hx; cases hx

theorem resetAssert : Statement (.resetAssert) := by
  intro _ x hx; cases hx

theorem resetRelease (lines : InputLines) : Statement (Instr.resetRelease lines) := by
  intro _ x hx; cases hx

end Sys2Proof.Laws.GoodFrames
end

