-- ==== Sys2Proof/Laws/Quiet.lean ====
section
/-! SUPPORT. Two frames of the operations that a raise can reach. `Quiet old s`: what holds, stops, captures ending, steps
ending and prompts leave alone. `Still old s`: what the sequencer, the guidance unit and the record store leave alone of the
stations. Each operation has one lemma for each of the frames it has. -/

namespace Sys2Proof.Machine

/-- Up queues and indicators as they were. -/
theorem UpGrows.same {old s : Live} (h : s.chain.up = old.chain.up) (k : s.mgmt.sticky = old.mgmt.sticky) : UpGrows old s :=
  ⟨⟨[], by simp [h, originated]⟩, .inl k⟩

theorem UpGrows.refl (s : Live) : UpGrows s s := .same rfl rfl

theorem UpGrows.trans {r s t : Live} (h : UpGrows r s) (k : UpGrows s t) : UpGrows r t := by
  obtain ⟨⟨a, ha⟩, h⟩ := h
  obtain ⟨⟨b, hb⟩, k⟩ := k
  refine ⟨⟨a ++ b, by rw [hb, ha, originated, originated, originated, List.map_append, List.append_assoc]⟩, ?_⟩
  have hl : s.chain.up.length ≤ t.chain.up.length := by rw [hb, List.length_append]; omega
  rcases h with h | ⟨h1, h2⟩ <;> rcases k with k | ⟨k1, k2⟩
  · exact .inl (k.trans h)
  · exact .inr ⟨k1, by rw [k2, h]⟩
  · exact .inr ⟨by omega, by rw [k, h2]⟩
  · exact .inr ⟨k1, by rw [k2, h2]⟩

/-- An EVENT frame offered (R11). -/
theorem Live.offerEvent_up (s : Live) (f : Frame) : UpGrows s (s.offerEvent f) := by
  unfold Live.offerEvent
  split
  · exact ⟨⟨[f], rfl⟩, .inl rfl⟩
  · rename_i h
    exact ⟨⟨[], by simp [originated, Live.setSticky]⟩, .inr ⟨by simpa [Config.upCapacity, Live.setSticky] using h, rfl⟩⟩

/-- An EVENT frame offered is offered last (R11). -/
theorem Live.offerEvent_last (s : Live) (f : Frame) : sentLast f (s.offerEvent f) := by
  unfold Live.offerEvent
  split
  · exact .inl (by simp [Live.setUp])
  · rename_i h
    exact .inr ⟨by simpa [Config.upCapacity, Live.setSticky] using h, rfl⟩

theorem Quiet.refl (s : Live) : Quiet s s :=
  ⟨rfl, rfl, rfl, rfl, ⟨rfl, rfl, rfl, rfl⟩, rfl, .refl s, rfl, rfl, rfl, rfl, rfl, fun _ => rfl, fun _ => rfl⟩

theorem Quiet.trans {r s t : Live} (h : Quiet r s) (k : Quiet s t) : Quiet r t := by
  refine ⟨k.reset.trans h.reset, k.lines.trans h.lines, k.mode.trans h.mode, k.choices.trans h.choices, ?_, ?_, h.up.trans k.up, k.steer.trans h.steer,
    k.order.trans h.order, k.tracker.trans h.tracker, k.faults.trans h.faults, k.printer.trans h.printer,
    fun i => (k.slots i).trans (h.slots i), fun i => (k.records i).trans (h.records i)⟩
  · exact ⟨k.bad.1.trans h.bad.1, k.bad.2.1.trans h.bad.2.1, k.bad.2.2.1.trans h.bad.2.2.1, k.bad.2.2.2.trans h.bad.2.2.2⟩
  · have h1 := h.mgmt
    have k1 := k.mgmt
    rw [← h1, ← k1]

/-- An operation applied along a list leaves what each of its steps leaves. -/
theorem Quiet.foldl {α : Type} {old : Live} {f : Live → α → Live} (hf : ∀ x a, Quiet old x → Quiet old (f x a)) :
    ∀ (l : List α) {s : Live}, Quiet old s → Quiet old (l.foldl f s)
  | [], _, h => h
  | a :: l, _, h => Quiet.foldl hf l (hf _ a h)

variable {old s : Live} {T : Tables}

theorem Still.refl (s : Live) : Still s s := ⟨rfl, rfl, rfl⟩

theorem Still.foldl {α : Type} {old : Live} {f : Live → α → Live} (hf : ∀ x a, Still old x → Still old (f x a)) :
    ∀ (l : List α) {s : Live}, Still old s → Still old (l.foldl f s)
  | [], _, h => h
  | a :: l, _, h => Still.foldl hf l (hf _ a h)

theorem Still.stationState (h : Still old s) (st : Station) : s.stationState st = old.stationState st := by
  cases st <;> simp [Live.stationState, h.ps, h.ra, h.rb]

theorem Still.roller (h : Still old s) (r : Roller) : s.roller r = old.roller r := by
  cases r <;> simp [Live.roller, h.ra, h.rb]

/-! ## Writes of one part -/

@[simp] theorem Quiet.ps (h : Quiet old s) (x : PlateStation) : Quiet old { s with ps := x } :=
  h.trans ⟨rfl, rfl, rfl, rfl, ⟨rfl, rfl, rfl, rfl⟩, rfl, .same rfl rfl, rfl, rfl, rfl, rfl, rfl, fun _ => rfl, fun _ => rfl⟩

@[simp] theorem Quiet.ra (h : Quiet old s) (x : RollerStation) : Quiet old { s with ra := x } :=
  h.trans ⟨rfl, rfl, rfl, rfl, ⟨rfl, rfl, rfl, rfl⟩, rfl, .same rfl rfl, rfl, rfl, rfl, rfl, rfl, fun _ => rfl, fun _ => rfl⟩

@[simp] theorem Quiet.rb (h : Quiet old s) (x : RollerStation) : Quiet old { s with rb := x } :=
  h.trans ⟨rfl, rfl, rfl, rfl, ⟨rfl, rfl, rfl, rfl⟩, rfl, .same rfl rfl, rfl, rfl, rfl, rfl, rfl, fun _ => rfl, fun _ => rfl⟩

@[simp] theorem Live.setSeq_quiet (h : Quiet old s) (x : Seq) : Quiet old (s.setSeq x) :=
  h.trans ⟨rfl, rfl, rfl, rfl, ⟨rfl, rfl, rfl, rfl⟩, rfl, .same rfl rfl, rfl, rfl, rfl, rfl, rfl, fun _ => rfl, fun _ => rfl⟩

@[simp] theorem Live.setGuide_quiet (h : Quiet old s) (x : Guide) : Quiet old (s.setGuide x) :=
  h.trans ⟨rfl, rfl, rfl, rfl, ⟨rfl, rfl, rfl, rfl⟩, rfl, .same rfl rfl, rfl, rfl, rfl, rfl, rfl, fun _ => rfl, fun _ => rfl⟩

@[simp] theorem Live.setDown_quiet (h : Quiet old s) (x : List DownFrame) : Quiet old (s.setDown x) :=
  h.trans ⟨rfl, rfl, rfl, rfl, ⟨rfl, rfl, rfl, rfl⟩, rfl, .same rfl rfl, rfl, rfl, rfl, rfl, rfl, fun _ => rfl, fun _ => rfl⟩

@[simp] theorem Live.setRoller_quiet (h : Quiet old s) (q : Roller) (x : RollerStation) : Quiet old (s.setRoller q x) := by
  cases q <;> simp [Live.setRoller, h]

@[simp] theorem Live.putState_quiet (h : Quiet old s) (st : Station) (x : StationState) : Quiet old (s.putState st x) := by
  cases st <;> simp [Live.putState, h]

@[simp] theorem Live.setTare_quiet (h : Quiet old s) (st : Station) (x : Tare) : Quiet old (s.setTare st x) := by
  cases st <;> simp [Live.setTare, h]

@[simp] theorem Live.offerEvent_quiet (h : Quiet old s) (f : Frame) : Quiet old (s.offerEvent f) := by
  refine h.trans ⟨?_, ?_, ?_, ?_, ?_, ?_, s.offerEvent_up f, ?_, ?_, ?_, ?_, ?_, ?_, ?_⟩ <;>
    (unfold Live.offerEvent; split <;> first | rfl | exact ⟨rfl, rfl, rfl, rfl⟩ | exact fun _ => rfl)

@[simp] theorem Live.event_quiet (h : Quiet old s) (c : EventCode) (st : Option Station) (a v : Nat) :
    Quiet old (s.event c st a v) := Live.offerEvent_quiet h _

theorem Live.admitDown?_quiet (h : Quiet old s) {f : DownFrame} {t : Live} (ht : s.admitDown? f = some t) :
    Quiet old t := by
  unfold Live.admitDown? at ht
  split at ht
  · cases ht; simp [h]
  · cases ht

@[simp] theorem Live.setHeld_quiet (h : Quiet old s) (q : Roller) (f : Option Frame) : Quiet old (s.setHeld q f) :=
  Live.setRoller_quiet h _ _

@[simp] theorem Live.offerDrive_quiet (h : Quiet old s) (q : Roller) (start : Bool) : Quiet old (s.offerDrive T q start) := by
  simp only [Live.offerDrive]
  split
  · simp [h]
  · split
    · rename_i ht; exact Live.admitDown?_quiet h ht
    · simp [h]

/-- A write to the axles of the OPEN record. -/
theorem Live.updOpen_quiet (h : Quiet old s) {f : VehicleRecord → VehicleRecord} (hf : ∀ r, (f r).bare = r.bare) :
    Quiet old (s.updOpen f) := by
  unfold Live.updOpen
  split
  · rename_i i _
    refine h.trans ⟨rfl, rfl, rfl, rfl, ⟨rfl, rfl, rfl, rfl⟩, rfl, .same rfl rfl, rfl, rfl, rfl, rfl, rfl, fun j => ?_, fun j => ?_⟩
    · by_cases hj : j = i
      · subst hj; simp [Live.slotState, Live.setSlot]
      · simp [Live.slotState, Live.setSlot, Four.get_set_of_ne _ _ hj]
    · by_cases hj : j = i
      · subst hj; simp [Live.setSlot, Function.comp_def, hf]
      · simp [Live.setSlot, Four.get_set_of_ne _ _ hj]
  · exact h

theorem Live.updAxle_quiet (h : Quiet old s) (i : Nat) {f : AxleRecord → AxleRecord} (hf : ∀ a, (f a).bare = a.bare) :
    Quiet old (s.updAxle i f) := by
  refine Live.updOpen_quiet h fun r => ?_
  simp only [VehicleRecord.bare, VehicleRecord.updAxle, List.map_map]
  congr 1
  apply List.map_congr_left
  intro a _
  simp only [Function.comp]
  split
  · exact hf a
  · rfl

/-- A brake part written leaves the rest of the axle. -/
theorem AxleRecord.setBrake_bare (a : AxleRecord) (p : BrakePart) (x : Part BrakeResult) : (a.setBrake p x).bare = a.bare := by
  cases p <;> rfl

@[simp] theorem Live.setSeq_still (h : Still old s) (x : Seq) : Still old (s.setSeq x) := ⟨h.ps, h.ra, h.rb⟩

@[simp] theorem Live.setGuide_still (h : Still old s) (x : Guide) : Still old (s.setGuide x) := ⟨h.ps, h.ra, h.rb⟩

@[simp] theorem Live.offerEvent_still (h : Still old s) (f : Frame) : Still old (s.offerEvent f) := by
  unfold Live.offerEvent
  split <;> exact ⟨h.ps, h.ra, h.rb⟩

@[simp] theorem Live.event_still (h : Still old s) (c : EventCode) (st : Option Station) (a v : Nat) :
    Still old (s.event c st a v) := Live.offerEvent_still h _

theorem Live.admitDown?_still (h : Still old s) {f : DownFrame} {t : Live} (ht : s.admitDown? f = some t) : Still old t := by
  unfold Live.admitDown? at ht
  split at ht
  · cases ht; exact ⟨h.ps, h.ra, h.rb⟩
  · cases ht

@[simp] theorem Live.updOpen_still (h : Still old s) (f : VehicleRecord → VehicleRecord) : Still old (s.updOpen f) := by
  unfold Live.updOpen
  split
  · exact ⟨h.ps, h.ra, h.rb⟩
  · exact h

@[simp] theorem Live.updAxle_still (h : Still old s) (i : Nat) (f : AxleRecord → AxleRecord) : Still old (s.updAxle i f) :=
  Live.updOpen_still h _

end Sys2Proof.Machine
end

