-- ==== Sys2Proof/Laws/QuietBlocks.lean ====
section
/-! SUPPORT. What the guidance unit, the sequencer, the stations and the orders of the fault action unit leave alone: see Laws/Quiet.lean. -/

namespace Sys2Proof.Machine

variable {T : Tables} {old s : Live}

@[simp] theorem Live.markLine_quiet (h : Quiet old s) (i : Fin 4) : Quiet old (Live.markLine T i s) := by
  simp only [Live.markLine]
  (repeat' split) <;> simp (maxDischargeDepth := 20) [h]

@[simp] theorem Live.offerLine_quiet (h : Quiet old s) (i : Fin 4) : Quiet old (Live.offerLine T i s) := by
  simp only [Live.offerLine]
  split
  · split
    · rename_i ht; simp [Live.admitDown?_quiet h ht]
    · exact h
  · exact h

@[simp] theorem Live.render_quiet (h : Quiet old s) : Quiet old (Live.render T s) := by
  simp only [Live.render]
  have hm := Quiet.foldl (old := old) (f := fun x i => x.markLine T i) (fun x i hx => by simp [hx]) fourIndices h
  split
  · exact Quiet.foldl (fun x i hx => by simp [hx]) _ hm
  · exact hm

@[simp] theorem Live.allDirty_quiet (h : Quiet old s) : Quiet old (Live.allDirty s) := by
  simp only [Live.allDirty]
  simp (maxDischargeDepth := 20) [h]

@[simp] theorem Live.setQueue_quiet (h : Quiet old s) (q : List PromptEntry) : Quiet old (Live.setQueue T q s) := by
  simp only [Live.setQueue]
  (repeat' split) <;> simp (maxDischargeDepth := 20) [h]

@[simp] theorem Live.postPrompt_quiet (h : Quiet old s) (n : Nat) (origin : PromptOrigin) (stepEnd : Bool) (links : List (Source × Scope)) : Quiet old (Live.postPrompt T n origin stepEnd links s) := by
  simp only [Live.postPrompt]
  (repeat' split) <;> simp (maxDischargeDepth := 20) [h]

@[simp] theorem Live.unlink_quiet (h : Quiet old s) (src : Source) (scope : Scope) : Quiet old (Live.unlink T src scope s) := by
  simp (maxDischargeDepth := 20) [Live.unlink, h]

@[simp] theorem Live.stepEndRemoval_quiet (h : Quiet old s) (n : Nat) : Quiet old (Live.stepEndRemoval T n s) := by
  simp (maxDischargeDepth := 20) [Live.stepEndRemoval, h]

@[simp] theorem Live.offerBar_quiet (h : Quiet old s) (left : Nat) (right : Nat) : Quiet old (Live.offerBar T left right s) := by
  unfold Live.offerBar
  split
  · rename_i ht; exact Live.admitDown?_quiet h ht
  · exact h

@[simp] theorem Live.refreshBars_quiet (h : Quiet old s) : Quiet old (Live.refreshBars T s) := by
  simp only [Live.refreshBars]
  (repeat' split) <;> simp (maxDischargeDepth := 20) [h]

@[simp] theorem Live.judged_quiet (h : Quiet old s) {α : Type} (p : Part α) : Quiet old (Live.judged p s) := by
  simp (maxDischargeDepth := 20) [Live.judged, h]

@[simp] theorem Live.writeLoad_quiet (h : Quiet old s) (r : Roller) (manual : Bool) : Quiet old (Live.writeLoad r manual s) := by
  simp only [Live.writeLoad]
  (repeat' split)
  · exact h
  · refine Live.judged_quiet (Live.updAxle_quiet h _ ?_) _
    exact fun _ => rfl
  · exact h

@[simp] theorem Live.writeBrake_quiet (h : Quiet old s) (st : Station) (c : Capture) (v : BrakeResult) : Quiet old (Live.writeBrake T st c v s) := by
  simp only [Live.writeBrake]
  split
  · refine Live.judged_quiet (Live.updAxle_quiet h _ ?_) _
    exact fun _ => AxleRecord.setBrake_bare _ _ _
  · exact h

@[simp] theorem Live.markBrake_quiet (h : Quiet old s) (st : Station) (part : BrakePart) (f : Part BrakeResult → Part BrakeResult) : Quiet old (Live.markBrake st part f s) := by
  unfold Live.markBrake
  split
  · refine Live.updAxle_quiet h _ ?_
    exact fun _ => AxleRecord.setBrake_bare _ _ _
  · exact h

@[simp] theorem Live.buttonIgnored_quiet (h : Quiet old s) (code : Nat) : Quiet old (Live.buttonIgnored code s) := by
  simp (maxDischargeDepth := 20) [Live.buttonIgnored, h]

@[simp] theorem Live.seqHold_quiet (h : Quiet old s) (st : Station) : Quiet old (Live.seqHold st s) := by
  simp (maxDischargeDepth := 20) [Live.seqHold, h]

@[simp] theorem Live.seqHalt_quiet (h : Quiet old s) : Quiet old (Live.seqHalt T s) := by
  simp only [Live.seqHalt]
  (repeat' split) <;> simp (maxDischargeDepth := 20) [h]

@[simp] theorem Live.seqRest_quiet (h : Quiet old s) (x : SeqState) : Quiet old (Live.seqRest x s) := by
  simp (maxDischargeDepth := 20) [Live.seqRest, h]

@[simp] theorem Live.discardRepeat_quiet (h : Quiet old s) : Quiet old (Live.discardRepeat s) := by
  unfold Live.discardRepeat
  (repeat' split) <;> simp (maxDischargeDepth := 20) [h]

@[simp] theorem Live.actRepeat_quiet (h : Quiet old s) : Quiet old (Live.actRepeat T s) := by
  unfold Live.actRepeat
  (repeat' split) <;> simp (maxDischargeDepth := 20) [h]

@[simp] theorem Live.actPendingRepeat_quiet (h : Quiet old s) : Quiet old (Live.actPendingRepeat T s) := by
  unfold Live.actPendingRepeat
  (repeat' split) <;> simp (maxDischargeDepth := 20) [h]

@[simp] theorem Live.pauseNow_quiet (h : Quiet old s) : Quiet old (Live.pauseNow s) := by
  simp only [Live.pauseNow]
  simp (maxDischargeDepth := 20) [h]

@[simp] theorem Live.endStepPrompt_quiet (h : Quiet old s) (u : PlanUnit) : Quiet old (Live.endStepPrompt T u s) := by
  unfold Live.endStepPrompt
  (repeat' split) <;> simp (maxDischargeDepth := 20) [h]

@[simp] theorem Live.stepDone_quiet (h : Quiet old s) : Quiet old (Live.stepDone T s) := by
  simp only [Live.stepDone]
  (repeat' split) <;> simp (maxDischargeDepth := 20) [h]

@[simp] theorem Live.stepFailed_quiet (h : Quiet old s) (st : Station) : Quiet old (Live.stepFailed T st s) := by
  unfold Live.stepFailed
  (repeat' split) <;> simp (maxDischargeDepth := 20) [h]

@[simp] theorem Live.makeRestart_quiet (h : Quiet old s) (x : Restart) : Quiet old (Live.makeRestart T x s) := by
  simp only [Live.makeRestart]
  (repeat' split) <;> simp (maxDischargeDepth := 20) [h]

@[simp] theorem Live.judgeRestart_quiet (h : Quiet old s) (b x : Restart) : Quiet old (Live.judgeRestart T b x s) := by
  unfold Live.judgeRestart
  (repeat' split) <;> simp (maxDischargeDepth := 20) [h]

@[simp] theorem Live.captureBroken_quiet (h : Quiet old s) (b : Restart) : Quiet old (Live.captureBroken T b s) := by
  simp only [Live.captureBroken]
  (repeat' split) <;> simp (maxDischargeDepth := 20) [h]

@[simp] theorem Live.seqCaptureEnd_quiet (h : Quiet old s) (r : Roller) (c : Capture) (reason : EndReason) (axle : Nat) : Quiet old (Live.seqCaptureEnd T r c reason axle s) := by
  simp only [Live.seqCaptureEnd]
  (repeat' split) <;> simp (maxDischargeDepth := 20) [h]

@[simp] theorem Live.heldEnds_quiet (h : Quiet old s) : Quiet old (Live.heldEnds T s) := by
  unfold Live.heldEnds
  (repeat' split) <;> simp (maxDischargeDepth := 20) [h]

@[simp] theorem Live.waitSees_quiet (h : Quiet old s) (st : Station) : Quiet old (Live.waitSees T st s) := by
  simp only [Live.waitSees]
  (repeat' split) <;> simp (maxDischargeDepth := 20) [h]

@[simp] theorem Live.seqSees_quiet (h : Quiet old s) (st : Station) : Quiet old (Live.seqSees T st s) := by
  unfold Live.seqSees
  (repeat' split) <;> simp (maxDischargeDepth := 20) [h]

@[simp] theorem Live.enter_quiet (h : Quiet old s) (st : Station) (x : StationState) : Quiet old (Live.enter T st x s) := by
  simp (maxDischargeDepth := 20) [Live.enter, h]

@[simp] theorem Live.seqTareEnd_quiet (h : Quiet old s) (st : Station) (o : TareOutcome) : Quiet old (Live.seqTareEnd T st o s) := by
  unfold Live.seqTareEnd
  (repeat' split) <;> simp (maxDischargeDepth := 20) [h]

@[simp] theorem Live.seqExit_quiet (h : Quiet old s) (st : Station) : Quiet old (Live.seqExit T st s) := by
  unfold Live.seqExit
  (repeat' split) <;> simp (maxDischargeDepth := 20) [h]

@[simp] theorem Live.pauseOrder_quiet (h : Quiet old s) : Quiet old (Live.pauseOrder s) := by
  unfold Live.pauseOrder
  (repeat' split) <;> simp (maxDischargeDepth := 20) [h]

@[simp] theorem Live.lockOrder_quiet (h : Quiet old s) : Quiet old (Live.lockOrder s) := by
  simp only [Live.lockOrder]
  simp (maxDischargeDepth := 20) [h]

@[simp] theorem Live.seqResume_quiet (h : Quiet old s) : Quiet old (Live.seqResume T s) := by
  simp only [Live.seqResume]
  (repeat' split) <;> simp (maxDischargeDepth := 20) [h]

@[simp] theorem Live.seqEmpty_quiet (h : Quiet old s) : Quiet old (Live.seqEmpty s) := by
  unfold Live.seqEmpty
  (repeat' split) <;> simp (maxDischargeDepth := 20) [h]

@[simp] theorem Live.seqClosed_quiet (h : Quiet old s) : Quiet old (Live.seqClosed T s) := by
  unfold Live.seqClosed
  (repeat' split) <;> simp (maxDischargeDepth := 20) [h]

@[simp] theorem Live.seqBegin_quiet (h : Quiet old s) : Quiet old (Live.seqBegin s) := by
  unfold Live.seqBegin
  (repeat' split) <;> simp (maxDischargeDepth := 20) [h]

@[simp] theorem Live.seqUnlock_quiet (h : Quiet old s) : Quiet old (Live.seqUnlock s) := by
  unfold Live.seqUnlock
  (repeat' split) <;> simp (maxDischargeDepth := 20) [h]

@[simp] theorem Live.enterReleasing_quiet (h : Quiet old s) (r : Roller) : Quiet old (Live.enterReleasing T r s) := by
  simp only [Live.enterReleasing]
  simp (maxDischargeDepth := 20) [h]

@[simp] theorem Live.enterReady_quiet (h : Quiet old s) (r : Roller) : Quiet old (Live.enterReady T r s) := by
  simp (maxDischargeDepth := 20) [Live.enterReady, h]

@[simp] theorem Live.enterSettling_quiet (h : Quiet old s) (r : Roller) : Quiet old (Live.enterSettling T r s) := by
  simp only [Live.enterSettling]
  (repeat' split) <;> simp (maxDischargeDepth := 20) [h]

@[simp] theorem Live.enterStill_quiet (h : Quiet old s) (r : Roller) (x : StationState) : Quiet old (Live.enterStill T r x s) := by
  simp (maxDischargeDepth := 20) [Live.enterStill, h]

@[simp] theorem Live.faultDriven_quiet (h : Quiet old s) (r : Roller) : Quiet old (Live.faultDriven T r s) := by
  simp (maxDischargeDepth := 20) [Live.faultDriven, h]

@[simp] theorem Live.enterOffline_quiet (h : Quiet old s) (st : Station) : Quiet old (Live.enterOffline T st s) := by
  unfold Live.enterOffline
  (repeat' split) <;> simp (maxDischargeDepth := 20) [h]

@[simp] theorem Live.setCapture_quiet (h : Quiet old s) (r : Roller) (c : Option Capture) : Quiet old (Live.setCapture r c s) := by
  simp (maxDischargeDepth := 20) [Live.setCapture, h]

@[simp] theorem Live.captureWrite_quiet (h : Quiet old s) (holder : Roller) (c : Capture) (reason : EndReason) (r : Roller) : Quiet old (Live.captureWrite T holder c reason r s) := by
  unfold Live.captureWrite
  (repeat' split) <;> simp (maxDischargeDepth := 20) [h]

@[simp] theorem Live.captureLeave_quiet (h : Quiet old s) (how : Leaving) (r : Roller) : Quiet old (Live.captureLeave T how r s) := by
  unfold Live.captureLeave
  (repeat' split) <;> simp (maxDischargeDepth := 20) [h]

@[simp] theorem Live.captureEvent_quiet (h : Quiet old s) (reason : EndReason) (r : Roller) : Quiet old (Live.captureEvent reason r s) := by
  simp (maxDischargeDepth := 20) [Live.captureEvent, h]

@[simp] theorem Live.captureStop_quiet (h : Quiet old s) (holder : Roller) (c : Capture) (reason : EndReason) (how : Roller → Leaving) : Quiet old (Live.captureStop T holder c reason how s) := by
  simp only [Live.captureStop]
  refine Quiet.foldl (fun x q hx => by simp [hx]) _ (Quiet.foldl (fun x q hx => by simp [hx]) _
    (Quiet.foldl (fun x q hx => by simp [hx]) _ (by simp [h])))

@[simp] theorem Live.captureReport_quiet (h : Quiet old s) (holder : Roller) (c : Capture) (reason : EndReason) (axle : Nat) : Quiet old (Live.captureReport T holder c reason axle s) := by
  simp (maxDischargeDepth := 20) [Live.captureReport, h]

@[simp] theorem Live.endCapture_quiet (h : Quiet old s) (holder : Roller) (reason : EndReason) (how : Roller → Leaving) : Quiet old (Live.endCapture T holder reason how s) := by
  unfold Live.endCapture
  (repeat' split) <;> simp (maxDischargeDepth := 20) [h]

@[simp] theorem Live.endAllCaptures_quiet (h : Quiet old s) (reason : EndReason) : Quiet old (Live.endAllCaptures T reason s) := by
  simp (maxDischargeDepth := 20) [Live.endAllCaptures, h]

@[simp] theorem Live.leaveTaring_quiet (h : Quiet old s) (st : Station) (service : Bool) : Quiet old (Live.leaveTaring T st service s) := by
  unfold Live.leaveTaring
  (repeat' split) <;> simp (maxDischargeDepth := 20) [h]

@[simp] theorem Live.dropTare_quiet (h : Quiet old s) (st : Station) : Quiet old (Live.dropTare st s) := by
  simp (maxDischargeDepth := 20) [Live.dropTare, h]

@[simp] theorem Live.tareAborted_quiet (h : Quiet old s) (st : Station) (value : Int) : Quiet old (Live.tareAborted T st value s) := by
  simp (maxDischargeDepth := 20) [Live.tareAborted, h]

@[simp] theorem Live.holdStation_quiet (h : Quiet old s) (held : List Station) (st : Station) : Quiet old (Live.holdStation T held s st) := by
  unfold Live.holdStation
  (repeat' split) <;> simp (maxDischargeDepth := 20) [h]

@[simp] theorem Live.holdStations_quiet (h : Quiet old s) (held : List Station) : Quiet old (Live.holdStations T held s) := by
  unfold Live.holdStations
  refine Quiet.foldl (fun x a hx => ?_) _ ?_ <;> simp (maxDischargeDepth := 20) [*]

@[simp] theorem Live.stopStation_quiet (h : Quiet old s) (r : Roller) : Quiet old (Live.stopStation T s r) := by
  unfold Live.stopStation
  (repeat' split) <;> simp (maxDischargeDepth := 20) [h]

@[simp] theorem Live.stopStations_quiet (h : Quiet old s) : Quiet old (Live.stopStations T s) := by
  unfold Live.stopStations
  refine Quiet.foldl (fun x a hx => ?_) _ ?_ <;> simp (maxDischargeDepth := 20) [*]

@[simp] theorem Live.releaseHold_quiet (h : Quiet old s) (st : Station) : Quiet old (Live.releaseHold T st s) := by
  simp only [Live.releaseHold]
  (repeat' split) <;> simp (maxDischargeDepth := 20) [h]

@[simp] theorem Live.releaseStations_quiet (h : Quiet old s) : Quiet old (Live.releaseStations T s) := by
  unfold Live.releaseStations
  refine Quiet.foldl (fun x a hx => ?_) _ h
  (repeat' split) <;> simp (maxDischargeDepth := 20) [hx]

@[simp] theorem Live.giveOrders_quiet (h : Quiet old s) (e : FaultEntry) : Quiet old (Live.giveOrders T e s) := by
  unfold Live.giveOrders
  (repeat' split) <;> simp (maxDischargeDepth := 20) [h]

@[simp] theorem Live.coverIdle_quiet (h : Quiet old s) (st : Station) : Quiet old (Live.coverIdle T s st) := by
  unfold Live.coverIdle
  (repeat' split) <;> simp (maxDischargeDepth := 20) [h]

@[simp] theorem Live.bringUp_quiet (h : Quiet old s) (st : Station) : Quiet old (Live.bringUp T s st) := by
  unfold Live.bringUp
  (repeat' split) <;> simp (maxDischargeDepth := 20) [h]

end Sys2Proof.Machine
end

