-- ==== Sys2Proof/Laws/State.lean ====
section
/-! SUPPORT. What each update of the state writes and what it leaves: one equation for each field of `Live` and each update, so
that a proof never unfolds a record update; and the same of a station's view after the updates of stations. -/

namespace Sys2Proof.Machine

/-! ## chosen -/

@[simp] theorem Live.chosen_resetAsserted (s : Live) : s.chosen.resetAsserted = s.resetAsserted := rfl

@[simp] theorem Live.chosen_lines (s : Live) : s.chosen.lines = s.lines := rfl

@[simp] theorem Live.chosen_mode (s : Live) : s.chosen.mode = s.mode := rfl

@[simp] theorem Live.chosen_chain (s : Live) : s.chosen.chain = s.chain := rfl

@[simp] theorem Live.chosen_mgmt (s : Live) : s.chosen.mgmt = s.mgmt := rfl

@[simp] theorem Live.chosen_steer (s : Live) : s.chosen.steer = s.steer := rfl

@[simp] theorem Live.chosen_ps (s : Live) : s.chosen.ps = s.ps := rfl

@[simp] theorem Live.chosen_ra (s : Live) : s.chosen.ra = s.ra := rfl

@[simp] theorem Live.chosen_rb (s : Live) : s.chosen.rb = s.rb := rfl

@[simp] theorem Live.chosen_nextStart (s : Live) : s.chosen.nextStart = s.nextStart := rfl

@[simp] theorem Live.chosen_tracker (s : Live) : s.chosen.tracker = s.tracker := rfl

@[simp] theorem Live.chosen_records (s : Live) : s.chosen.records = s.records := rfl

@[simp] theorem Live.chosen_seq (s : Live) : s.chosen.seq = s.seq := rfl

@[simp] theorem Live.chosen_faults (s : Live) : s.chosen.faults = s.faults := rfl

@[simp] theorem Live.chosen_guide (s : Live) : s.chosen.guide = s.guide := rfl

@[simp] theorem Live.chosen_printer (s : Live) : s.chosen.printer = s.printer := rfl

@[simp] theorem Live.chosen_choices (s : Live) :
    s.chosen.choices = s.choices + 1 := rfl

/-! ## setUp -/

@[simp] theorem Live.setUp_resetAsserted (s : Live) (q : List UpFrame) : (s.setUp q).resetAsserted = s.resetAsserted := rfl

@[simp] theorem Live.setUp_lines (s : Live) (q : List UpFrame) : (s.setUp q).lines = s.lines := rfl

@[simp] theorem Live.setUp_mode (s : Live) (q : List UpFrame) : (s.setUp q).mode = s.mode := rfl

@[simp] theorem Live.setUp_chain (s : Live) (q : List UpFrame) :
    (s.setUp q).chain = { s.chain with up := q } := rfl

@[simp] theorem Live.setUp_mgmt (s : Live) (q : List UpFrame) : (s.setUp q).mgmt = s.mgmt := rfl

@[simp] theorem Live.setUp_steer (s : Live) (q : List UpFrame) : (s.setUp q).steer = s.steer := rfl

@[simp] theorem Live.setUp_ps (s : Live) (q : List UpFrame) : (s.setUp q).ps = s.ps := rfl

@[simp] theorem Live.setUp_ra (s : Live) (q : List UpFrame) : (s.setUp q).ra = s.ra := rfl

@[simp] theorem Live.setUp_rb (s : Live) (q : List UpFrame) : (s.setUp q).rb = s.rb := rfl

@[simp] theorem Live.setUp_nextStart (s : Live) (q : List UpFrame) : (s.setUp q).nextStart = s.nextStart := rfl

@[simp] theorem Live.setUp_tracker (s : Live) (q : List UpFrame) : (s.setUp q).tracker = s.tracker := rfl

@[simp] theorem Live.setUp_records (s : Live) (q : List UpFrame) : (s.setUp q).records = s.records := rfl

@[simp] theorem Live.setUp_seq (s : Live) (q : List UpFrame) : (s.setUp q).seq = s.seq := rfl

@[simp] theorem Live.setUp_faults (s : Live) (q : List UpFrame) : (s.setUp q).faults = s.faults := rfl

@[simp] theorem Live.setUp_guide (s : Live) (q : List UpFrame) : (s.setUp q).guide = s.guide := rfl

@[simp] theorem Live.setUp_printer (s : Live) (q : List UpFrame) : (s.setUp q).printer = s.printer := rfl

@[simp] theorem Live.setUp_choices (s : Live) (q : List UpFrame) : (s.setUp q).choices = s.choices := rfl

/-! ## setDown -/

@[simp] theorem Live.setDown_resetAsserted (s : Live) (q : List DownFrame) : (s.setDown q).resetAsserted = s.resetAsserted := rfl

@[simp] theorem Live.setDown_lines (s : Live) (q : List DownFrame) : (s.setDown q).lines = s.lines := rfl

@[simp] theorem Live.setDown_mode (s : Live) (q : List DownFrame) : (s.setDown q).mode = s.mode := rfl

@[simp] theorem Live.setDown_chain (s : Live) (q : List DownFrame) :
    (s.setDown q).chain = { s.chain with down := q } := rfl

@[simp] theorem Live.setDown_mgmt (s : Live) (q : List DownFrame) : (s.setDown q).mgmt = s.mgmt := rfl

@[simp] theorem Live.setDown_steer (s : Live) (q : List DownFrame) : (s.setDown q).steer = s.steer := rfl

@[simp] theorem Live.setDown_ps (s : Live) (q : List DownFrame) : (s.setDown q).ps = s.ps := rfl

@[simp] theorem Live.setDown_ra (s : Live) (q : List DownFrame) : (s.setDown q).ra = s.ra := rfl

@[simp] theorem Live.setDown_rb (s : Live) (q : List DownFrame) : (s.setDown q).rb = s.rb := rfl

@[simp] theorem Live.setDown_nextStart (s : Live) (q : List DownFrame) : (s.setDown q).nextStart = s.nextStart := rfl

@[simp] theorem Live.setDown_tracker (s : Live) (q : List DownFrame) : (s.setDown q).tracker = s.tracker := rfl

@[simp] theorem Live.setDown_records (s : Live) (q : List DownFrame) : (s.setDown q).records = s.records := rfl

@[simp] theorem Live.setDown_seq (s : Live) (q : List DownFrame) : (s.setDown q).seq = s.seq := rfl

@[simp] theorem Live.setDown_faults (s : Live) (q : List DownFrame) : (s.setDown q).faults = s.faults := rfl

@[simp] theorem Live.setDown_guide (s : Live) (q : List DownFrame) : (s.setDown q).guide = s.guide := rfl

@[simp] theorem Live.setDown_printer (s : Live) (q : List DownFrame) : (s.setDown q).printer = s.printer := rfl

@[simp] theorem Live.setDown_choices (s : Live) (q : List DownFrame) : (s.setDown q).choices = s.choices := rfl

/-! ## setSticky -/

@[simp] theorem Live.setSticky_resetAsserted (s : Live) (x : Indicators) : (s.setSticky x).resetAsserted = s.resetAsserted := rfl

@[simp] theorem Live.setSticky_lines (s : Live) (x : Indicators) : (s.setSticky x).lines = s.lines := rfl

@[simp] theorem Live.setSticky_mode (s : Live) (x : Indicators) : (s.setSticky x).mode = s.mode := rfl

@[simp] theorem Live.setSticky_chain (s : Live) (x : Indicators) : (s.setSticky x).chain = s.chain := rfl

@[simp] theorem Live.setSticky_mgmt (s : Live) (x : Indicators) :
    (s.setSticky x).mgmt = { s.mgmt with sticky := x } := rfl

@[simp] theorem Live.setSticky_steer (s : Live) (x : Indicators) : (s.setSticky x).steer = s.steer := rfl

@[simp] theorem Live.setSticky_ps (s : Live) (x : Indicators) : (s.setSticky x).ps = s.ps := rfl

@[simp] theorem Live.setSticky_ra (s : Live) (x : Indicators) : (s.setSticky x).ra = s.ra := rfl

@[simp] theorem Live.setSticky_rb (s : Live) (x : Indicators) : (s.setSticky x).rb = s.rb := rfl

@[simp] theorem Live.setSticky_nextStart (s : Live) (x : Indicators) : (s.setSticky x).nextStart = s.nextStart := rfl

@[simp] theorem Live.setSticky_tracker (s : Live) (x : Indicators) : (s.setSticky x).tracker = s.tracker := rfl

@[simp] theorem Live.setSticky_records (s : Live) (x : Indicators) : (s.setSticky x).records = s.records := rfl

@[simp] theorem Live.setSticky_seq (s : Live) (x : Indicators) : (s.setSticky x).seq = s.seq := rfl

@[simp] theorem Live.setSticky_faults (s : Live) (x : Indicators) : (s.setSticky x).faults = s.faults := rfl

@[simp] theorem Live.setSticky_guide (s : Live) (x : Indicators) : (s.setSticky x).guide = s.guide := rfl

@[simp] theorem Live.setSticky_printer (s : Live) (x : Indicators) : (s.setSticky x).printer = s.printer := rfl

@[simp] theorem Live.setSticky_choices (s : Live) (x : Indicators) : (s.setSticky x).choices = s.choices := rfl

/-! ## setSlot -/

@[simp] theorem Live.setSlot_resetAsserted (s : Live) (i : Fin 4) (x : RecordSlot) : (s.setSlot i x).resetAsserted = s.resetAsserted := rfl

@[simp] theorem Live.setSlot_lines (s : Live) (i : Fin 4) (x : RecordSlot) : (s.setSlot i x).lines = s.lines := rfl

@[simp] theorem Live.setSlot_mode (s : Live) (i : Fin 4) (x : RecordSlot) : (s.setSlot i x).mode = s.mode := rfl

@[simp] theorem Live.setSlot_chain (s : Live) (i : Fin 4) (x : RecordSlot) : (s.setSlot i x).chain = s.chain := rfl

@[simp] theorem Live.setSlot_mgmt (s : Live) (i : Fin 4) (x : RecordSlot) : (s.setSlot i x).mgmt = s.mgmt := rfl

@[simp] theorem Live.setSlot_steer (s : Live) (i : Fin 4) (x : RecordSlot) : (s.setSlot i x).steer = s.steer := rfl

@[simp] theorem Live.setSlot_ps (s : Live) (i : Fin 4) (x : RecordSlot) : (s.setSlot i x).ps = s.ps := rfl

@[simp] theorem Live.setSlot_ra (s : Live) (i : Fin 4) (x : RecordSlot) : (s.setSlot i x).ra = s.ra := rfl

@[simp] theorem Live.setSlot_rb (s : Live) (i : Fin 4) (x : RecordSlot) : (s.setSlot i x).rb = s.rb := rfl

@[simp] theorem Live.setSlot_nextStart (s : Live) (i : Fin 4) (x : RecordSlot) : (s.setSlot i x).nextStart = s.nextStart := rfl

@[simp] theorem Live.setSlot_tracker (s : Live) (i : Fin 4) (x : RecordSlot) : (s.setSlot i x).tracker = s.tracker := rfl

@[simp] theorem Live.setSlot_records (s : Live) (i : Fin 4) (x : RecordSlot) :
    (s.setSlot i x).records = { s.records with slots := s.records.slots.set i x } := rfl

@[simp] theorem Live.setSlot_seq (s : Live) (i : Fin 4) (x : RecordSlot) : (s.setSlot i x).seq = s.seq := rfl

@[simp] theorem Live.setSlot_faults (s : Live) (i : Fin 4) (x : RecordSlot) : (s.setSlot i x).faults = s.faults := rfl

@[simp] theorem Live.setSlot_guide (s : Live) (i : Fin 4) (x : RecordSlot) : (s.setSlot i x).guide = s.guide := rfl

@[simp] theorem Live.setSlot_printer (s : Live) (i : Fin 4) (x : RecordSlot) : (s.setSlot i x).printer = s.printer := rfl

@[simp] theorem Live.setSlot_choices (s : Live) (i : Fin 4) (x : RecordSlot) : (s.setSlot i x).choices = s.choices := rfl

/-! ## setGuide -/

@[simp] theorem Live.setGuide_resetAsserted (s : Live) (g : Guide) : (s.setGuide g).resetAsserted = s.resetAsserted := rfl

@[simp] theorem Live.setGuide_lines (s : Live) (g : Guide) : (s.setGuide g).lines = s.lines := rfl

@[simp] theorem Live.setGuide_mode (s : Live) (g : Guide) : (s.setGuide g).mode = s.mode := rfl

@[simp] theorem Live.setGuide_chain (s : Live) (g : Guide) : (s.setGuide g).chain = s.chain := rfl

@[simp] theorem Live.setGuide_mgmt (s : Live) (g : Guide) : (s.setGuide g).mgmt = s.mgmt := rfl

@[simp] theorem Live.setGuide_steer (s : Live) (g : Guide) : (s.setGuide g).steer = s.steer := rfl

@[simp] theorem Live.setGuide_ps (s : Live) (g : Guide) : (s.setGuide g).ps = s.ps := rfl

@[simp] theorem Live.setGuide_ra (s : Live) (g : Guide) : (s.setGuide g).ra = s.ra := rfl

@[simp] theorem Live.setGuide_rb (s : Live) (g : Guide) : (s.setGuide g).rb = s.rb := rfl

@[simp] theorem Live.setGuide_nextStart (s : Live) (g : Guide) : (s.setGuide g).nextStart = s.nextStart := rfl

@[simp] theorem Live.setGuide_tracker (s : Live) (g : Guide) : (s.setGuide g).tracker = s.tracker := rfl

@[simp] theorem Live.setGuide_records (s : Live) (g : Guide) : (s.setGuide g).records = s.records := rfl

@[simp] theorem Live.setGuide_seq (s : Live) (g : Guide) : (s.setGuide g).seq = s.seq := rfl

@[simp] theorem Live.setGuide_faults (s : Live) (g : Guide) : (s.setGuide g).faults = s.faults := rfl

@[simp] theorem Live.setGuide_guide (s : Live) (g : Guide) :
    (s.setGuide g).guide = g := rfl

@[simp] theorem Live.setGuide_printer (s : Live) (g : Guide) : (s.setGuide g).printer = s.printer := rfl

@[simp] theorem Live.setGuide_choices (s : Live) (g : Guide) : (s.setGuide g).choices = s.choices := rfl

/-! ## setSeq -/

@[simp] theorem Live.setSeq_resetAsserted (s : Live) (q : Seq) : (s.setSeq q).resetAsserted = s.resetAsserted := rfl

@[simp] theorem Live.setSeq_lines (s : Live) (q : Seq) : (s.setSeq q).lines = s.lines := rfl

@[simp] theorem Live.setSeq_mode (s : Live) (q : Seq) : (s.setSeq q).mode = s.mode := rfl

@[simp] theorem Live.setSeq_chain (s : Live) (q : Seq) : (s.setSeq q).chain = s.chain := rfl

@[simp] theorem Live.setSeq_mgmt (s : Live) (q : Seq) : (s.setSeq q).mgmt = s.mgmt := rfl

@[simp] theorem Live.setSeq_steer (s : Live) (q : Seq) : (s.setSeq q).steer = s.steer := rfl

@[simp] theorem Live.setSeq_ps (s : Live) (q : Seq) : (s.setSeq q).ps = s.ps := rfl

@[simp] theorem Live.setSeq_ra (s : Live) (q : Seq) : (s.setSeq q).ra = s.ra := rfl

@[simp] theorem Live.setSeq_rb (s : Live) (q : Seq) : (s.setSeq q).rb = s.rb := rfl

@[simp] theorem Live.setSeq_nextStart (s : Live) (q : Seq) : (s.setSeq q).nextStart = s.nextStart := rfl

@[simp] theorem Live.setSeq_tracker (s : Live) (q : Seq) : (s.setSeq q).tracker = s.tracker := rfl

@[simp] theorem Live.setSeq_records (s : Live) (q : Seq) : (s.setSeq q).records = s.records := rfl

@[simp] theorem Live.setSeq_seq (s : Live) (q : Seq) :
    (s.setSeq q).seq = q := rfl

@[simp] theorem Live.setSeq_faults (s : Live) (q : Seq) : (s.setSeq q).faults = s.faults := rfl

@[simp] theorem Live.setSeq_guide (s : Live) (q : Seq) : (s.setSeq q).guide = s.guide := rfl

@[simp] theorem Live.setSeq_printer (s : Live) (q : Seq) : (s.setSeq q).printer = s.printer := rfl

@[simp] theorem Live.setSeq_choices (s : Live) (q : Seq) : (s.setSeq q).choices = s.choices := rfl

/-! ## setSteer -/

@[simp] theorem Live.setSteer_resetAsserted (s : Live) (x : Steering) : (s.setSteer x).resetAsserted = s.resetAsserted := rfl

@[simp] theorem Live.setSteer_lines (s : Live) (x : Steering) : (s.setSteer x).lines = s.lines := rfl

@[simp] theorem Live.setSteer_mode (s : Live) (x : Steering) : (s.setSteer x).mode = s.mode := rfl

@[simp] theorem Live.setSteer_chain (s : Live) (x : Steering) : (s.setSteer x).chain = s.chain := rfl

@[simp] theorem Live.setSteer_mgmt (s : Live) (x : Steering) : (s.setSteer x).mgmt = s.mgmt := rfl

@[simp] theorem Live.setSteer_steer (s : Live) (x : Steering) :
    (s.setSteer x).steer = x := rfl

@[simp] theorem Live.setSteer_ps (s : Live) (x : Steering) : (s.setSteer x).ps = s.ps := rfl

@[simp] theorem Live.setSteer_ra (s : Live) (x : Steering) : (s.setSteer x).ra = s.ra := rfl

@[simp] theorem Live.setSteer_rb (s : Live) (x : Steering) : (s.setSteer x).rb = s.rb := rfl

@[simp] theorem Live.setSteer_nextStart (s : Live) (x : Steering) : (s.setSteer x).nextStart = s.nextStart := rfl

@[simp] theorem Live.setSteer_tracker (s : Live) (x : Steering) : (s.setSteer x).tracker = s.tracker := rfl

@[simp] theorem Live.setSteer_records (s : Live) (x : Steering) : (s.setSteer x).records = s.records := rfl

@[simp] theorem Live.setSteer_seq (s : Live) (x : Steering) : (s.setSteer x).seq = s.seq := rfl

@[simp] theorem Live.setSteer_faults (s : Live) (x : Steering) : (s.setSteer x).faults = s.faults := rfl

@[simp] theorem Live.setSteer_guide (s : Live) (x : Steering) : (s.setSteer x).guide = s.guide := rfl

@[simp] theorem Live.setSteer_printer (s : Live) (x : Steering) : (s.setSteer x).printer = s.printer := rfl

@[simp] theorem Live.setSteer_choices (s : Live) (x : Steering) : (s.setSteer x).choices = s.choices := rfl

/-! ## setPS -/

@[simp] theorem Live.setPS_resetAsserted (s : Live) (x : PlateStation) : (s.setPS x).resetAsserted = s.resetAsserted := rfl

@[simp] theorem Live.setPS_lines (s : Live) (x : PlateStation) : (s.setPS x).lines = s.lines := rfl

@[simp] theorem Live.setPS_mode (s : Live) (x : PlateStation) : (s.setPS x).mode = s.mode := rfl

@[simp] theorem Live.setPS_chain (s : Live) (x : PlateStation) : (s.setPS x).chain = s.chain := rfl

@[simp] theorem Live.setPS_mgmt (s : Live) (x : PlateStation) : (s.setPS x).mgmt = s.mgmt := rfl

@[simp] theorem Live.setPS_steer (s : Live) (x : PlateStation) : (s.setPS x).steer = s.steer := rfl

@[simp] theorem Live.setPS_ps (s : Live) (x : PlateStation) :
    (s.setPS x).ps = x := rfl

@[simp] theorem Live.setPS_ra (s : Live) (x : PlateStation) : (s.setPS x).ra = s.ra := rfl

@[simp] theorem Live.setPS_rb (s : Live) (x : PlateStation) : (s.setPS x).rb = s.rb := rfl

@[simp] theorem Live.setPS_nextStart (s : Live) (x : PlateStation) : (s.setPS x).nextStart = s.nextStart := rfl

@[simp] theorem Live.setPS_tracker (s : Live) (x : PlateStation) : (s.setPS x).tracker = s.tracker := rfl

@[simp] theorem Live.setPS_records (s : Live) (x : PlateStation) : (s.setPS x).records = s.records := rfl

@[simp] theorem Live.setPS_seq (s : Live) (x : PlateStation) : (s.setPS x).seq = s.seq := rfl

@[simp] theorem Live.setPS_faults (s : Live) (x : PlateStation) : (s.setPS x).faults = s.faults := rfl

@[simp] theorem Live.setPS_guide (s : Live) (x : PlateStation) : (s.setPS x).guide = s.guide := rfl

@[simp] theorem Live.setPS_printer (s : Live) (x : PlateStation) : (s.setPS x).printer = s.printer := rfl

@[simp] theorem Live.setPS_choices (s : Live) (x : PlateStation) : (s.setPS x).choices = s.choices := rfl

/-! ## setPrinter -/

@[simp] theorem Live.setPrinter_resetAsserted (s : Live) (p : Printer) : (s.setPrinter p).resetAsserted = s.resetAsserted := rfl

@[simp] theorem Live.setPrinter_lines (s : Live) (p : Printer) : (s.setPrinter p).lines = s.lines := rfl

@[simp] theorem Live.setPrinter_mode (s : Live) (p : Printer) : (s.setPrinter p).mode = s.mode := rfl

@[simp] theorem Live.setPrinter_chain (s : Live) (p : Printer) : (s.setPrinter p).chain = s.chain := rfl

@[simp] theorem Live.setPrinter_mgmt (s : Live) (p : Printer) : (s.setPrinter p).mgmt = s.mgmt := rfl

@[simp] theorem Live.setPrinter_steer (s : Live) (p : Printer) : (s.setPrinter p).steer = s.steer := rfl

@[simp] theorem Live.setPrinter_ps (s : Live) (p : Printer) : (s.setPrinter p).ps = s.ps := rfl

@[simp] theorem Live.setPrinter_ra (s : Live) (p : Printer) : (s.setPrinter p).ra = s.ra := rfl

@[simp] theorem Live.setPrinter_rb (s : Live) (p : Printer) : (s.setPrinter p).rb = s.rb := rfl

@[simp] theorem Live.setPrinter_nextStart (s : Live) (p : Printer) : (s.setPrinter p).nextStart = s.nextStart := rfl

@[simp] theorem Live.setPrinter_tracker (s : Live) (p : Printer) : (s.setPrinter p).tracker = s.tracker := rfl

@[simp] theorem Live.setPrinter_records (s : Live) (p : Printer) : (s.setPrinter p).records = s.records := rfl

@[simp] theorem Live.setPrinter_seq (s : Live) (p : Printer) : (s.setPrinter p).seq = s.seq := rfl

@[simp] theorem Live.setPrinter_faults (s : Live) (p : Printer) : (s.setPrinter p).faults = s.faults := rfl

@[simp] theorem Live.setPrinter_guide (s : Live) (p : Printer) : (s.setPrinter p).guide = s.guide := rfl

@[simp] theorem Live.setPrinter_printer (s : Live) (p : Printer) :
    (s.setPrinter p).printer = p := rfl

@[simp] theorem Live.setPrinter_choices (s : Live) (p : Printer) : (s.setPrinter p).choices = s.choices := rfl

/-! ## endCondition -/

@[simp] theorem Live.endCondition_resetAsserted (s : Live) (src : Source) (sc : Scope) : (s.endCondition src sc).resetAsserted = s.resetAsserted := rfl

@[simp] theorem Live.endCondition_lines (s : Live) (src : Source) (sc : Scope) : (s.endCondition src sc).lines = s.lines := rfl

@[simp] theorem Live.endCondition_mode (s : Live) (src : Source) (sc : Scope) : (s.endCondition src sc).mode = s.mode := rfl

@[simp] theorem Live.endCondition_chain (s : Live) (src : Source) (sc : Scope) : (s.endCondition src sc).chain = s.chain := rfl

@[simp] theorem Live.endCondition_mgmt (s : Live) (src : Source) (sc : Scope) : (s.endCondition src sc).mgmt = s.mgmt := rfl

@[simp] theorem Live.endCondition_steer (s : Live) (src : Source) (sc : Scope) : (s.endCondition src sc).steer = s.steer := rfl

@[simp] theorem Live.endCondition_ps (s : Live) (src : Source) (sc : Scope) : (s.endCondition src sc).ps = s.ps := rfl

@[simp] theorem Live.endCondition_ra (s : Live) (src : Source) (sc : Scope) : (s.endCondition src sc).ra = s.ra := rfl

@[simp] theorem Live.endCondition_rb (s : Live) (src : Source) (sc : Scope) : (s.endCondition src sc).rb = s.rb := rfl

@[simp] theorem Live.endCondition_nextStart (s : Live) (src : Source) (sc : Scope) : (s.endCondition src sc).nextStart = s.nextStart := rfl

@[simp] theorem Live.endCondition_tracker (s : Live) (src : Source) (sc : Scope) : (s.endCondition src sc).tracker = s.tracker := rfl

@[simp] theorem Live.endCondition_records (s : Live) (src : Source) (sc : Scope) : (s.endCondition src sc).records = s.records := rfl

@[simp] theorem Live.endCondition_seq (s : Live) (src : Source) (sc : Scope) : (s.endCondition src sc).seq = s.seq := rfl

@[simp] theorem Live.endCondition_faults (s : Live) (src : Source) (sc : Scope) :
    (s.endCondition src sc).faults = s.faults.map fun e => if e.is src sc then { e with present := false } else e := rfl

@[simp] theorem Live.endCondition_guide (s : Live) (src : Source) (sc : Scope) : (s.endCondition src sc).guide = s.guide := rfl

@[simp] theorem Live.endCondition_printer (s : Live) (src : Source) (sc : Scope) : (s.endCondition src sc).printer = s.printer := rfl

@[simp] theorem Live.endCondition_choices (s : Live) (src : Source) (sc : Scope) : (s.endCondition src sc).choices = s.choices := rfl

/-! ## setRoller -/

@[simp] theorem Live.setRoller_resetAsserted (s : Live) (r : Roller) (x : RollerStation) : (s.setRoller r x).resetAsserted = s.resetAsserted := by cases r <;> rfl

@[simp] theorem Live.setRoller_lines (s : Live) (r : Roller) (x : RollerStation) : (s.setRoller r x).lines = s.lines := by cases r <;> rfl

@[simp] theorem Live.setRoller_mode (s : Live) (r : Roller) (x : RollerStation) : (s.setRoller r x).mode = s.mode := by cases r <;> rfl

@[simp] theorem Live.setRoller_chain (s : Live) (r : Roller) (x : RollerStation) : (s.setRoller r x).chain = s.chain := by cases r <;> rfl

@[simp] theorem Live.setRoller_mgmt (s : Live) (r : Roller) (x : RollerStation) : (s.setRoller r x).mgmt = s.mgmt := by cases r <;> rfl

@[simp] theorem Live.setRoller_steer (s : Live) (r : Roller) (x : RollerStation) : (s.setRoller r x).steer = s.steer := by cases r <;> rfl

@[simp] theorem Live.setRoller_ps (s : Live) (r : Roller) (x : RollerStation) : (s.setRoller r x).ps = s.ps := by cases r <;> rfl

@[simp] theorem Live.setRoller_ra (s : Live) (r : Roller) (x : RollerStation) :
    (s.setRoller r x).ra = (match r with | .ra => x | .rb => s.ra) := by cases r <;> rfl

@[simp] theorem Live.setRoller_rb (s : Live) (r : Roller) (x : RollerStation) :
    (s.setRoller r x).rb = (match r with | .ra => s.rb | .rb => x) := by cases r <;> rfl

@[simp] theorem Live.setRoller_nextStart (s : Live) (r : Roller) (x : RollerStation) : (s.setRoller r x).nextStart = s.nextStart := by cases r <;> rfl

@[simp] theorem Live.setRoller_tracker (s : Live) (r : Roller) (x : RollerStation) : (s.setRoller r x).tracker = s.tracker := by cases r <;> rfl

@[simp] theorem Live.setRoller_records (s : Live) (r : Roller) (x : RollerStation) : (s.setRoller r x).records = s.records := by cases r <;> rfl

@[simp] theorem Live.setRoller_seq (s : Live) (r : Roller) (x : RollerStation) : (s.setRoller r x).seq = s.seq := by cases r <;> rfl

@[simp] theorem Live.setRoller_faults (s : Live) (r : Roller) (x : RollerStation) : (s.setRoller r x).faults = s.faults := by cases r <;> rfl

@[simp] theorem Live.setRoller_guide (s : Live) (r : Roller) (x : RollerStation) : (s.setRoller r x).guide = s.guide := by cases r <;> rfl

@[simp] theorem Live.setRoller_printer (s : Live) (r : Roller) (x : RollerStation) : (s.setRoller r x).printer = s.printer := by cases r <;> rfl

@[simp] theorem Live.setRoller_choices (s : Live) (r : Roller) (x : RollerStation) : (s.setRoller r x).choices = s.choices := by cases r <;> rfl

/-! ## setHeld -/

@[simp] theorem Live.setHeld_resetAsserted (s : Live) (r : Roller) (f : Option Frame) : (s.setHeld r f).resetAsserted = s.resetAsserted := by cases r <;> rfl

@[simp] theorem Live.setHeld_lines (s : Live) (r : Roller) (f : Option Frame) : (s.setHeld r f).lines = s.lines := by cases r <;> rfl

@[simp] theorem Live.setHeld_mode (s : Live) (r : Roller) (f : Option Frame) : (s.setHeld r f).mode = s.mode := by cases r <;> rfl

@[simp] theorem Live.setHeld_chain (s : Live) (r : Roller) (f : Option Frame) : (s.setHeld r f).chain = s.chain := by cases r <;> rfl

@[simp] theorem Live.setHeld_mgmt (s : Live) (r : Roller) (f : Option Frame) : (s.setHeld r f).mgmt = s.mgmt := by cases r <;> rfl

@[simp] theorem Live.setHeld_steer (s : Live) (r : Roller) (f : Option Frame) : (s.setHeld r f).steer = s.steer := by cases r <;> rfl

@[simp] theorem Live.setHeld_ps (s : Live) (r : Roller) (f : Option Frame) : (s.setHeld r f).ps = s.ps := by cases r <;> rfl

@[simp] theorem Live.setHeld_ra (s : Live) (r : Roller) (f : Option Frame) :
    (s.setHeld r f).ra = (match r with | .ra => { s.ra with heldDrive := f } | .rb => s.ra) := by cases r <;> rfl

@[simp] theorem Live.setHeld_rb (s : Live) (r : Roller) (f : Option Frame) :
    (s.setHeld r f).rb = (match r with | .ra => s.rb | .rb => { s.rb with heldDrive := f }) := by cases r <;> rfl

@[simp] theorem Live.setHeld_nextStart (s : Live) (r : Roller) (f : Option Frame) : (s.setHeld r f).nextStart = s.nextStart := by cases r <;> rfl

@[simp] theorem Live.setHeld_tracker (s : Live) (r : Roller) (f : Option Frame) : (s.setHeld r f).tracker = s.tracker := by cases r <;> rfl

@[simp] theorem Live.setHeld_records (s : Live) (r : Roller) (f : Option Frame) : (s.setHeld r f).records = s.records := by cases r <;> rfl

@[simp] theorem Live.setHeld_seq (s : Live) (r : Roller) (f : Option Frame) : (s.setHeld r f).seq = s.seq := by cases r <;> rfl

@[simp] theorem Live.setHeld_faults (s : Live) (r : Roller) (f : Option Frame) : (s.setHeld r f).faults = s.faults := by cases r <;> rfl

@[simp] theorem Live.setHeld_guide (s : Live) (r : Roller) (f : Option Frame) : (s.setHeld r f).guide = s.guide := by cases r <;> rfl

@[simp] theorem Live.setHeld_printer (s : Live) (r : Roller) (f : Option Frame) : (s.setHeld r f).printer = s.printer := by cases r <;> rfl

@[simp] theorem Live.setHeld_choices (s : Live) (r : Roller) (f : Option Frame) : (s.setHeld r f).choices = s.choices := by cases r <;> rfl

/-! ## setBound -/

@[simp] theorem Live.setBound_resetAsserted (s : Live) (r : Roller) (a : Option Nat) : (s.setBound r a).resetAsserted = s.resetAsserted := by cases r <;> rfl

@[simp] theorem Live.setBound_lines (s : Live) (r : Roller) (a : Option Nat) : (s.setBound r a).lines = s.lines := by cases r <;> rfl

@[simp] theorem Live.setBound_mode (s : Live) (r : Roller) (a : Option Nat) : (s.setBound r a).mode = s.mode := by cases r <;> rfl

@[simp] theorem Live.setBound_chain (s : Live) (r : Roller) (a : Option Nat) : (s.setBound r a).chain = s.chain := by cases r <;> rfl

@[simp] theorem Live.setBound_mgmt (s : Live) (r : Roller) (a : Option Nat) : (s.setBound r a).mgmt = s.mgmt := by cases r <;> rfl

@[simp] theorem Live.setBound_steer (s : Live) (r : Roller) (a : Option Nat) : (s.setBound r a).steer = s.steer := by cases r <;> rfl

@[simp] theorem Live.setBound_ps (s : Live) (r : Roller) (a : Option Nat) : (s.setBound r a).ps = s.ps := by cases r <;> rfl

@[simp] theorem Live.setBound_ra (s : Live) (r : Roller) (a : Option Nat) : (s.setBound r a).ra = s.ra := by cases r <;> rfl

@[simp] theorem Live.setBound_rb (s : Live) (r : Roller) (a : Option Nat) : (s.setBound r a).rb = s.rb := by cases r <;> rfl

@[simp] theorem Live.setBound_nextStart (s : Live) (r : Roller) (a : Option Nat) : (s.setBound r a).nextStart = s.nextStart := by cases r <;> rfl

@[simp] theorem Live.setBound_tracker (s : Live) (r : Roller) (a : Option Nat) :
    (s.setBound r a).tracker = (match r with | .ra => { s.tracker with boundRA := a } | .rb => { s.tracker with boundRB := a }) := by cases r <;> rfl

@[simp] theorem Live.setBound_records (s : Live) (r : Roller) (a : Option Nat) : (s.setBound r a).records = s.records := by cases r <;> rfl

@[simp] theorem Live.setBound_seq (s : Live) (r : Roller) (a : Option Nat) : (s.setBound r a).seq = s.seq := by cases r <;> rfl

@[simp] theorem Live.setBound_faults (s : Live) (r : Roller) (a : Option Nat) : (s.setBound r a).faults = s.faults := by cases r <;> rfl

@[simp] theorem Live.setBound_guide (s : Live) (r : Roller) (a : Option Nat) : (s.setBound r a).guide = s.guide := by cases r <;> rfl

@[simp] theorem Live.setBound_printer (s : Live) (r : Roller) (a : Option Nat) : (s.setBound r a).printer = s.printer := by cases r <;> rfl

@[simp] theorem Live.setBound_choices (s : Live) (r : Roller) (a : Option Nat) : (s.setBound r a).choices = s.choices := by cases r <;> rfl

/-! ## putState -/

@[simp] theorem Live.putState_resetAsserted (s : Live) (st : Station) (x : StationState) : (s.putState st x).resetAsserted = s.resetAsserted := by cases st <;> rfl

@[simp] theorem Live.putState_lines (s : Live) (st : Station) (x : StationState) : (s.putState st x).lines = s.lines := by cases st <;> rfl

@[simp] theorem Live.putState_mode (s : Live) (st : Station) (x : StationState) : (s.putState st x).mode = s.mode := by cases st <;> rfl

@[simp] theorem Live.putState_chain (s : Live) (st : Station) (x : StationState) : (s.putState st x).chain = s.chain := by cases st <;> rfl

@[simp] theorem Live.putState_mgmt (s : Live) (st : Station) (x : StationState) : (s.putState st x).mgmt = s.mgmt := by cases st <;> rfl

@[simp] theorem Live.putState_steer (s : Live) (st : Station) (x : StationState) : (s.putState st x).steer = s.steer := by cases st <;> rfl

@[simp] theorem Live.putState_ps (s : Live) (st : Station) (x : StationState) :
    (s.putState st x).ps = (match st with | .ps => { s.ps with state := x } | _ => s.ps) := by cases st <;> rfl

@[simp] theorem Live.putState_ra (s : Live) (st : Station) (x : StationState) :
    (s.putState st x).ra = (match st with | .ra => { s.ra with state := x } | _ => s.ra) := by cases st <;> rfl

@[simp] theorem Live.putState_rb (s : Live) (st : Station) (x : StationState) :
    (s.putState st x).rb = (match st with | .rb => { s.rb with state := x } | _ => s.rb) := by cases st <;> rfl

@[simp] theorem Live.putState_nextStart (s : Live) (st : Station) (x : StationState) : (s.putState st x).nextStart = s.nextStart := by cases st <;> rfl

@[simp] theorem Live.putState_tracker (s : Live) (st : Station) (x : StationState) : (s.putState st x).tracker = s.tracker := by cases st <;> rfl

@[simp] theorem Live.putState_records (s : Live) (st : Station) (x : StationState) : (s.putState st x).records = s.records := by cases st <;> rfl

@[simp] theorem Live.putState_seq (s : Live) (st : Station) (x : StationState) : (s.putState st x).seq = s.seq := by cases st <;> rfl

@[simp] theorem Live.putState_faults (s : Live) (st : Station) (x : StationState) : (s.putState st x).faults = s.faults := by cases st <;> rfl

@[simp] theorem Live.putState_guide (s : Live) (st : Station) (x : StationState) : (s.putState st x).guide = s.guide := by cases st <;> rfl

@[simp] theorem Live.putState_printer (s : Live) (st : Station) (x : StationState) : (s.putState st x).printer = s.printer := by cases st <;> rfl

@[simp] theorem Live.putState_choices (s : Live) (st : Station) (x : StationState) : (s.putState st x).choices = s.choices := by cases st <;> rfl

/-! ## setTare -/

@[simp] theorem Live.setTare_resetAsserted (s : Live) (st : Station) (x : Tare) : (s.setTare st x).resetAsserted = s.resetAsserted := by cases st <;> rfl

@[simp] theorem Live.setTare_lines (s : Live) (st : Station) (x : Tare) : (s.setTare st x).lines = s.lines := by cases st <;> rfl

@[simp] theorem Live.setTare_mode (s : Live) (st : Station) (x : Tare) : (s.setTare st x).mode = s.mode := by cases st <;> rfl

@[simp] theorem Live.setTare_chain (s : Live) (st : Station) (x : Tare) : (s.setTare st x).chain = s.chain := by cases st <;> rfl

@[simp] theorem Live.setTare_mgmt (s : Live) (st : Station) (x : Tare) : (s.setTare st x).mgmt = s.mgmt := by cases st <;> rfl

@[simp] theorem Live.setTare_steer (s : Live) (st : Station) (x : Tare) : (s.setTare st x).steer = s.steer := by cases st <;> rfl

@[simp] theorem Live.setTare_ps (s : Live) (st : Station) (x : Tare) :
    (s.setTare st x).ps = (match st with | .ps => { s.ps with tare := x } | _ => s.ps) := by cases st <;> rfl

@[simp] theorem Live.setTare_ra (s : Live) (st : Station) (x : Tare) :
    (s.setTare st x).ra = (match st with | .ra => { s.ra with tare := x } | _ => s.ra) := by cases st <;> rfl

@[simp] theorem Live.setTare_rb (s : Live) (st : Station) (x : Tare) :
    (s.setTare st x).rb = (match st with | .rb => { s.rb with tare := x } | _ => s.rb) := by cases st <;> rfl

@[simp] theorem Live.setTare_nextStart (s : Live) (st : Station) (x : Tare) : (s.setTare st x).nextStart = s.nextStart := by cases st <;> rfl

@[simp] theorem Live.setTare_tracker (s : Live) (st : Station) (x : Tare) : (s.setTare st x).tracker = s.tracker := by cases st <;> rfl

@[simp] theorem Live.setTare_records (s : Live) (st : Station) (x : Tare) : (s.setTare st x).records = s.records := by cases st <;> rfl

@[simp] theorem Live.setTare_seq (s : Live) (st : Station) (x : Tare) : (s.setTare st x).seq = s.seq := by cases st <;> rfl

@[simp] theorem Live.setTare_faults (s : Live) (st : Station) (x : Tare) : (s.setTare st x).faults = s.faults := by cases st <;> rfl

@[simp] theorem Live.setTare_guide (s : Live) (st : Station) (x : Tare) : (s.setTare st x).guide = s.guide := by cases st <;> rfl

@[simp] theorem Live.setTare_printer (s : Live) (st : Station) (x : Tare) : (s.setTare st x).printer = s.printer := by cases st <;> rfl

@[simp] theorem Live.setTare_choices (s : Live) (st : Station) (x : Tare) : (s.setTare st x).choices = s.choices := by cases st <;> rfl

/-! ## Stations -/

@[simp] theorem Live.roller_setRoller_self (s : Live) (r : Roller) (x : RollerStation) : (s.setRoller r x).roller r = x := by
  cases r <;> rfl

theorem Live.roller_setRoller_other (s : Live) {r q : Roller} (h : q ≠ r) (x : RollerStation) :
    (s.setRoller r x).roller q = s.roller q := by
  cases r <;> cases q <;> first | rfl | exact absurd rfl h

@[simp] theorem Live.tare_setTare (s : Live) (st : Station) (x : Tare) : (s.setTare st x).tare st = x := by cases st <;> rfl

theorem Live.tare_setTare_other (s : Live) {st p : Station} (h : p ≠ st) (x : Tare) : (s.setTare st x).tare p = s.tare p := by
  cases st <;> cases p <;> first | rfl | exact absurd rfl h

@[simp] theorem Live.bound_setBound (s : Live) (r : Roller) (a : Option Nat) : (s.setBound r a).bound (stationOf r) = a := by
  cases r <;> rfl

@[simp] theorem Live.tare_putState (s : Live) (st p : Station) (x : StationState) : (s.putState st x).tare p = s.tare p := by
  cases st <;> cases p <;> rfl

/-! ## The machine -/

@[simp] theorem State.withLive_live (s : State) (l : Live) : (s.withLive l).live = l := rfl

@[simp] theorem State.withLive_tables (s : State) (l : Live) : (s.withLive l).tables = s.tables := rfl

@[simp] theorem State.withLive_pending (s : State) (l : Live) : (s.withLive l).pending = s.pending := rfl

@[simp] theorem State.withLive_self (s : State) : s.withLive s.live = s := rfl

@[simp] theorem State.answered_tables (s : State) (c : Byte) (T : Tables) (l : Live) (x : Status) (d : List Byte) :
    (s.answered c T l x d).tables = T := rfl

@[simp] theorem State.answered_pending (s : State) (c : Byte) (T : Tables) (l : Live) (x : Status) (d : List Byte) :
    (s.answered c T l x d).pending = s.pending := rfl

/-- A command outside RESET acts on everything but the tables. -/
theorem State.onLive_awake (f : Tables → Live → Live) {s : State} (h : s.awake) :
    s.onLive f = s.withLive (f s.tables s.live) := by
  simp [State.onLive, show s.live.resetAsserted = false from h, State.withLive]

/-- A command outside RESET that may act on the tables. -/
theorem State.onBoth_awake (f : Tables → Live → Tables × Live) {s : State} (h : s.awake) :
    s.onBoth f = { s with tables := (f s.tables s.live).1, live := (f s.tables s.live).2 } := by
  simp [State.onBoth, show s.live.resetAsserted = false from h]

/-- A change of the lines outside RESET, with what it brings about. -/
theorem State.onLines_awake (g : InputLines → InputLines) (f : Tables → Live → Live) {s : State} (h : s.awake) :
    s.onLines g f = s.withLive (f s.tables { s.live with lines := g s.live.lines }) := by
  simp [State.onLines, show s.live.resetAsserted = false from h, State.withLive]

/-- Under RESET a command has no effect. -/
theorem State.onLive_reset (f : Tables → Live → Live) {s : State} (h : s.live.resetAsserted = true) : s.onLive f = s := by
  simp [State.onLive, h]

end Sys2Proof.Machine
end

