-- ==== Sys2Proof/Laws/StillBlocks.lean ====
section
/-! SUPPORT. What the guidance unit, the record store and the sequencer leave alone of the stations: see Laws/Quiet.lean. -/

namespace Sys2Proof.Machine

variable {T : Tables} {old s : Live}

@[simp] theorem Live.markLine_still (h : Still old s) (i : Fin 4) : Still old (Live.markLine T i s) := by
  simp only [Live.markLine]
  (repeat' split) <;> simp (maxDischargeDepth := 20) [h]

@[simp] theorem Live.offerLine_still (h : Still old s) (i : Fin 4) : Still old (Live.offerLine T i s) := by
  simp only [Live.offerLine]
  split
  · split
    · rename_i ht; simp [Live.admitDown?_still h ht]
    · exact h
  · exact h

@[simp] theorem Live.render_still (h : Still old s) : Still old (Live.render T s) := by
  simp only [Live.render]
  have hm := Still.foldl (old := old) (f := fun x i => x.markLine T i) (fun x i hx => by simp [hx]) fourIndices h
  split
  · exact Still.foldl (fun x i hx => by simp [hx]) _ hm
  · exact hm

@[simp] theorem Live.allDirty_still (h : Still old s) : Still old (Live.allDirty s) := by
  simp only [Live.allDirty]
  simp (maxDischargeDepth := 20) [h]

@[simp] theorem Live.setQueue_still (h : Still old s) (q : List PromptEntry) : Still old (Live.setQueue T q s) := by
  simp only [Live.setQueue]
  (repeat' split) <;> simp (maxDischargeDepth := 20) [h]

@[simp] theorem Live.postPrompt_still (h : Still old s) (n : Nat) (origin : PromptOrigin) (stepEnd : Bool) (links : List (Source × Scope)) : Still old (Live.postPrompt T n origin stepEnd links s) := by
  simp only [Live.postPrompt]
  (repeat' split) <;> simp (maxDischargeDepth := 20) [h]

@[simp] theorem Live.unlink_still (h : Still old s) (src : Source) (scope : Scope) : Still old (Live.unlink T src scope s) := by
  simp (maxDischargeDepth := 20) [Live.unlink, h]

@[simp] theorem Live.stepEndRemoval_still (h : Still old s) (n : Nat) : Still old (Live.stepEndRemoval T n s) := by
  simp (maxDischargeDepth := 20) [Live.stepEndRemoval, h]

@[simp] theorem Live.offerBar_still (h : Still old s) (left : Nat) (right : Nat) : Still old (Live.offerBar T left right s) := by
  unfold Live.offerBar
  split
  · rename_i ht; exact Live.admitDown?_still h ht
  · exact h

@[simp] theorem Live.refreshBars_still (h : Still old s) : Still old (Live.refreshBars T s) := by
  simp only [Live.refreshBars]
  (repeat' split) <;> simp (maxDischargeDepth := 20) [h]

@[simp] theorem Live.judged_still (h : Still old s) {α : Type} (p : Part α) : Still old (Live.judged p s) := by
  simp (maxDischargeDepth := 20) [Live.judged, h]

@[simp] theorem Live.writeBrake_still (h : Still old s) (st : Station) (c : Capture) (v : BrakeResult) : Still old (Live.writeBrake T st c v s) := by
  simp only [Live.writeBrake]
  (repeat' split) <;> simp (maxDischargeDepth := 20) [h]

@[simp] theorem Live.markBrake_still (h : Still old s) (st : Station) (part : BrakePart) (f : Part BrakeResult → Part BrakeResult) : Still old (Live.markBrake st part f s) := by
  unfold Live.markBrake
  (repeat' split) <;> simp (maxDischargeDepth := 20) [h]

@[simp] theorem Live.buttonIgnored_still (h : Still old s) (code : Nat) : Still old (Live.buttonIgnored code s) := by
  simp (maxDischargeDepth := 20) [Live.buttonIgnored, h]

@[simp] theorem Live.seqHold_still (h : Still old s) (st : Station) : Still old (Live.seqHold st s) := by
  simp (maxDischargeDepth := 20) [Live.seqHold, h]

@[simp] theorem Live.seqHalt_still (h : Still old s) : Still old (Live.seqHalt T s) := by
  simp only [Live.seqHalt]
  (repeat' split) <;> simp (maxDischargeDepth := 20) [h]

@[simp] theorem Live.seqRest_still (h : Still old s) (x : SeqState) : Still old (Live.seqRest x s) := by
  simp (maxDischargeDepth := 20) [Live.seqRest, h]

@[simp] theorem Live.discardRepeat_still (h : Still old s) : Still old (Live.discardRepeat s) := by
  unfold Live.discardRepeat
  (repeat' split) <;> simp (maxDischargeDepth := 20) [h]

@[simp] theorem Live.actRepeat_still (h : Still old s) : Still old (Live.actRepeat T s) := by
  unfold Live.actRepeat
  (repeat' split) <;> simp (maxDischargeDepth := 20) [h]

@[simp] theorem Live.actPendingRepeat_still (h : Still old s) : Still old (Live.actPendingRepeat T s) := by
  unfold Live.actPendingRepeat
  (repeat' split) <;> simp (maxDischargeDepth := 20) [h]

@[simp] theorem Live.pauseNow_still (h : Still old s) : Still old (Live.pauseNow s) := by
  simp only [Live.pauseNow]
  simp (maxDischargeDepth := 20) [h]

@[simp] theorem Live.endStepPrompt_still (h : Still old s) (u : PlanUnit) : Still old (Live.endStepPrompt T u s) := by
  unfold Live.endStepPrompt
  (repeat' split) <;> simp (maxDischargeDepth := 20) [h]

@[simp] theorem Live.stepDone_still (h : Still old s) : Still old (Live.stepDone T s) := by
  simp only [Live.stepDone]
  (repeat' split) <;> simp (maxDischargeDepth := 20) [h]

@[simp] theorem Live.stepFailed_still (h : Still old s) (st : Station) : Still old (Live.stepFailed T st s) := by
  unfold Live.stepFailed
  (repeat' split) <;> simp (maxDischargeDepth := 20) [h]

@[simp] theorem Live.makeRestart_still (h : Still old s) (x : Restart) : Still old (Live.makeRestart T x s) := by
  simp only [Live.makeRestart]
  (repeat' split) <;> simp (maxDischargeDepth := 20) [h]

@[simp] theorem Live.judgeRestart_still (h : Still old s) (b x : Restart) : Still old (Live.judgeRestart T b x s) := by
  unfold Live.judgeRestart
  (repeat' split) <;> simp (maxDischargeDepth := 20) [h]

@[simp] theorem Live.captureBroken_still (h : Still old s) (b : Restart) : Still old (Live.captureBroken T b s) := by
  simp only [Live.captureBroken]
  (repeat' split) <;> simp (maxDischargeDepth := 20) [h]

@[simp] theorem Live.seqCaptureEnd_still (h : Still old s) (r : Roller) (c : Capture) (reason : EndReason) (axle : Nat) : Still old (Live.seqCaptureEnd T r c reason axle s) := by
  simp only [Live.seqCaptureEnd]
  (repeat' split) <;> simp (maxDischargeDepth := 20) [h]

@[simp] theorem Live.heldEnds_still (h : Still old s) : Still old (Live.heldEnds T s) := by
  unfold Live.heldEnds
  (repeat' split) <;> simp (maxDischargeDepth := 20) [h]

@[simp] theorem Live.waitSees_still (h : Still old s) (st : Station) : Still old (Live.waitSees T st s) := by
  simp only [Live.waitSees]
  (repeat' split) <;> simp (maxDischargeDepth := 20) [h]

@[simp] theorem Live.seqSees_still (h : Still old s) (st : Station) : Still old (Live.seqSees T st s) := by
  unfold Live.seqSees
  (repeat' split) <;> simp (maxDischargeDepth := 20) [h]

@[simp] theorem Live.seqTareEnd_still (h : Still old s) (st : Station) (o : TareOutcome) : Still old (Live.seqTareEnd T st o s) := by
  unfold Live.seqTareEnd
  (repeat' split) <;> simp (maxDischargeDepth := 20) [h]

@[simp] theorem Live.seqExit_still (h : Still old s) (st : Station) : Still old (Live.seqExit T st s) := by
  unfold Live.seqExit
  (repeat' split) <;> simp (maxDischargeDepth := 20) [h]

@[simp] theorem Live.pauseOrder_still (h : Still old s) : Still old (Live.pauseOrder s) := by
  unfold Live.pauseOrder
  (repeat' split) <;> simp (maxDischargeDepth := 20) [h]

@[simp] theorem Live.lockOrder_still (h : Still old s) : Still old (Live.lockOrder s) := by
  simp only [Live.lockOrder]
  simp (maxDischargeDepth := 20) [h]

@[simp] theorem Live.seqResume_still (h : Still old s) : Still old (Live.seqResume T s) := by
  simp only [Live.seqResume]
  (repeat' split) <;> simp (maxDischargeDepth := 20) [h]

@[simp] theorem Live.seqEmpty_still (h : Still old s) : Still old (Live.seqEmpty s) := by
  unfold Live.seqEmpty
  (repeat' split) <;> simp (maxDischargeDepth := 20) [h]

@[simp] theorem Live.seqClosed_still (h : Still old s) : Still old (Live.seqClosed T s) := by
  unfold Live.seqClosed
  (repeat' split) <;> simp (maxDischargeDepth := 20) [h]

@[simp] theorem Live.seqBegin_still (h : Still old s) : Still old (Live.seqBegin s) := by
  unfold Live.seqBegin
  (repeat' split) <;> simp (maxDischargeDepth := 20) [h]

@[simp] theorem Live.seqUnlock_still (h : Still old s) : Still old (Live.seqUnlock s) := by
  unfold Live.seqUnlock
  (repeat' split) <;> simp (maxDischargeDepth := 20) [h]

end Sys2Proof.Machine
end

