-- ==== Sys2Proof/Laws/StationStates.lean ====
section
/-! SUPPORT. What the operations of a station do to the states of the stations: the one they enter, and no other. -/

namespace Sys2Proof.Machine

variable {T : Tables} {s : Live}

theorem stationRoller_some {st : Station} {r : Roller} (h : stationRoller st = some r) : st = stationOf r := by
  cases st <;> cases h <;> rfl

theorem stationRoller_none {st : Station} (h : stationRoller st = none) : st = .ps := by cases st <;> first | rfl | cases h

@[simp] theorem stationRoller_stationOf (r : Roller) : stationRoller (stationOf r) = some r := by cases r <;> rfl

/-- The state of a roller station, by its station. -/
theorem Live.roller_state (s : Live) (r : Roller) : (s.roller r).state = s.stationState (stationOf r) := by cases r <;> rfl

@[simp] theorem Live.roller_setRoller (s : Live) (r : Roller) (x : RollerStation) : (s.setRoller r x).roller r = x := by
  cases r <;> rfl

theorem Live.roller_setRoller_of_ne (s : Live) {r q : Roller} (x : RollerStation) (h : q ≠ r) :
    (s.setRoller r x).roller q = s.roller q := by
  cases r <;> cases q <;> first | rfl | exact absurd rfl h

/-- A roller station rewritten with its state as it was. -/
theorem Live.setRoller_stationState (s : Live) (r : Roller) {x : RollerStation} (h : x.state = (s.roller r).state)
    (st : Station) : (s.setRoller r x).stationState st = s.stationState st := by
  cases r <;> cases st <;> first | rfl | exact h

@[simp] theorem Live.putState_stationState (s : Live) (st : Station) (x : StationState) (p : Station) :
    (s.putState st x).stationState p = if p = st then x else s.stationState p := by
  cases st <;> cases p <;> rfl

@[simp] theorem Live.setTare_stationState (s : Live) (st : Station) (x : Tare) (p : Station) :
    (s.setTare st x).stationState p = s.stationState p := by cases st <;> cases p <;> rfl

@[simp] theorem Live.chosen_stationState (s : Live) (p : Station) : s.chosen.stationState p = s.stationState p := by
  cases p <;> rfl

@[simp] theorem Live.dropTare_stationState (s : Live) (st p : Station) :
    (s.dropTare st).stationState p = s.stationState p := s.setTare_stationState _ _ _

@[simp] theorem Live.enter_stationState (s : Live) (st : Station) (x : StationState) (p : Station) :
    (s.enter T st x).stationState p = if p = st then x else s.stationState p := by
  have h : Still (s.putState st x) (s.enter T st x) := by simp [Live.enter, Still.refl]
  rw [h.stationState, Live.putState_stationState]

@[simp] theorem Live.setHeld_stationState (s : Live) (r : Roller) (f : Option Frame) (p : Station) :
    (s.setHeld r f).stationState p = s.stationState p := s.setRoller_stationState r (by rfl) p

theorem Live.admitDown?_stationState {f : DownFrame} {t : Live} (h : s.admitDown? f = some t) (p : Station) :
    t.stationState p = s.stationState p := (Live.admitDown?_still (Still.refl s) h).stationState p

@[simp] theorem Live.offerDrive_stationState (s : Live) (r : Roller) (start : Bool) (p : Station) :
    (s.offerDrive T r start).stationState p = s.stationState p := by
  unfold Live.offerDrive
  dsimp only
  split
  · simp
  · split
    · rename_i h; exact Live.admitDown?_stationState h p
    · simp

/-- A roller station rewritten but for its state, then entering one. -/
theorem Live.setRoller_enter (s : Live) (r : Roller) {x : RollerStation} (h : x.state = (s.roller r).state) (y : StationState)
    (p : Station) :
    ((s.setRoller r x).enter T (stationOf r) y).stationState p = if p = stationOf r then y else s.stationState p := by
  rw [Live.enter_stationState, Live.setRoller_stationState _ _ h]

@[simp] theorem Live.enterReleasing_stationState (s : Live) (r : Roller) (p : Station) :
    (s.enterReleasing T r).stationState p = if p = stationOf r then .releasing else s.stationState p := by
  unfold Live.enterReleasing
  dsimp only
  rw [Live.setRoller_enter _ _ (by rfl), Live.offerDrive_stationState]

@[simp] theorem Live.enterReady_stationState (s : Live) (r : Roller) (p : Station) :
    (s.enterReady T r).stationState p = if p = stationOf r then .ready else s.stationState p :=
  Live.setRoller_enter _ _ (by rfl) _ _

@[simp] theorem Live.enterStill_stationState (s : Live) (r : Roller) (x : StationState) (p : Station) :
    (s.enterStill T r x).stationState p = if p = stationOf r then x else s.stationState p :=
  Live.setRoller_enter _ _ (by rfl) _ _

@[simp] theorem Live.enterSettling_stationState (s : Live) (r : Roller) (p : Station) :
    (s.enterSettling T r).stationState p = if p = stationOf r then .settling else s.stationState p := by
  unfold Live.enterSettling
  dsimp only
  refine Live.setRoller_enter _ _ ?_ _ _
  split <;> rfl

@[simp] theorem Live.faultDriven_stationState (s : Live) (r : Roller) (p : Station) :
    (s.faultDriven T r).stationState p = if p = stationOf r then .faulted else s.stationState p := by
  unfold Live.faultDriven
  rw [Live.enterStill_stationState, Live.offerDrive_stationState]

@[simp] theorem Live.enterOffline_stationState (s : Live) (st p : Station) :
    (s.enterOffline T st).stationState p = if p = st then .offline else s.stationState p := by
  cases st with
  | ps => simp only [Live.enterOffline, stationRoller, Live.enter_stationState]; cases p <;> rfl
  | ra => exact Live.setRoller_enter s .ra (by rfl) _ _
  | rb => exact Live.setRoller_enter s .rb (by rfl) _ _

@[simp] theorem Live.setCapture_stationState (s : Live) (r : Roller) (c : Option Capture) (p : Station) :
    (s.setCapture r c).stationState p = s.stationState p := s.setRoller_stationState r (by rfl) p

/-! ## The end of a capture -/

/-- The state in which a station leaves MEASURING. -/
def Leaving.state : Leaving → StationState
  | .ready => .ready
  | .releasing => .releasing
  | .faulted => .faulted

@[simp] theorem Live.captureLeave_stationState (s : Live) (how : Leaving) (r : Roller) (p : Station) :
    (s.captureLeave T how r).stationState p = if p = stationOf r then how.state else s.stationState p := by
  cases how <;> simp [Live.captureLeave, Leaving.state]

@[simp] theorem Live.captureWrite_stationState (s : Live) (h : Roller) (c : Capture) (e : EndReason) (r : Roller)
    (p : Station) : (s.captureWrite T h c e r).stationState p = s.stationState p := by
  have k : Still s (s.captureWrite T h c e r) := by
    unfold Live.captureWrite
    split <;> simp [Still.refl]
  exact k.stationState p

@[simp] theorem Live.captureEvent_stationState (s : Live) (e : EndReason) (r : Roller) (p : Station) :
    (s.captureEvent e r).stationState p = s.stationState p := by
  have k : Still s (s.captureEvent e r) := by simp [Live.captureEvent, Still.refl]
  exact k.stationState p

/-- An operation along a list that leaves the states leaves them as a whole. -/
theorem Live.foldl_stationState {α : Type} {f : Live → α → Live} (p : Station)
    (hf : ∀ x a, (f x a).stationState p = x.stationState p) : ∀ (l : List α) (x : Live),
      (l.foldl f x).stationState p = x.stationState p
  | [], _ => rfl
  | a :: l, x => (Live.foldl_stationState p hf l (f x a)).trans (hf x a)

/-- Every station of a capture leaves MEASURING as it is told to, and no other changes state. -/
theorem Live.captureStop_stationState (s : Live) (h : Roller) (c : Capture) (e : EndReason) (how : Roller → Leaving)
    (p : Station) : (s.captureStop T h c e how).stationState p =
      match stationRoller p with
      | some q => if q ∈ captureStations h c then (how q).state else s.stationState p
      | none => s.stationState p := by
  unfold Live.captureStop
  dsimp only
  rw [Live.foldl_stationState p (fun x a => Live.captureEvent_stationState x _ a p)]
  unfold captureStations
  split
  · cases p <;> simp [stationOf, stationRoller]
  · cases h <;> cases p <;> simp [stationOf, stationRoller]

@[simp] theorem Live.captureReport_stationState (s : Live) (h : Roller) (c : Capture) (e : EndReason) (a : Nat)
    (p : Station) : (s.captureReport T h c e a).stationState p = s.stationState p := by
  unfold Live.captureReport
  rw [Live.setCapture_stationState]
  have k : Still s (s.seqCaptureEnd T h c e a) := by simp [Still.refl]
  exact k.stationState p

/-- The end of a capture that a station holds (R87, R88, R92). -/
theorem Live.endCapture_stationState (s : Live) {h : Roller} {c : Capture} (hc : (s.roller h).capture = some c)
    (e : EndReason) (how : Roller → Leaving) (p : Station) : (s.endCapture T h e how).stationState p =
      match stationRoller p with
      | some q => if q ∈ captureStations h c then (how q).state else s.stationState p
      | none => s.stationState p := by
  unfold Live.endCapture
  rw [hc]
  dsimp only
  rw [Live.captureReport_stationState, Live.captureStop_stationState]

/-- The holder of a station's capture holds one, and the station is among those it runs on. -/
theorem Live.captureHolder_some {r h : Roller} (hh : s.captureHolder r = some h) :
    ∃ c, (s.roller h).capture = some c ∧ r ∈ captureStations h c := by
  unfold Live.captureHolder at hh
  split at hh
  · rename_i c hc
    split at hh
    · rename_i hj
      cases hh
      exact ⟨c, hc, by simp only [captureStations, hj, if_true]; cases r <;> simp⟩
    · split at hh
      · rename_i hi
        cases hh
        obtain ⟨d, hd⟩ := Option.isSome_iff_exists.1 hi
        refine ⟨d, hd, ?_⟩
        unfold captureStations
        split <;> cases r <;> simp
      · cases hh
  · split at hh
    · rename_i hi
      cases hh
      obtain ⟨d, hd⟩ := Option.isSome_iff_exists.1 hi
      refine ⟨d, hd, ?_⟩
      unfold captureStations
      split <;> cases r <;> simp
    · cases hh

/-! ## Holds and stops (R71, R72) -/

@[simp] theorem Live.tareAborted_stationState (s : Live) (st : Station) (v : Int) (p : Station) :
    (s.tareAborted T st v).stationState p = s.stationState p := by
  have k : Still s (s.tareAborted T st v) := by simp [Live.tareAborted, Still.refl]
  exact k.stationState p

/-- A hold leaves its station FAULTED. -/
theorem Live.holdStation_self (s : Live) {held : List Station} {st : Station} (hm : st ∈ held) :
    (s.holdStation T held st).stationState st = .faulted := by
  unfold Live.holdStation
  split
  · rename_i h; exact h
  · rename_i r hr h
    have hst : st = stationOf r := by cases st <;> simp [stationRoller] at hr <;> subst hr <;> rfl
    split
    · rename_i q hq
      obtain ⟨c, hc, hmem⟩ := Live.captureHolder_some hq
      rw [Live.endCapture_stationState _ hc, hr]
      simp only [hmem, if_true, ← hst, hm, Leaving.state]
    · rw [Live.faultDriven_stationState, hst]; simp
  all_goals
    first
    | (have hst := stationRoller_some ‹stationRoller st = some _›
       subst hst
       simp)
    | (have hst := stationRoller_none ‹stationRoller st = none›
       subst hst
       simp)

/-- Another station keeps its state, or is held FAULTED with the same entry, or is RELEASING without one. -/
theorem Live.holdStation_other (s : Live) (held : List Station) {st p : Station} (hp : p ≠ st) :
    (s.holdStation T held st).stationState p = s.stationState p
      ∨ (s.holdStation T held st).stationState p = if p ∈ held then .faulted else .releasing := by
  unfold Live.holdStation
  split
  · exact .inl rfl
  · rename_i r hr h
    have hst := stationRoller_some hr
    subst hst
    split
    · rename_i q hq
      obtain ⟨c, hc, hmem⟩ := Live.captureHolder_some hq
      rw [Live.endCapture_stationState _ hc]
      split
      · rename_i x hx
        have := stationRoller_some hx
        subst this
        split
        · right; split <;> simp_all [Leaving.state]
        · exact .inl rfl
      · exact .inl rfl
    · simp [hp]
  all_goals
    left
    first
    | (have hst := stationRoller_some ‹stationRoller st = some _›
       subst hst
       simp [hp])
    | (have hst := stationRoller_none ‹stationRoller st = none›
       subst hst
       simp [hp]
       try (cases p <;> rfl))

/-- Holds along a list: each of its stations that is among those held ends FAULTED. -/
theorem Live.holdStations_fold (held : List Station) : ∀ (l : List Station) (s : Live) (p : Station), p ∈ held →
    (p ∈ l ∨ s.stationState p = .faulted) → (l.foldl (Live.holdStation T held) s).stationState p = .faulted
  | [], _, _, _, h => by simpa using h
  | a :: l, s, p, hp, h => by
    refine Live.holdStations_fold held l _ p hp ?_
    by_cases ha : p = a
    · subst ha; exact .inr (s.holdStation_self hp)
    · rcases h with h | h
      · exact .inl ((List.mem_cons.1 h).resolve_left ha)
      · rcases s.holdStation_other (T := T) held ha with k | k
        · exact .inr (k.trans h)
        · exact .inr (by rw [k]; simp [hp])

/-- A stop leaves its station undriven. -/
theorem Live.stopStation_self (s : Live) (r : Roller) : ((s.stopStation T r).stationState (stationOf r)).driven = false := by
  unfold Live.stopStation
  split
  · simp [StationState.driven]
  · simp [StationState.driven]
  · split
    · rename_i q hq
      obtain ⟨c, hc, hmem⟩ := Live.captureHolder_some hq
      rw [Live.endCapture_stationState _ hc, stationRoller_stationOf]
      simp [hmem, Leaving.state, StationState.driven]
    · simp [StationState.driven]
  · rename_i h1 h2 h3
    rw [← Live.roller_state]
    cases h : (s.roller r).state <;> simp_all [StationState.driven]

/-- Another station keeps its state, or is RELEASING. -/
theorem Live.stopStation_other (s : Live) {r : Roller} {p : Station} (hp : p ≠ stationOf r) :
    (s.stopStation T r).stationState p = s.stationState p ∨ (s.stopStation T r).stationState p = .releasing := by
  unfold Live.stopStation
  split
  · simp [hp]
  · simp [hp]
  · split
    · rename_i q hq
      obtain ⟨c, hc, hmem⟩ := Live.captureHolder_some hq
      rw [Live.endCapture_stationState _ hc]
      split
      · split
        · exact .inr rfl
        · exact .inl rfl
      · exact .inl rfl
    · simp [hp]
  · exact .inl rfl

/-- Stops leave no station driven. -/
theorem Live.stopStations_undriven (s : Live) (r : Roller) :
    ((s.stopStations T).stationState (stationOf r)).driven = false := by
  unfold Live.stopStations
  simp only [List.foldl_cons, List.foldl_nil]
  cases r with
  | ra =>
    rcases Live.stopStation_other (T := T) (s.stopStation T .ra) (r := .rb) (p := .ra) (by decide) with h | h
    · exact (congrArg StationState.driven h).trans (s.stopStation_self .ra)
    · exact congrArg StationState.driven h
  | rb => exact Live.stopStation_self _ _

end Sys2Proof.Machine
end

