-- ==== Sys2Proof/Laws/TableStore.lean ====
section
/-! SUPPORT. What the operations of the table store do to its regions, and that each keeps the law of the table store
(R29, R31 to R34, R41). -/

namespace Sys2Proof.Machine

/-! ## Regions by name -/

@[simp] theorem Tables.get_set_self (t : Tables) (n : RegionName) (x : Region) : (t.set n x).get n = x := by
  cases n <;> rfl

theorem Tables.get_set_of_ne (t : Tables) {n m : RegionName} (x : Region) (h : m ≠ n) : (t.set n x).get m = t.get m := by
  cases n <;> cases m <;> first | rfl | exact absurd rfl h

@[simp] theorem Tables.get_load (t : Tables) (c : Option LoadContext) (m : RegionName) :
    ({ t with load := c } : Tables).get m = t.get m := by cases m <;> rfl

theorem Tables.get_finish_self (t : Tables) (n : RegionName) (x : Region) : (t.finish n x).get n = x := by
  simp [Tables.finish]

theorem Tables.get_finish_of_ne (t : Tables) {n m : RegionName} (x : Region) (h : m ≠ n) :
    (t.finish n x).get m = t.get m := by simp [Tables.finish, Tables.get_set_of_ne _ _ h]

theorem Tables.get_begin_self (t : Tables) (n : RegionName) (k : Nat) :
    (t.begin n k).get n = { state := .loading, content := [] } := by simp [Tables.begin]

theorem Tables.get_begin_of_ne (t : Tables) {n m : RegionName} (k : Nat) (h : m ≠ n) : (t.begin n k).get m = t.get m := by
  simp [Tables.begin, Tables.get_set_of_ne _ _ h]

theorem Tables.get_append_self (t : Tables) (c : LoadContext) (d : List Byte) :
    (t.append c d).get c.region = { state := .loading, content := (t.get c.region).content ++ d } := by simp [Tables.append]

theorem Tables.get_append_of_ne (t : Tables) {c : LoadContext} {m : RegionName} (d : List Byte) (h : m ≠ c.region) :
    (t.append c d).get m = t.get m := by simp [Tables.append, Tables.get_set_of_ne _ _ h]

/-! ## The structure check and the rest of the tables (R33, R41) -/

/-- What CHANNELS' check reads of the other tables: SEGMENTS, and what SEGMENTS' check reads: CHANNELS. -/
theorem structureCheck_congr {t u : Tables} (n : RegionName) (b : List Byte)
    (hs : n = .channels → t.valid .segments = u.valid .segments ∧ t.content .segments = u.content .segments)
    (hc : n = .segments → t.valid .channels = u.valid .channels ∧ t.content .channels = u.content .channels) :
    structureCheck t n b = structureCheck u n b := by
  cases n <;> try rfl
  · simp [structureCheck, regionChecks, channelChecks, hs rfl]
  · simp [structureCheck, regionChecks, segmentChecks, hc rfl, Tables.entries]

/-- A check that finds no fault finds each of its parts good. -/
theorem firstFailure_none {l : List (Option Nat)} : ∀ {k : Nat}, firstFailure l k = none ↔ ∀ x ∈ l, x = none := by
  induction l with
  | nil => simp [firstFailure]
  | cons a l ih =>
    intro k
    cases a with
    | none => simp [firstFailure, ih]
    | some i => simp [firstFailure]

theorem Tables.valid_eq {t u : Tables} {n : RegionName} (h : t.get n = u.get n) : t.valid n = u.valid n := by
  simp [Tables.valid, h]

theorem Tables.content_eq {t u : Tables} {n : RegionName} (h : t.get n = u.get n) : t.content n = u.content n := by
  simp [Tables.content, Tables.valid, h]

/-- A region that is not VALID asks nothing of another's check. -/
theorem structureCheck_weaken {t u : Tables} {n : RegionName} {b : List Byte} (h : structureCheck t n b = none)
    (hs : n = .channels → u.valid .segments = true → t.get .segments = u.get .segments)
    (hc : n = .segments → u.valid .channels = true → t.get .channels = u.get .channels) :
    structureCheck u n b = none := by
  cases n <;> try exact h
  · by_cases hv : u.valid .segments = true
    · rw [← h]
      exact structureCheck_congr _ _ (fun _ => ⟨(Tables.valid_eq (hs rfl hv)).symm, (Tables.content_eq (hs rfl hv)).symm⟩)
        (fun hx => nomatch hx)
    · unfold structureCheck regionChecks channelChecks at h ⊢
      rw [firstFailure_none] at h ⊢
      simp only [hv] at h ⊢
      intro x hx
      simp only [List.mem_cons, List.mem_nil_iff, or_false] at hx h
      rcases hx with hx | hx | hx | hx | hx | hx | hx
      all_goals first | exact hx | exact h x (by simp [hx])
  · by_cases hv : u.valid .channels = true
    · rw [← h]
      exact structureCheck_congr _ _ (fun hx => nomatch hx)
        (fun _ => ⟨(Tables.valid_eq (hc rfl hv)).symm, (Tables.content_eq (hc rfl hv)).symm⟩)
    · unfold structureCheck regionChecks segmentChecks at h ⊢
      rw [firstFailure_none] at h ⊢
      simp only [hv] at h ⊢
      intro x hx
      simp only [List.mem_cons, List.mem_nil_iff, or_false] at hx h
      rcases hx with hx | hx | hx | hx
      all_goals first | exact hx | exact h x (by simp [hx])

/-! ## The law of the table store -/

/-- A region rewritten as not VALID leaves every other region's check. -/
theorem Tables.checks_weaken {t u : Tables} {n : RegionName} (h : t.law) (hu : u.valid n = false)
    (he : ∀ m, m ≠ n → u.get m = t.get m) (m : RegionName) (hv : u.valid m = true) :
    structureCheck u m (u.get m).content = none := by
  have hm : m ≠ n := fun hx => by rw [hx, hu] at hv; cases hv
  rw [he m hm]
  refine structureCheck_weaken (h.2.2.2 m (by rwa [← Tables.valid_eq (he m hm)])) ?_ ?_
  · rintro rfl hs
    exact (he .segments fun hx => by rw [hx, hu] at hs; cases hs).symm
  · rintro rfl hs
    exact (he .channels fun hx => by rw [hx, hu] at hs; cases hs).symm

/-- An accepted TABLE_BEGIN (R31). -/
theorem Tables.begin_law {t : Tables} (h : t.law) {n : RegionName} {k : Nat} (hl : t.loading = false)
    (hk : k ≤ regionMax n) : (t.begin n k).law := by
  have hno : ∀ m, (t.get m).state ≠ .loading := fun m hm => by
    simp only [Tables.loading, List.any_eq_false, beq_iff_eq] at hl
    exact hl m (by cases m <;> simp [regionNames]) hm
  have he : ∀ m, m ≠ n → (t.begin n k).get m = t.get m := fun m hm => Tables.get_begin_of_ne t k hm
  refine ⟨?_, fun m => ?_, fun m hm => ?_, fun m hv => ?_⟩
  · refine ⟨?_, ?_, Nat.zero_le _, hk, fun m hm => ?_⟩
    · exact congrArg Region.state (Tables.get_begin_self t n k)
    · exact congrArg (fun x : Region => x.content.length) (Tables.get_begin_self t n k)
    · by_contra hx; rw [he m hx] at hm; exact hno m hm
  · by_cases hx : m = n
    · subst hx; rw [Tables.get_begin_self]; exact Nat.zero_le _
    · rw [he m hx]; exact h.2.1 m
  · by_cases hx : m = n
    · subst hx; rw [Tables.get_begin_self]
    · rw [he m hx] at hm ⊢; exact h.2.2.1 m hm
  · exact Tables.checks_weaken h (by simp [Tables.valid, Tables.get_begin_self]) he m hv

/-- An accepted TABLE_DATA (R32). -/
theorem Tables.append_law {t : Tables} (h : t.law) {c : LoadContext} (hc : t.load = some c) {d : List Byte}
    (hd : c.expected + d.length ≤ c.total) : (t.append c d).law := by
  have hll := h.1
  rw [Tables.loadLaw, hc] at hll
  obtain ⟨h1, h2, h3, h4, h5⟩ := hll
  have he : ∀ m, m ≠ c.region → (t.append c d).get m = t.get m := fun m hm => Tables.get_append_of_ne t d hm
  have hself := Tables.get_append_self t c d
  refine ⟨?_, fun m => ?_, fun m hm => ?_, fun m hv => ?_⟩
  · refine ⟨congrArg Region.state hself, ?_, hd, h4, fun m hm => ?_⟩
    · have := congrArg (fun x : Region => x.content.length) hself
      simpa [h2] using this
    · by_contra hx; rw [he m hx] at hm; exact hx (h5 m hm)
  · by_cases hx : m = c.region
    · subst hx; rw [hself]; simp only [List.length_append, h2]; omega
    · rw [he m hx]; exact h.2.1 m
  · by_cases hx : m = c.region
    · subst hx; rw [hself] at hm; cases hm
    · rw [he m hx] at hm ⊢; exact h.2.2.1 m hm
  · exact Tables.checks_weaken h (by simp [Tables.valid, hself]) he m hv

/-- A load that ends INVALID (R33, R34). -/
theorem Tables.finish_empty_law {t : Tables} (h : t.law) {c : LoadContext} (hc : t.load = some c) :
    (t.finish c.region .empty).law := by
  have hll := h.1
  rw [Tables.loadLaw, hc] at hll
  have he : ∀ m, m ≠ c.region → (t.finish c.region .empty).get m = t.get m := fun m hm => Tables.get_finish_of_ne t _ hm
  have hself := Tables.get_finish_self t c.region .empty
  refine ⟨fun m hm => ?_, fun m => ?_, fun m hm => ?_, fun m hv => ?_⟩
  · by_cases hx : m = c.region
    · subst hx; rw [hself] at hm; cases hm
    · rw [he m hx] at hm; exact hx (hll.2.2.2.2 m hm)
  · by_cases hx : m = c.region
    · subst hx; rw [hself]; exact Nat.zero_le _
    · rw [he m hx]; exact h.2.1 m
  · by_cases hx : m = c.region
    · subst hx; rw [hself]; rfl
    · rw [he m hx] at hm ⊢; exact h.2.2.1 m hm
  · exact Tables.checks_weaken h (by rw [Tables.valid, hself]; rfl) he m hv

/-- A load abandoned (R34). -/
theorem Tables.abandon_law {t : Tables} (h : t.law) : t.abandon.law := by
  unfold Tables.abandon
  split
  · rename_i c hc; exact Tables.finish_empty_law h hc
  · exact h

/-- CHANNELS' check: the part that reads no other region, and the sets named (R41). -/
theorem channels_check {t : Tables} {b : List Byte} : structureCheck t .channels b = none ↔
    structureCheck (t.set .segments .empty) .channels b = none
      ∧ (t.valid .segments = true → missingSet (channelEntries b) ((t.get .segments).content.length / 34) = none) := by
  have hv : (t.set .segments .empty).valid .segments = false := rfl
  constructor
  · intro h
    refine ⟨structureCheck_weaken h (fun _ hx => by rw [hv] at hx; cases hx) (fun hx => nomatch hx), fun hs => ?_⟩
    unfold structureCheck at h
    rw [firstFailure_none] at h
    refine h _ ?_
    simp [regionChecks, channelChecks, hs, Tables.content]
  · rintro ⟨h, hs⟩
    unfold structureCheck at h ⊢
    rw [firstFailure_none] at h ⊢
    intro x hx
    simp only [regionChecks, channelChecks, hv, List.mem_cons, List.mem_nil_iff, or_false, Tables.content] at hx h
    rcases hx with hx | hx | hx | hx | hx | hx | hx
    · exact h x (.inl hx)
    · exact h x (.inr (.inl hx))
    · exact h x (.inr (.inr (.inl hx)))
    · exact h x (.inr (.inr (.inr (.inl hx))))
    · exact h x (.inr (.inr (.inr (.inr (.inl hx)))))
    · exact h x (.inr (.inr (.inr (.inr (.inr (.inl hx))))))
    rw [hx]
    split
    · rename_i hvs; simpa [hvs] using hs hvs
    · rfl

/-- SEGMENTS' check: the part that reads no other region, and the sets named (R41). -/
theorem segments_check {t : Tables} {b : List Byte} : structureCheck t .segments b = none ↔
    structureCheck (t.set .channels .empty) .segments b = none
      ∧ (t.valid .channels = true → missingSet (channelEntries (t.get .channels).content) (b.length / 34) = none) := by
  have hv : (t.set .channels .empty).valid .channels = false := rfl
  constructor
  · intro h
    refine ⟨structureCheck_weaken h (fun hx => nomatch hx) (fun _ hx => by rw [hv] at hx; cases hx), fun hs => ?_⟩
    unfold structureCheck at h
    rw [firstFailure_none] at h
    refine h _ ?_
    simp [regionChecks, segmentChecks, hs, Tables.entries, Tables.content]
  · rintro ⟨h, hs⟩
    unfold structureCheck at h ⊢
    rw [firstFailure_none] at h ⊢
    intro x hx
    simp only [regionChecks, segmentChecks, hv, List.mem_cons, List.mem_nil_iff, or_false] at hx h
    rcases hx with hx | hx | hx | hx
    · exact h x (.inl hx)
    · exact h x (.inr (.inl hx))
    · exact h x (.inr (.inr (.inl hx)))
    rw [hx]
    split
    · rename_i hvs; simpa [hvs, Tables.entries, Tables.content] using hs hvs
    · rfl

/-- A load that ends VALID (R33). -/
theorem Tables.finish_valid_law {t : Tables} (h : t.law) {c : LoadContext} (hc : t.load = some c)
    (hk : structureCheck t c.region (t.get c.region).content = none) :
    (t.finish c.region { state := .valid, content := (t.get c.region).content }).law := by
  have hll := h.1
  rw [Tables.loadLaw, hc] at hll
  have he : ∀ m, m ≠ c.region → (t.finish c.region { state := .valid, content := (t.get c.region).content }).get m = t.get m :=
    fun m hm => Tables.get_finish_of_ne t _ hm
  have hself := Tables.get_finish_self t c.region { state := .valid, content := (t.get c.region).content }
  refine ⟨fun m hm => ?_, fun m => ?_, fun m hm => ?_, fun m hv => ?_⟩
  · by_cases hx : m = c.region
    · subst hx; rw [hself] at hm; cases hm
    · rw [he m hx] at hm; exact hx (hll.2.2.2.2 m hm)
  · by_cases hx : m = c.region
    · subst hx; rw [hself]; exact h.2.1 _
    · rw [he m hx]; exact h.2.1 m
  · by_cases hx : m = c.region
    · subst hx; rw [hself] at hm; cases hm
    · rw [he m hx] at hm ⊢; exact h.2.2.1 m hm
  · by_cases hx : m = c.region
    · rw [hx, hself]
      refine structureCheck_weaken hk (fun hr _ => (he _ ?_).symm) (fun hr _ => (he _ ?_).symm) <;> rw [hr] <;> decide
    · rw [he m hx]
      have hm := h.2.2.2 m (by rwa [← Tables.valid_eq (he m hx)])
      by_cases hs : m = .channels ∧ c.region = .segments
      · obtain ⟨rfl, hr⟩ := hs
        refine channels_check.2 ⟨structureCheck_weaken hm (fun _ hv => by cases hv) (fun hx => nomatch hx), fun _ => ?_⟩
        rw [hr] at hk hself ⊢
        rw [hself]
        exact (segments_check.1 hk).2 (by rwa [← Tables.valid_eq (he _ hx)])
      · by_cases hs' : m = .segments ∧ c.region = .channels
        · obtain ⟨rfl, hr⟩ := hs'
          refine segments_check.2 ⟨structureCheck_weaken hm (fun hx => nomatch hx) (fun _ hv => by cases hv), fun _ => ?_⟩
          rw [hr] at hk hself ⊢
          rw [hself]
          exact (channels_check.1 hk).2 (by rwa [← Tables.valid_eq (he _ hx)])
        · refine structureCheck_weaken hm (fun hr _ => (he _ fun hy => hs ⟨hr, hy.symm⟩).symm)
            (fun hr _ => (he _ fun hy => hs' ⟨hr, hy.symm⟩).symm)

/-- The mirror trip level is 4 to 24 (R10). -/
theorem Tables.law_trip {t : Tables} (h : t.law) : 4 ≤ t.settings.trip ∧ t.settings.trip ≤ 24 := by
  unfold Tables.settings Tables.lane?
  by_cases hv : t.valid .lane = true
  · have hk := h.2.2.2 .lane hv
    unfold structureCheck at hk
    rw [firstFailure_none] at hk
    have hr : laneRanges t.lane.content = true := by
      have := hk (whole (laneRanges t.lane.content)) (by simp [regionChecks, laneChecks, Tables.get])
      unfold whole at this
      split at this
      · assumption
      · cases this
    simp only [laneRanges, inRange, Bool.and_eq_true, decide_eq_true_eq] at hr
    simp only [hv, if_true]
    omega
  · simp [hv]

end Sys2Proof.Machine
end

