-- ==== Sys2Proof/Tests/Slice0.lean ====
section
/-! SUPPORT. Tests of the writer's own: ill-formed commands that the check refuses; words and frames written out from the
spec's layouts; one step of a command on a small state; and, for each statement that has hypotheses, states that meet the
hypotheses of each of its clauses. -/

namespace Sys2Proof.Tests

open Sys2Proof Sys2Proof.Machine

/-! ## Small states -/

/-- The machine after the release of RESET with everything but its tables changed. -/
def machine (f : Live → Live) : State := State.reset.withLive (f State.reset.live)

/-- The same with a request in the buffer. -/
def asking (p : List Byte) (f : Live → Live) : State :=
  machine fun l => { f l with mgmt := { (f l).mgmt with request := some p } }

/-- A VALID region. -/
def full (b : List Byte) : Region := { state := .valid, content := b }

/-- A LANE content (R194): all stations present, drive heads 5 and 6, board 7, remote 9, plate length 1000 mm, mirror trip
level 24, auto-tare. -/
def laneBytes : List Byte := [7, 5, 6, 7, 9, 3, 0xE8] ++ List.replicate 14 0 ++ [24, 0, 1, 0, 0, 0xFF] ++ List.replicate 37 0

/-- A channel entry (R194): head 2, high limit 1000, low limit 0, the rest as given. -/
def entryBytes (channel role station applies : Byte) : List Byte :=
  [1, 2, channel, role, station, 0, 0, 0, 3, 0xE8, 0, 0, 0, 0, applies] ++ List.replicate 9 0

/-- A segment set of two points (R194): (0, 0) and (1000, 1000). -/
def segmentBytes : List Byte := [2, 0, 0, 0, 0, 0, 3, 0xE8, 3, 0xE8] ++ List.replicate 24 0

/-- A plan of the given steps (R194), loop start 0, roller-only entry allowed. -/
def planBytes (steps : List (List Byte)) : List Byte :=
  [0, 0, byte steps.length, 1] ++ List.replicate 12 0 ++ steps.flatten ++ List.replicate (256 - 8 * steps.length) 0

/-- A table store with every region but FAULTS and PROMPTS VALID: three channels of head 2 (AUX never judged, AUX always
judged, FORCE_L of RA) and one plan. -/
def filled (steps : List (List Byte)) : Tables :=
  { Tables.reset with
    lane := full laneBytes
    channels := full (entryBytes 0 13 3 2 ++ entryBytes 1 13 3 0 ++ entryBytes 2 0 1 2)
    segments := full segmentBytes
    plans := full (planBytes steps)
    limits := full []
    form := full [0, 40, 0, 8, 0, 0, 0, 0]
    glyphs := full [] }

/-- A state with the tables filled. -/
def lane (s : State) : State := { s with tables := filled [] }

/-- An axle record with nothing measured. -/
def axle1 : AxleRecord := AxleRecord.fresh 1 .steer .onStation

/-- A record that is OPEN in slot 1. -/
def record1 : VehicleRecord :=
  { cls := 0, plan := some 0, expected := 1, kinds := [.steer], ident := none, date := none, operator := none, forced := false,
    rollerOnly := false, axles := [], totalLoad := none, serviceEff := none, parkingEff := none, verdict := .absent,
    checkCode := none, printCount := 0 }

/-- Slot 1 in a state with a record. -/
def slot1 (x : SlotState) (r : VehicleRecord) (l : Live) : Live := l.setSlot 0 { state := x, record := some r }

/-- A roller station in a state. -/
def stands (r : Roller) (x : StationState) (l : Live) : Live := l.setRoller r { l.roller r with state := x }

/-- A fault entry of lane scope. -/
def entry (src : Source) (a : Action) (present : Bool) : FaultEntry :=
  { source := src, scope := .lane, action := a, present := present, prompt := none }

/-- A frame of no bytes. -/
def frame0 : Frame := { dest := 0, src := 0, kind := 9, payload := [] }

/-! ## Ill-formed commands are refused (WellFormed) -/

theorem test_mgmt_frame_needs_a_code : WellFormed (.mgmtFrame []) = false := by decide
theorem test_mgmt_frame_is_at_most_48_bytes : WellFormed (.mgmtFrame (List.replicate 49 0)) = false := by decide
theorem test_host_frame_is_not_to_0 : WellFormed (.hostPassThrough { dest := 0, src := 0, kind := 3, payload := [] }) = false := by
  decide
theorem test_host_frame_is_not_above_31 :
    WellFormed (.hostPassThrough { dest := 32, src := 0, kind := 3, payload := [] }) = false := by decide
theorem test_host_frame_payload_fits :
    WellFormed (.hostPassThrough { dest := 1, src := 0, kind := 3, payload := List.replicate 49 0 }) = false := by decide
theorem test_head_frame_comes_from_a_head :
    WellFormed (.headFramePassedUp { dest := 0, src := 31, kind := 12, payload := [] }) = false := by decide
theorem test_head_frame_is_not_to_31 :
    WellFormed (.headFramePassedUp { dest := 31, src := 1, kind := 12, payload := [] }) = false := by decide
theorem test_sample_channel_is_at_most_7 : WellFormed (.sampleFrame 1 8 [0]) = false := by decide
theorem test_sample_frame_has_samples : WellFormed (.sampleFrame 1 0 []) = false := by decide
theorem test_sample_frame_has_at_most_8 : WellFormed (.sampleFrame 1 0 (List.replicate 9 0)) = false := by decide
theorem test_sample_source_is_a_head : WellFormed (.sampleFrame 0 0 [0]) = false := by decide
theorem test_status_source_is_a_head : WellFormed (.headStatus 31 0 0) = false := by decide
theorem test_confirm_source_is_a_head : WellFormed (.buttonConfirm 0) = false := by decide
theorem test_repeat_source_is_a_head : WellFormed (.buttonRepeat 0) = false := by decide
theorem test_skip_source_is_a_head : WellFormed (.buttonSkip 31) = false := by decide
theorem test_stop_source_is_a_head : WellFormed (.operatorStop 31) = false := by decide
theorem test_unknown_button_source_is_a_head : WellFormed (.buttonUnknown 31 4) = false := by decide
theorem test_a_button_is_not_unknown : WellFormed (.buttonUnknown 1 3) = false := by decide
theorem test_entry_is_below_64 : WellFormed (.silenceLimit 64) = false := by decide

/-! ## Layouts written out from the spec -/

set_option maxRecDepth 10000 in
/-- CRC-16 with polynomial 0x1021 and initial value 0xFFFF of the digits 1 to 9 (R189). -/
theorem test_crc_of_the_digits : crc16 [0x31, 0x32, 0x33, 0x34, 0x35, 0x36, 0x37, 0x38, 0x39] = 0x29B1 := by decide
theorem test_be16 : be16 0x1234 = [0x12, 0x34] := by decide
theorem test_reply_frame_of_window : replyFrame 3 .ok [] = { dest := 0, src := 0, kind := 8, payload := [3, 0] } := by decide
theorem test_lane_settings_defaults : (LaneSettings.ofBytes laneBytes).settle = 500
    ∧ (LaneSettings.ofBytes laneBytes).tareInterval = 900 ∧ (LaneSettings.ofBytes laneBytes).trip = 24
    ∧ (LaneSettings.ofBytes laneBytes).autoTare = true ∧ (LaneSettings.ofBytes laneBytes).autoPrint = false
    ∧ (LaneSettings.ofBytes laneBytes).driveRB = 6 := by decide
theorem test_channel_entry : (filled []).entries[2]?.map (fun e => (e.role, e.station, e.head, e.channel, e.high))
    = some (.forceL, some .ra, 2, 2, 1000) := by decide
theorem test_plan_reads_its_units :
    ((filled [[9, 2, 0, 0, 0, 0, 0, 0], [1, 1, 0x80, 0, 0, 0, 0, 0]]).plan 0).unitAt 0 =
      some { step := 1, record := .spin (some .ra) true, mods := { station := some .rb, limitRow := none, part := none } } := by
  decide
theorem test_void_band_begins : voidBand.take 3 = [0x80, 0x80, 0x80] := by decide

/-! ## One step of a command -/

theorem test_status_after_reset : (match step { asking [1] id with pending := [.status] } with
    | .next s => s.live.chain.up.map (·.frame.payload) | _ => []) =
      [[1, 0, 0, 0, 0, 9, 9, 9, 0, 0, 0, 0, 0, 0, 0, 0, 0, 0, 0, 0, 0, 0, 0, 0]] := by decide
theorem test_unknown_request_is_refused : (match exec .mgmtUnknownRequest (asking [99] id) with
    | .next s => s.live.chain.up.map (·.frame.payload) | _ => []) = [[99, 3]] := by decide
theorem test_idle_step_ticks : (match step State.reset with | .next s => s.live.chain.windowTimer | _ => 9) = 1 := by decide
theorem test_estop_released_without_estop : exec .estopReleased State.reset = .next State.reset := by rfl
theorem test_keepalive_starts_timing : (match exec .keepalive (machine fun l =>
      { l with mgmt := { l.mgmt with keepState := .first, keepTimer := some 7 } }) with
    | .next s => (s.live.mgmt.keepState, s.live.mgmt.keepTimer) | _ => (.first, none)) = (.timing, some 0) := by decide
theorem test_mgmt_frame_fills_the_buffer : (match exec (.mgmtFrame [1]) State.reset with
    | .next s => s.live.mgmt.request | _ => none) = some [1] := by decide

/-! ## States that meet the hypotheses of the statements -/

/-- A small state asks for a request where its change leaves RESET and the waiting REPLY alone. -/
theorem asking_asks (p : List Byte) (f : Live → Live) (h : (f State.reset.live).resetAsserted = false)
    (k : (f State.reset.live).mgmt.reply = none) : (asking p f).asks p := ⟨h, k, rfl⟩

/-- The same with the tables changed. -/
theorem asking_asks_tables (T : Tables) (p : List Byte) (f : Live → Live) (h : (f State.reset.live).resetAsserted = false)
    (k : (f State.reset.live).mgmt.reply = none) : ({ asking p f with tables := T } : State).asks p := ⟨h, k, rfl⟩

/-- A state under RESET. -/
def held : State := machine fun l => { l with resetAsserted := true }

theorem witness_step_takes_the_front_command :
    ({ State.reset with pending := [.status, .window] } : State).pending = .status :: [.window] := by rfl

theorem witness_empty_queue : held.pending = [] ∧ held.live.resetAsserted = true
    ∧ State.reset.awake ∧ State.reset.live.due State.reset.tables = []
    ∧ (machine fun l => l.setSeq { l.seq with state := .running }).live.due State.reset.tables ≠ [] := by
  refine ⟨rfl, rfl, rfl, ?_, ?_⟩ <;> decide

theorem witness_under_reset : held.live.resetAsserted = true ∧ ∀ l, Instr.estopAsserted ≠ .resetRelease l :=
  ⟨rfl, fun _ h => by cases h⟩

theorem witness_reset : State.reset.awake ∧ held.live.resetAsserted = true := ⟨rfl, rfl⟩

theorem witness_table_law : State.reset.tables.law ∧ ∃ t, step State.reset = .next t := by
  refine ⟨⟨fun n => ?_, fun n => ?_, fun n _ => ?_, fun n h => ?_⟩, _, rfl⟩
  · cases n <;> decide
  · cases n <;> decide
  · cases n <;> rfl
  · cases n <;> exact absurd h (by decide)

theorem witness_laws : Lawful State.reset.tables State.reset.live ∧ ∃ t, step State.reset = .next t := by
  refine ⟨⟨?_, ?_, ?_, ?_⟩, _, rfl⟩
  · unfold QueuesBounded; decide
  · exact ⟨List.Pairwise.nil, fun e h => by cases h⟩
  · refine ⟨⟨by decide, fun i => ?_⟩, List.nodup_nil, fun e h => ?_, fun j h => ?_⟩
    exact (by decide : ∀ i, State.reset.live.slotState i = .free ↔ (State.reset.live.records.slots.get i).record = none) i
    · exact absurd h List.not_mem_nil
    · cases h
  · intro _ h; exact absurd h (by decide)

/-- The keepalive monitor in a state, its limits 50 ms and 250 ms. -/
def keep (k : KeepState) (n : Nat) : State :=
  machine fun l => { l with mgmt := { l.mgmt with keepState := k, keepTimer := some n, lower := 50, upper := 250 } }

theorem witness_keepalive : (keep .disabled 0).awake ∧ (keep .disabled 0).live.mgmt.keepState = .disabled
    ∧ (keep .first 0).live.mgmt.keepState = .first ∧ (keep .lapsed 0).live.mgmt.keepState = .lapsed
    ∧ (keep .timing 50).live.mgmt.keepState = .timing ∧ (keep .timing 50).live.mgmt.keepTimer = some 50
    ∧ (keep .timing 50).live.mgmt.lower ≤ 50 ∧ 49 < (keep .timing 49).live.mgmt.lower
    ∧ (keep .first 250).live.mgmt.upper ≤ 250 ∧ 249 < (keep .timing 249).live.mgmt.upper := by
  unfold State.awake; decide

/-- The chain with its bad-frame counts and window timer. -/
def counts (up down window : Nat) : State :=
  machine fun l => { l with chain := { l.chain with badUp := up, badDown := down, windowTimer := window } }

set_option maxRecDepth 10000 in
theorem witness_bad_frames : (counts 0 0 0).awake ∧ bytesBad .up [0] = true
    ∧ ((counts 6 0 0).live.countBad .up).chain.bad .up ≠ (counts 6 0 0).tables.settings.badLimit
    ∧ ((counts 7 0 0).live.countBad .up).chain.bad .up = (counts 7 0 0).tables.settings.badLimit
    ∧ ((counts 0 7 0).live.countBad .down).chain.bad .down = (counts 0 7 0).tables.settings.badLimit
    ∧ bytesBad .up (frameBytes (hostToController kindKeepalive [])) = false
    ∧ 1000 ≤ (counts 7 7 1000).live.chain.windowTimer ∧ (counts 7 7 1000).live.chain.badDown < State.reset.tables.settings.badLimit
    ∧ State.reset.tables.settings.badLimit ≤ (counts 8 0 1000).live.chain.badUp
    ∧ (counts 0 0 999).live.chain.windowTimer < 1000 := by
  unfold State.awake; decide

/-- The down queue with so many frames. -/
def downs (n : Nat) : State := machine fun l => l.setDown (List.replicate n { source := .host, frame := frame0 })

/-- A host frame to a head. -/
def toHead (dest kind : Byte) : Frame := { dest := dest, src := 0, kind := kind, payload := [] }

theorem witness_host_frame : (downs 9).awake ∧ hostFrameFits (toHead 1 12) = true ∧ hostFrameFits (toHead 31 12) = true
    ∧ hostPasses (downs 9).tables (downs 9).live (toHead 1 12) ∧ hostPasses (downs 9).tables (downs 9).live (toHead 31 12)
    ∧ (downs 9).live.chain.down.length < 10 ∧ 10 ≤ (downs 10).live.chain.down.length
    ∧ ¬ hostPasses (downs 0).tables (downs 0).live (toHead 31 3) := by
  refine ⟨rfl, by decide, by decide, ?_, ?_, by decide, by decide, ?_⟩
  · simp [hostPasses, toHead, kindDrive, kindHeadSetup]
  · simp [hostPasses, toHead, kindDrive]
  · intro h
    have k : (downs 0).live.mode = .service ∧ _ := (if_pos (show (toHead 31 3).kind = kindDrive by decide)).mp h
    exact absurd k.1 (by decide)

/-- The up queue with so many frames, and a REPLY that waits. -/
def ups (n : Nat) (reply : Option Frame) : State := machine fun l =>
  { l.setUp (List.replicate n { mirror := false, frame := frame0 }) with mgmt := { l.mgmt with reply := reply } }

theorem witness_up_frame_sent : (ups 32 none).awake
    ∧ (ups 32 none).live.chain.up = { mirror := false, frame := frame0 } :: List.replicate 31 { mirror := false, frame := frame0 }
    ∧ (ups 32 none).live.mgmt.reply = none ∧ (ups 32 (some frame0)).live.mgmt.reply = some frame0
    ∧ (List.replicate 31 (0 : Nat)).length < 32 := by
  unfold State.awake; decide

/-- Sixteen frames down, and the frames that the stations hold. -/
def downHeld (a b : Option Frame) (n : Nat) : State :=
  { downs n with live := ((downs n).live.setHeld .ra a).setHeld .rb b }

theorem witness_down_frame_sent : (downHeld none none 16).awake
    ∧ (downHeld none none 16).live.chain.down = { source := .host, frame := frame0 } :: (downs 15).live.chain.down
    ∧ (downs 15).live.chain.down.length < 16 ∧ (downHeld none none 16).live.ra.heldDrive = none
    ∧ (downHeld none none 16).live.rb.heldDrive = none ∧ (downHeld (some frame0) none 16).live.ra.heldDrive = some frame0
    ∧ (downs 15).live.chain.down.length = 15 ∧ (downHeld none (some frame0) 16).live.rb.heldDrive = some frame0
    ∧ (downHeld (some frame0) (some frame0) 15).live.rb.heldDrive = some frame0 ∧ (downs 14).live.chain.down.length < 15
    ∧ (∀ x ∈ [({ source := .drive, frame := driveFrame .reset .ra true } : DownFrame)], x.isDrive = true)
    ∧ (∀ x ∈ [({ source := .host, frame := frame0 } : DownFrame)], x.isDrive = false) := by
  unfold State.awake; decide

/-- A frame of a head to the host. -/
def fromHead (kind : Byte) : Frame := { dest := 0, src := 2, kind := kind, payload := [0, 0] }

theorem witness_head_frames : (ups 23 none).awake ∧ headFrameFits (fromHead 1) = true ∧ frameBad .down (fromHead 1) = false
    ∧ passedUp (ups 23 none).tables (fromHead 1) ∧ (ups 23 none).live.chain.up.length < (ups 23 none).tables.settings.trip
    ∧ (ups 24 none).tables.settings.trip ≤ (ups 24 none).live.chain.up.length
    ∧ WellFormed (.sampleFrame 2 7 [0]) = true ∧ (ups 0 none).tables.steering = false
    ∧ (lane (ups 23 none)).tables.steering = true ∧ (lane (ups 23 none)).tables.entryOfHead 2 7 = none
    ∧ (ups 23 none).live.chain.up.length < (filled []).settings.trip ∧ (filled []).settings.trip ≤ (ups 24 none).live.chain.up.length := by
  refine ⟨rfl, ?_⟩
  unfold passedUp
  decide

/-- A channel at rest. -/
def channel0 : ChannelState :=
  { latest := none, silence := some 0, silent := false, silenceRaised := false, outside := false, windowRaised := false,
    decimation := 0 }

/-- The lane with its three channels. -/
def steered (c : ChannelState) (f : Live → Live) : State :=
  lane (machine fun l => f (l.setSteer { l.steer with channels := [c, c, c] }))

/-- Entry 0, never judged; entry 1, always judged; entry 2, FORCE_L of RA. -/
def entryAt (i : Nat) : ChannelEntry := (filled []).entries.getD i (ChannelEntry.ofBytes [])

theorem witness_aux_sample : (steered channel0 id).awake ∧ WellFormed (.sampleFrame 2 0 ([5] ++ [0])) = true
    ∧ (steered channel0 id).tables.steering = true ∧ (steered channel0 id).tables.entryOfHead 2 0 = some 0
    ∧ (steered channel0 id).tables.entryOfHead 2 1 = some 1
    ∧ (steered channel0 id).tables.entries[0]? = some (entryAt 0) ∧ (steered channel0 id).tables.entries[1]? = some (entryAt 1)
    ∧ (steered channel0 id).live.steer.channels[1]? = some channel0 ∧ (entryAt 0).role = .aux ∧ (entryAt 1).role = .aux
    ∧ (entryAt 1).station = none ∧ (entryAt 1).mirror = .none ∧ channel0.outside = false
    ∧ (entryAt 0).applicability = .never ∧ (entryAt 1).applicability = .always
    ∧ (entryAt 1).low ≤ calibrated (filled []) (entryAt 1) (signed16 0)
    ∧ calibrated (filled []) (entryAt 1) (signed16 1000) ≤ (entryAt 1).high
    ∧ (entryAt 1).high < calibrated (filled []) (entryAt 1) (signed16 1001) ∧ channel0.windowRaised = false := by
  refine ⟨rfl, ?_⟩
  decide

/-- Settings of a capture: SERVICE, ended by the operator. -/
def settings0 : CaptureSettings := captureSettings [16, 4, 0, 0, 0, 0] none none

/-- RA MEASURING with a capture of a force count. -/
def measuring (c : CaptureSettings) (count timer : Nat) : State :=
  let k := Capture.start c { repeated := false, manual := false } 0
  steered channel0 fun l =>
    (stands .ra .measuring l).setCapture .ra (some { k with timer := timer, left := { k.left with count := count } })

theorem witness_force_sample : (measuring settings0 15 0).awake ∧ WellFormed (.sampleFrame 2 2 [100]) = true
    ∧ (measuring settings0 15 0).tables.steering = true ∧ (measuring settings0 15 0).tables.entryOfHead 2 2 = some 2
    ∧ (measuring settings0 15 0).tables.entries[2]? = some (entryAt 2)
    ∧ (measuring settings0 15 0).live.steer.channels[2]? = some channel0 ∧ (entryAt 2).role = .forceL
    ∧ (entryAt 2).station = some .ra ∧ (filled []).present .ra = true ∧ (entryAt 2).enabled = true ∧ (entryAt 2).mirror = .none
    ∧ (entryAt 2).applicability = .never ∧ channel0.silent = false ∧ (measuring settings0 15 0).live.ra.state = .measuring
    ∧ settings0.joint = false ∧ settings0.ceiling = none ∧ settings0.length = none
    ∧ (measuring settings0 15 0).live.ra.capture.map (·.left.count) = some 15
    ∧ (measuring settings0 16 0).live.ra.capture.map (·.left.count) = some 16 := by
  refine ⟨rfl, ?_⟩
  decide

theorem witness_head_status : (lane State.reset).awake ∧ headAddress 5 = true
    ∧ (lane State.reset).tables.driveStation 5 = some .ra ∧ (lane State.reset).tables.driveStation 6 = some .rb
    ∧ (lane State.reset).live.ra.driveFault = false
    ∧ (lane (machine fun l => l.setRoller .ra { l.ra with driveFault := true })).live.ra.driveFault = true := by
  refine ⟨rfl, ?_⟩
  decide

/-- The sequencer changed, with a plan of the given steps in a record that is OPEN. -/
def planned (steps : List (List Byte)) (q : Seq → Seq) (f : Live → Live) : State :=
  { (machine fun l => let m := f (slot1 .opened { record1 with axles := [axle1] } l); m.setSeq (q m.seq)) with
    tables := filled steps }

/-- A sequencer that waits on an AWAIT step. -/
def awaiting (c : AwaitCondition) (t : Nat) (halt : Bool) (n : Nat) (q : Seq) : Seq :=
  { q with state := .waiting, wait := some (.await c .ra t halt), awaitTimer := some n }

/-- An AWAIT CONFIRM step. -/
def awaitStep : List Byte := [6, 0, 0, 0, 0, 0, 0, 0]

/-- A CAPTURE step of RA. -/
def captureStep : List Byte := [2, 1, 16, 4, 0, 0, 0, 0]

theorem witness_confirm : (lane State.reset).awake ∧ headAddress 9 = true ∧ (lane State.reset).tables.isRemote 9 = true
    ∧ noButton 4 = true ∧ (lane State.reset).live.latestOperatorCapture = none
    ∧ (lane State.reset).live.seq.awaitsConfirm = false
    ∧ (lane State.reset).live.seq.state ∉ [SeqState.running, .waiting, .halted]
    ∧ (planned [awaitStep] (awaiting .confirm 0 false 0) id).live.seq.wait = some (.await .confirm .ra 0 false)
    ∧ (planned [awaitStep] (awaiting .confirm 0 false 0) id).live.currentUnit (filled [awaitStep])
      = some { step := 0, record := .await .confirm 0 false, mods := Modifiers.none }
    ∧ (planned [awaitStep] (awaiting .confirm 0 false 0) id).live.seq.stepEndPrompt = none
    ∧ (planned [awaitStep] (awaiting .confirm 0 false 0) id).live.seq.pausePending = false := by
  refine ⟨rfl, ?_⟩
  decide

/-- A sequencer RUNNING outside a unit with a last capture on RA. -/
def captured (q : Seq) : Seq :=
  { q with state := .running, last := some { step := 0, roller := .ra, restart := 0, axle := 1, part := .service } }

theorem witness_repeat_and_skip :
    (planned [captureStep] captured (·.setBound .ra (some 1))).live.seq.inside = false
    ∧ (planned [captureStep] (fun q => { q with state := .waiting, wait := some (.capture .ra) }) id).live.seq.inside = true
    ∧ (planned [captureStep] (fun q => { q with state := .waiting, pendingRepeat := true }) id).live.seq.pendingRepeat = true
    ∧ (planned [captureStep] captured (·.setBound .ra (some 1))).live.seq.pendingRepeat = false
    ∧ (planned [captureStep] captured (·.setBound .ra (some 1))).live.bound .ra = some 1
    ∧ (planned [captureStep] captured (·.setBound .ra (some 1))).live.axle? 1 = some axle1 ∧ axle1.service.repeats ≠ 3
    ∧ (planned [captureStep] captured id).live.plan? (filled [captureStep]) = some ((filled [captureStep]).plan 0)
    ∧ (∀ r, (planned [captureStep] captured id).live.seq.wait ≠ some (.capture r))
    ∧ ((filled [captureStep]).plan 0).nextCapture 0 = some 0 ∧ ((filled [awaitStep]).plan 0).nextCapture 0 = none := by
  refine ⟨by decide, by decide, by decide, by decide, by decide, by decide, by decide, by decide, fun r h => ?_, by decide, by decide⟩
  cases h

/-! ### The management unit -/

theorem witness_requests : State.reset.awake ∧ requestFits [1] = true ∧ requestFits (List.replicate 48 1) = true
    ∧ State.reset.live.mgmt.request = none ∧ (asking [1] id).live.mgmt.request ≠ none
    ∧ (asking [0] id).asks [0] ∧ (0 : Byte).toNat = 0 ∧ (asking [24] id).asks [24] ∧ 23 < (24 : Byte).toNat
    ∧ (asking [16, 0] id).asks [16, 0] ∧ (asking [16, 0, 4] id).asks [16, 0, 4] ∧ 3 < (([0, 4] : List Byte).getD 1 0).toNat := by
  unfold State.asks State.awake; decide

theorem witness_status : (asking [1] id).asks [1] ∧ (asking [1, 0] id).asks [1, 0] := by
  unfold State.asks State.awake; decide

/-- A lane in a mode without OPEN record. -/
def inMode (m : LaneMode) : Live → Live := fun l => { l with mode := m }

theorem lane_free (m : LaneMode) : laneFree (filled []) (inMode m State.reset.live) :=
  ⟨by cases m <;> rfl, by cases m <;> rfl, fun st _ => Or.inr (Or.inr (by cases m <;> cases st <;> rfl))⟩

theorem witness_lane_mode : (asking [2, 3] id).asks [2, 3] ∧ (∀ m : LaneMode, ([3] : List Byte) ≠ [byte (modeCode m)])
    ∧ (asking [2, 1] (slot1 .opened record1)).asks [2, byte (modeCode .manual)]
    ∧ ¬ laneFree .reset (slot1 .opened record1 State.reset.live) ∧ laneFree (filled []) (inMode .auto State.reset.live)
    ∧ laneFree (filled []) (inMode .service State.reset.live)
    ∧ ({ asking [2, 2] id with tables := filled [] } : State).asks [2, byte (modeCode .service)]
    ∧ ({ asking [2, 0] (inMode .service) with tables := filled [] } : State).asks [2, byte (modeCode .auto)]
    ∧ (inMode .service State.reset.live).mode = .service := by
  refine ⟨⟨rfl, rfl, rfl⟩, fun m => by cases m <;> decide, ⟨rfl, rfl, rfl⟩, fun h => absurd h.1 (by decide), lane_free _,
    lane_free _, ⟨rfl, rfl, rfl⟩, ⟨rfl, rfl, rfl⟩, rfl⟩

theorem witness_window : (asking [3, 1, 0, 0, 0, 250] id).asks (3 :: 1 :: (be16 0 ++ be16 250)) ∧ 0 ∈ [0, 50, 100, 250]
    ∧ 250 ∈ [250, 500, 1000, 2000, 5000] ∧ (asking [3, 0, 0, 250, 1, 0xF4] id).asks (3 :: 0 :: (be16 250 ++ be16 500))
    ∧ (asking [3] id).asks [3] ∧ ∀ (e : Bool) (lower upper : Nat), ([] : List Byte) ≠ (if e then 1 else 0) :: (be16 lower ++ be16 upper) := by
  refine ⟨⟨rfl, rfl, rfl⟩, by decide, by decide, ⟨rfl, rfl, rfl⟩, ⟨rfl, rfl, rfl⟩, fun e l u h => by cases h⟩

/-- A load of four bytes into FAULTS of which two have come. -/
def loading : Tables :=
  { Tables.reset with
    faults := { state := .loading, content := [0, 0xFF] }, load := some { region := .faults, total := 4, expected := 2 } }

theorem loading_law : loading.law := by
  refine ⟨⟨rfl, rfl, by decide, by decide, fun n h => ?_⟩, fun n => ?_, fun n h => ?_, fun n h => ?_⟩
  · cases n <;> first | rfl | exact absurd h (by decide)
  · cases n <;> decide
  · cases n <;> first | rfl | exact absurd h (by decide)
  · cases n <;> exact absurd h (by decide)

theorem witness_table_begin :
    (asking [4, 0, 0, 0] id).asks (4 :: byte (regionCode .lane) :: be16 0)
    ∧ (asking [4, 0, 0, 65] id).asks (4 :: byte (regionCode .lane) :: be16 65) ∧ regionMax .lane < 65
    ∧ ({ asking [4, 0, 0, 64] id with tables := loading } : State).asks (4 :: byte (regionCode .lane) :: be16 64)
    ∧ 64 ≤ regionMax .lane ∧ ¬ (∀ m, (loading.get m).state ≠ .loading)
    ∧ (∀ m, ((filled []).get m).state ≠ .loading) ∧ ¬ loadClass .lane (slot1 .opened record1 State.reset.live)
    ∧ loadClass .lane State.reset.live ∧ loadClass .channels State.reset.live ∧ loadClass .plans State.reset.live
    ∧ ({ asking [4, 0, 0, 1] id with tables := filled [] } : State).asks (4 :: byte (regionCode .lane) :: be16 1)
    ∧ (filled []).valid .lane = true ∧ (filled []).valid .channels = true ∧ (filled []).valid .plans = true
    ∧ RegionName.inert .plans ∧ (filled []).valid .faults = false ∧ loadClass .faults State.reset.live := by
  refine ⟨⟨rfl, rfl, rfl⟩, ⟨rfl, rfl, rfl⟩, by decide, ⟨rfl, rfl, rfl⟩, by decide, fun h => h .faults rfl, fun m => ?_,
    fun h => absurd h.1 (by decide), ⟨by decide, fun st => by cases st <;> decide⟩, ⟨by decide, fun st => by cases st <;> decide⟩,
    by show _ = _; decide, ⟨rfl, rfl, rfl⟩, by decide, by decide, by decide, Or.inl rfl, by decide, trivial⟩
  cases m <;> decide

theorem witness_table_data : loading.law
    ∧ ({ asking [5, 5, 0, 2, 1, 2] id with tables := loading } : State).asks (5 :: byte (regionCode .faults) :: (be16 2 ++ [1, 2]))
    ∧ ({ asking [5, 5, 0, 3, 1] id with tables := loading } : State).asks (5 :: byte (regionCode .faults) :: (be16 3 ++ [1]))
    ∧ ({ asking [5, 5, 0, 2, 1, 2, 3] id with tables := loading } : State).asks
        (5 :: byte (regionCode .faults) :: (be16 2 ++ [1, 2, 3]))
    ∧ ({ asking [5, 0, 0, 0, 1] id with tables := loading } : State).asks (5 :: byte (regionCode .lane) :: (be16 0 ++ [1]))
    ∧ (loading.get .faults).state = .loading ∧ (loading.get .lane).state ≠ .loading
    ∧ loading.load = some { region := .faults, total := 4, expected := 2 } ∧ 2 + [1, 2].length ≤ 4 ∧ 4 < 2 + [1, 2, 3].length :=
  ⟨loading_law, ⟨rfl, rfl, rfl⟩, ⟨rfl, rfl, rfl⟩, ⟨rfl, rfl, rfl⟩, ⟨rfl, rfl, rfl⟩, rfl, by decide, rfl, by decide, by decide⟩

/-- A whole FAULTS content: every action IGNORE, no prompts; ESTOP's is LOCK. -/
def faultsBytes : List Byte := (List.replicate 13 [0, 0xFF]).flatten ++ [4, 0xFF]

/-- A load of FAULTS that has come whole. -/
def loaded (b : List Byte) : Tables :=
  { Tables.reset with
    faults := { state := .loading, content := b }, load := some { region := .faults, total := b.length, expected := b.length } }

theorem loaded_law (b : List Byte) (h : b.length ≤ 28) : (loaded b).law := by
  refine ⟨⟨rfl, rfl, by simp, h, fun n k => ?_⟩, fun n => ?_, fun n k => ?_, fun n k => ?_⟩
  · cases n <;> first | rfl | exact absurd k (by simp [loaded, Tables.get, Tables.reset, Region.empty])
  · cases n <;> first | exact h | exact Nat.zero_le _
  · cases n <;> first | rfl | exact absurd k (by simp [loaded, Tables.get])
  · cases n <;> exact absurd k (by simp [Tables.valid, loaded, Tables.get, Tables.reset, Region.empty])

set_option maxRecDepth 20000 in
theorem witness_table_end : loading.law ∧ (loaded faultsBytes).law ∧ (loaded [9, 0xFF]).law
    ∧ ({ asking [6, 5, 0, 0] id with tables := loading } : State).asks (6 :: byte (regionCode .faults) :: be16 (0 : Half).toNat)
    ∧ (loading.get .lane).state ≠ .loading ∧ loading.load = some { region := .faults, total := 4, expected := 2 }
    ∧ crc16 faultsBytes ≠ 0 ∧ structureCheck (loaded faultsBytes) .faults faultsBytes = none
    ∧ structureCheck (loaded [9, 0xFF]) .faults [9, 0xFF] ≠ none ∧ RegionName.inert .faults
    ∧ ({ asking [7, 5] id with tables := loading } : State).asks [7, byte (regionCode .faults)] := by
  refine ⟨loading_law, loaded_law _ (by decide), loaded_law _ (by decide), ⟨rfl, rfl, rfl⟩, by decide, rfl, by decide, by decide,
    by decide, Or.inr (Or.inr (Or.inl rfl)), ⟨rfl, rfl, rfl⟩⟩

/-- A load of LANE that has come whole, FAULTS VALID with TARE_STALE and LINK_NOISE ignored. -/
def laneLoaded : Tables :=
  { Tables.reset with
    lane := { state := .loading, content := laneBytes }, faults := full faultsBytes
    load := some { region := .lane, total := 64, expected := 64 } }

set_option maxRecDepth 20000 in
theorem witness_lane_load : (laneLoaded.get .lane).content.length = 64 ∧ structureCheck laneLoaded .lane laneBytes = none
    ∧ (∀ x, x = Source.linkNoise ∨ x = .tareStale → laneLoaded.actionFor x = .ignore) ∧ State.reset.live.mode ≠ .service
    ∧ (∀ st, State.reset.live.stationState st = .offline)
    ∧ (∀ st, ({ laneLoaded with lane := full laneBytes } : Tables).present st = true) := by
  refine ⟨by decide, by decide, fun x h => ?_, by decide, fun st => by cases st <;> rfl, fun st => by cases st <;> decide⟩
  rcases h with h | h <;> subst h <;> decide

set_option maxRecDepth 20000 in
theorem witness_table_read :
    (asking [8, 3, 0, 0, 40, 0] id).asks [8, byte (regionCode .plans), byte (0 / 256), byte 0, byte 40, 0]
    ∧ (Tables.reset.get .plans).state ≠ .valid ∧ ((filled []).get .plans).state = .valid
    ∧ ({ asking [8, 3, 1, 15, 1, 0] id with tables := filled [] } : State).asks
        [8, byte (regionCode .plans), byte (271 / 256), byte 271, byte 1, 0]
    ∧ 271 < ((filled []).get .plans).content.length ∧ ((filled []).get .plans).content.length ≤ 272
    ∧ (asking [8, 0, 0, 0, 1, 1] fun l => { l with mgmt := { l.mgmt with tableCursor := some (.plans, 8) } }).asks
        (8 :: ([0, 0, 0] ++ [byte 1, 1]))
    ∧ (asking [8, 0, 0, 0, 1, 1] id).asks (8 :: ([0, 0, 0] ++ [byte 1, 1]))
    ∧ (asking [8, 0, 0, 0, 1, 1] id).live.mgmt.tableCursor = none := by
  refine ⟨⟨rfl, rfl, rfl⟩, by decide, by decide, ⟨rfl, rfl, rfl⟩, by decide, by decide, ⟨rfl, rfl, rfl⟩, ⟨rfl, rfl, rfl⟩, rfl⟩

/-- The law of the records of a state without print queue. -/
theorem record_law {l : Live} (h : SlotLaw l) (q : l.printer.queue = []) (j : l.printer.job = none) : RecordLaw l := by
  have n : (l.printer.queue.map (·.slot)).Nodup := by rw [q]; exact List.nodup_nil
  have m : ∀ e ∈ l.printer.queue, l.slotState e.slot = .closed ∨ l.slotState e.slot = .issued := by
    rw [q]; intro e he; cases he
  have p : l.printer.jobLaw := by intro x hx; rw [j] at hx; cases hx
  exact ⟨h, n, m, p⟩

/-- A record with its axle, OPEN. -/
def opened : Live → Live := slot1 .opened { record1 with axles := [axle1] }

theorem opened_law : RecordLaw (opened State.reset.live) := record_law (by unfold SlotLaw; decide) rfl rfl

/-- The cursor of slot 1. -/
def cursor (c : Option Nat) (l : Live) : Live :=
  { l with mgmt := { l.mgmt with recordCursor := l.mgmt.recordCursor.set 0 c } }

theorem witness_record_read : (asking [9, 1, 0, 0] id).asks [9, byte 1, byte 0, 0]
    ∧ (State.reset.live.records.slots.get 0).state = .free
    ∧ RecordLaw (opened State.reset.live) ∧ (asking [9, 1, 11, 0] opened).asks [9, byte 1, byte 11, 0]
    ∧ ((opened State.reset.live).records.slots.get 0).record = some { record1 with axles := [axle1] }
    ∧ ({ record1 with axles := [axle1] } : VehicleRecord).axle? 1 = some axle1
    ∧ ({ record1 with axles := [axle1] } : VehicleRecord).axle? 10 = none
    ∧ (asking [9, 1, 0, 1] fun l => cursor none (opened l)).live.mgmt.recordCursor.get 0 = none
    ∧ (asking [9, 1, 0, 1] fun l => cursor (some 0) (opened l)).live.mgmt.recordCursor.get 0 = some (1 - 1)
    ∧ (asking [9, 1, 0, 1] fun l => cursor (some 1) (opened l)).live.mgmt.recordCursor.get 0 = some 1
    ∧ (asking [9, 1, 0, 1] fun l => cursor (some 11) (opened l)).live.mgmt.recordCursor.get 0 = some 11 := by
  refine ⟨⟨rfl, rfl, rfl⟩, by decide, opened_law, ⟨rfl, rfl, rfl⟩, rfl, by decide, by decide, by decide, by decide, by decide,
    by decide⟩

theorem witness_lane_reset : (asking [10] opened).asks [10] ∧ RecordLaw (opened State.reset.live) ∧ Tables.reset.load = none
    ∧ loading.load = some { region := .faults, total := 4, expected := 2 }
    ∧ (opened State.reset.live).ra.capture = none ∧ (stands .ra .spinning State.reset.live).stationState .ra = .spinning
    ∧ StationState.driven .spinning = true ∧ (stands .rb .faulted State.reset.live).stationState .rb = .faulted
    ∧ (filled []).present .rb = true := by
  refine ⟨⟨rfl, rfl, rfl⟩, opened_law, rfl, rfl, rfl, rfl, by decide, rfl, by decide⟩

theorem witness_up_flush : (asking [11] id).asks [11] ∧ mirrorCount State.reset.live.chain.up ≤ 24
    ∧ mirrorCount (List.replicate 24 ({ mirror := true, frame := frame0 } : UpFrame)) ≤ 24
    ∧ (ups 32 none).live.chain.up.length = 32 ∧ mirrorCount ((ups 32 none).live.chain.up.drop 1) = 0 := by
  refine ⟨⟨rfl, rfl, rfl⟩, by decide, by decide, by decide, by decide⟩

/-! ### The record store -/

/-- An absent text fits. -/
theorem no_text (n : Nat) : textFits n none := by intro x h; cases h

/-- `record1` is a record as VEHICLE_BEGIN opens it. -/
theorem record1_opening : Opening record1 :=
  { cls := by decide, plan := fun n h => by cases h; decide, count := by decide
    texts := ⟨no_text 12, no_text 10, no_text 6⟩
    flags := by decide, empty := by decide
    unjudged := by decide }

/-- VEHICLE_BEGIN of `record1` in a state with the tables filled. -/
def begin1 (T : Tables) (f : Live → Live) : State := { asking (12 :: beginArgs record1) f with tables := T }

/-- All four slots with a record that is CLOSED. -/
def allClosed (l : Live) : Live :=
  [0, 1, 2, 3].foldl (fun x i => x.setSlot i { state := .closed, record := some record1 }) l

/-- A lane with a fault entry. -/
def faulty (e : FaultEntry) (l : Live) : Live := { l with faults := [e] }

set_option maxRecDepth 20000 in
theorem witness_vehicle_begin : Opening record1 ∧ (begin1 (filled []) id).asks (12 :: beginArgs record1)
    ∧ (opened State.reset.live).openSlot ≠ none ∧ (inMode .service State.reset.live).mode = .service
    ∧ State.reset.live.openSlot = none ∧ (∀ i, (allClosed State.reset.live).slotState i ≠ .free)
    ∧ firstFree State.reset.live 0 ∧ Tables.reset.valid .lane = false ∧ (filled []).valid .limits = true
    ∧ (faulty (entry .pitGuard .lock true) State.reset.live).level = 3
    ∧ (faulty (entry .linkWindow .stop false) State.reset.live).level = 2
    ∧ (filled []).planCount = 1 ∧ ((filled []).plan 0).cls = record1.cls ∧ Tables.reset.planCount = 0
    ∧ (inMode .manual State.reset.live).mode = .manual := by
  refine ⟨record1_opening, ⟨rfl, rfl, rfl⟩, ?_⟩
  unfold firstFree
  decide

theorem witness_vehicle_end : (asking [13] opened).asks [13] ∧ (asking [14] opened).asks [14]
    ∧ RecordLaw (opened State.reset.live) ∧ State.reset.live.openSlot = none ∧ (opened State.reset.live).openSlot = some 0
    ∧ (opened State.reset.live).openRecord = some { record1 with axles := [axle1] } :=
  ⟨⟨rfl, rfl, rfl⟩, ⟨rfl, rfl, rfl⟩, opened_law, by decide, by decide, by decide⟩

theorem witness_closed_record : record1.checkCode = none ∧ record1.verdict = .absent := by decide

/-- Slot 1 CLOSED and in the print queue. -/
def queued (c : ComposerState) (l : Live) : Live :=
  let m := slot1 .closed record1 l
  m.setPrinter { m.printer with queue := [{ slot := 0, restarts := 0 }], composer := c }

theorem witness_slot_requests : (asking [15, 1] id).asks [15, byte 1] ∧ (asking [22, 1] id).asks [22, byte 1]
    ∧ (asking [23, 1] id).asks [23, byte 1] ∧ inPrintQueue (queued .idle State.reset.live) 0
    ∧ ¬ inPrintQueue State.reset.live 0 ∧ ¬ resultWaits State.reset.live 0
    ∧ resultWaits { State.reset.live with records := { State.reset.live.records with pendingResults := [(0, frame0)] } } 0
    ∧ State.reset.live.slotState 0 = .free ∧ (opened State.reset.live).slotState 0 = .opened
    ∧ (queued .idle State.reset.live).slotState 0 = .closed ∧ (slot1 .issued record1 State.reset.live).slotState 0 = .issued
    ∧ (queued .composing State.reset.live).printer.queue.head?.map (·.slot) = some 0
    ∧ (queued .composing State.reset.live).printer.composer = .composing := by
  refine ⟨⟨rfl, rfl, rfl⟩, ⟨rfl, rfl, rfl⟩, ⟨rfl, rfl, rfl⟩, ⟨_, List.mem_singleton.2 rfl, rfl⟩, fun h => ?_, fun h => ?_,
    ⟨_, List.mem_singleton.2 rfl, rfl⟩, ?_⟩
  · obtain ⟨e, he, _⟩ := h; cases he
  · obtain ⟨e, he, _⟩ := h; cases he
  · decide

/-! ### The stations -/

/-- No channel is silent where the steering unit has none. -/
theorem quiet_channels {l : Live} (h : l.steer.channels = []) : l.noneSilent := by intro c hc; rw [h] at hc; cases hc

/-- A MANUAL lane with a roller station in a state. -/
def manual (r : Roller) (x : StationState) : Live → Live := fun l => inMode .manual (stands r x l)

theorem witness_spin : (asking [16, 1, 0] id).asks [16, byte (stationCode (some (stationOf .ra))), 0]
    ∧ State.reset.live.mode = .auto ∧ (manual .ra .seated State.reset.live).mode ≠ .auto
    ∧ 2 ≤ (faulty (entry .linkWindow .stop false) State.reset.live).level ∧ (manual .ra .seated State.reset.live).level < 2
    ∧ (manual .ra .ready State.reset.live).ra.state.driven = true ∧ (manual .ra .taring State.reset.live).ra.state = .taring
    ∧ (manual .ra .faulted State.reset.live).ra.state = .faulted ∧ (manual .ra .idle State.reset.live).ra.state = .idle
    ∧ (manual .ra .seated State.reset.live).ra.state = .seated ∧ (manual .ra .seated State.reset.live).noneSilent
    ∧ (manual .ra .seated State.reset.live).seqFree
    ∧ (opened (manual .ra .seated (State.reset.live.setBound .ra (some 1)))).bound .ra = some 1
    ∧ (opened (manual .ra .seated (State.reset.live.setBound .ra (some 1)))).axle? 1 = some axle1
    ∧ axle1.load.values = none := by
  refine ⟨⟨rfl, rfl, rfl⟩, by decide, by decide, by decide, by decide, by decide, by decide, by decide, by decide, by decide,
    quiet_channels rfl, ⟨by decide, by decide⟩, by decide, by decide, by decide⟩

/-- CAPTURE settings as bytes 2 to 7 of a record: SERVICE, ended by the operator; and PARKING, joint. -/
def captureBytes (joint : Bool) : List Byte := [if joint then 81 else 16, 4, 0, 0, 0, 0]

theorem witness_capture :
    (asking ([16, 1, 1] ++ (captureBytes false ++ [0xFF, 0xFF])) id).asks
      (16 :: byte (stationCode (some (stationOf .ra))) :: 1 :: (captureBytes false ++ [0xFF, 0xFF]))
    ∧ (captureBytes false).length = 6 ∧ rd (captureBytes false) 0 % 4 ≠ 3
    ∧ captureSettingsValid (captureBytes false) none none = true ∧ captureSettingsValid (captureBytes true) none none = true
    ∧ captureSettingsValid [28, 0, 0, 0, 0, 0] none none = false
    ∧ (captureSettings (captureBytes false) none none).joint = false
    ∧ (captureSettings (captureBytes true) none none).joint = true
    ∧ (manual .ra .measuring State.reset.live).ra.state = .measuring ∧ (manual .ra .faulted State.reset.live).ra.state = .faulted
    ∧ (manual .ra .idle State.reset.live).ra.state ∉ [StationState.ready, .measuring, .faulted]
    ∧ (manual .ra .ready State.reset.live).ra.state = .ready ∧ (manual .ra .ready State.reset.live).rb.state ≠ .ready
    ∧ (manual .ra .ready (stands .rb .ready State.reset.live)).rb.state = .ready
    ∧ (manual .ra .ready State.reset.live).noneSilent ∧ (manual .ra .ready State.reset.live).seqFree
    ∧ (asking [16, 0, 0] id).asks [16, 0, 0] ∧ (asking (16 :: 0 :: 1 :: List.replicate 8 0) id).asks (16 :: 0 :: 1 :: List.replicate 8 0)
    ∧ (asking [16, 0, 2] id).asks [16, 0, 2] := by
  refine ⟨⟨rfl, rfl, rfl⟩, by decide, by decide, by decide, by decide, by decide, by decide, by decide, by decide, by decide,
    by decide, by decide, by decide, by decide, quiet_channels rfl, ⟨by decide, by decide⟩,
    ⟨rfl, rfl, rfl⟩, ⟨rfl, rfl, rfl⟩, ⟨rfl, rfl, rfl⟩⟩

theorem witness_release : (asking [16, 1, 2] id).asks [16, byte (stationCode (some (stationOf .ra))), 2]
    ∧ (manual .ra .offline State.reset.live).ra.state = .offline ∧ (manual .ra .idle State.reset.live).ra.state.driven = false
    ∧ (manual .ra .spinning State.reset.live).ra.state = .spinning ∧ (manual .ra .ready State.reset.live).ra.state = .ready
    ∧ (manual .ra .ready State.reset.live).seqFree ∧ (measuring settings0 0 0).live.captureHolder .ra = some .ra
    ∧ (measuring settings0 0 0).live.ra.capture ≠ none ∧ (measuring settings0 0 0).live.ra.state = .measuring := by
  refine ⟨⟨rfl, rfl, rfl⟩, by decide, by decide, by decide, by decide, ⟨by decide, by decide⟩, by decide, by decide, by decide⟩

set_option maxRecDepth 20000 in
theorem witness_tare : (asking [16, 0, 3] id).asks [16, byte (stationCode (some .ps)), 3]
    ∧ (asking [16, 1, 3] id).asks [16, byte (stationCode (some .ra)), 3]
    ∧ (manual .ra .taring State.reset.live).stationState .ra = .taring
    ∧ (manual .ra .faulted State.reset.live).stationState .ra = .faulted
    ∧ (manual .ra .seated State.reset.live).stationState .ra = .seated
    ∧ (manual .ra .idle State.reset.live).stationState .ra = .idle
    ∧ (inMode .service State.reset.live).stationState .ra = .offline ∧ (filled []).present .ra = true
    ∧ tareChannels (filled []) .ra ≠ [] ∧ tareChannels (filled []) .ps = []
    ∧ (manual .ra .idle State.reset.live).noneSilent ∧ (manual .ra .idle State.reset.live).seqFree := by
  refine ⟨⟨rfl, rfl, rfl⟩, ⟨rfl, rfl, rfl⟩, by decide, by decide, by decide, by decide, by decide, by decide, by decide, by decide,
    quiet_channels rfl, ⟨by decide, by decide⟩⟩

/-! ### The fault action unit and the board -/

theorem witness_clear_fault : (asking [17, 3] id).asks [17, byte (stationCode none)]
    ∧ (asking [17, 1] id).asks [17, byte (stationCode (some .ra))]
    ∧ (∀ e ∈ (faulty (entry .driveTimeout .hold false) State.reset.live).faults, e.action = .hold → e.present = false)
    ∧ (faulty (entry .driveFault .hold true) State.reset.live).faults.find? (fun e => e.action == .hold && e.present)
      = some (entry .driveFault .hold true) := by
  refine ⟨⟨rfl, rfl, rfl⟩, ⟨rfl, rfl, rfl⟩, by decide, by decide⟩

/-- A sequencer with a restart pending at RA. -/
def restarting (q : Seq) : Seq := { q with state := .paused, restart := some { unit := 0, roller := .ra, joint := false } }

theorem witness_resume : (asking [18] id).asks [18]
    ∧ (faulty (entry .pitGuard .stop true) State.reset.live).faults.find? (fun e => e.action == .stop && e.present)
      = some (entry .pitGuard .stop true)
    ∧ (∀ e ∈ (faulty (entry .operatorStop .stop false) State.reset.live).faults, e.action = .stop → e.present = false)
    ∧ (∀ st, State.reset.live.stationState st ≠ .faulted) ∧ State.reset.live.seq.state = .standby
    ∧ (planned [] restarting id).live.seq.restart = some { unit := 0, roller := .ra, joint := false }
    ∧ (planned [] restarting id).live.bound .ra = none
    ∧ (planned [] restarting (·.setBound .ra (some 1))).live.bound .ra = some 1 ∧ faultLevel [] ≠ 3 := by
  refine ⟨⟨rfl, rfl, rfl⟩, by decide, by decide, fun st => by cases st <;> decide, by decide, by decide, by decide, by decide,
    by decide⟩

theorem witness_clear_lockout : (asking [19] id).asks [19]
    ∧ ({ State.reset.live with lines := { State.reset.live.lines with estop := true } } : Live).lines.estop = true
    ∧ State.reset.live.lines.estop = false
    ∧ (faulty (entry .pitGuard .lock true) State.reset.live).faults.find? (fun e => e.action == .lock && e.present)
      = some (entry .pitGuard .lock true)
    ∧ (∀ e ∈ State.reset.live.faults, e.action ≠ .lock)
    ∧ (∀ e ∈ (faulty (entry .pitGuard .lock false) State.reset.live).faults, e.action = .lock → e.present = false)
    ∧ (faulty (entry .pitGuard .lock false) State.reset.live).faults.any (fun e => e.action == .lock) = true
    ∧ ∀ st, (State.reset.live.tare st).stale = true := by
  refine ⟨⟨rfl, rfl, rfl⟩, rfl, rfl, by decide, by decide, by decide, by decide, fun st => by cases st <;> rfl⟩

/-- A prompt of a number and class. -/
def prompt (n : Nat) (c : PromptClass) (links : List (Source × Scope)) : PromptEntry :=
  { number := n, cls := c, hold := 3, stepEnd := false, links := links, arrival := n, fixed := State.reset.live.slotValues .reset }

/-- A prompt queue. -/
def prompts (q : List PromptEntry) (t : Nat) (l : Live) : Live :=
  l.setGuide { l.guide with queue := q, holdTimer := some t, refreshTimer := some t }

/-- Eight prompts of a class. -/
def eight (c : PromptClass) : List PromptEntry := (List.range 8).map fun n => prompt n c []

theorem witness_prompt_post : (asking [20, 127] id).asks [20, 127] ∧ (127 : Byte).toNat ≤ 127
    ∧ State.reset.live.guide.queue.length ≤ 8 ∧ (eight .info).length ≤ 8
    ∧ ((eight .info).filter fun x => x.number != 127).length = 8 ∧ ((eight .info).filter fun x => x.number != 7).length < 8
    ∧ displaced (eight .info) = some (prompt 0 .info []) ∧ classRank .safety < classRank (prompt 0 .info []).cls
    ∧ classRank (prompt 0 .info []).cls ≤ classRank .info := by
  refine ⟨⟨rfl, rfl, rfl⟩, ?_⟩
  decide

theorem witness_prompt_clear : (asking [21, 0xFF] id).asks [21, 0xFF] ∧ (asking [21, 0] (prompts (eight .info) 0)).asks [21, 0]
    ∧ (∀ e ∈ State.reset.live.guide.queue, e.number ≠ 0)
    ∧ (eight .info).find? (fun x => x.number == 0) = some (prompt 0 .info []) ∧ (prompt 0 .info []).links = []
    ∧ [prompt 1 .safety [(.estop, .lane)]].find? (fun x => x.number == 1) = some (prompt 1 .safety [(.estop, .lane)])
    ∧ (prompt 1 .safety [(.estop, .lane)]).links ≠ [] := by
  refine ⟨⟨rfl, rfl, rfl⟩, ⟨rfl, rfl, rfl⟩, ?_⟩
  decide

theorem witness_board_timers :
    (machine (prompts (eight .info) 3000)).awake ∧ (prompt 0 .info []).hold * 1000 ≤ 3000
    ∧ 2999 < (prompt 0 .info []).hold * 1000 ∧ State.reset.live.guide.queue = []
    ∧ (machine (prompts (eight .info) 3000)).live.guide.holdTimer = some 3000
    ∧ (machine (prompts [] 100)).live.guide.refreshTimer = some 100 ∧ Config.refreshPeriod ≤ 100 ∧ 99 < Config.refreshPeriod
    ∧ (filled []).valid .lane = true ∧ (downs 9).live.chain.down.length + 4 ≤ 13 := by
  refine ⟨rfl, ?_⟩
  decide

/-! ### The controller's own events -/

/-- A RUNNING sequencer. -/
def runs (q : Seq) : Seq := { q with state := .running }

/-- The step SEAT of RA. -/
def seatStep : List Byte := [0, 1, 0, 0, 0, 0, 0, 0]
/-- SPIN of RA with its wait flag. -/
def spinStep : List Byte := [1, 1, 0x80, 0, 0, 0, 0, 0]
/-- RELEASE of RA with its wait flag. -/
def releaseStep : List Byte := [3, 1, 0x80, 0, 0, 0, 0, 0]
/-- TARE of RA without wait. -/
def tareStep : List Byte := [4, 1, 0, 0, 0, 0, 0, 0]
/-- ADVANCE. -/
def advanceStep : List Byte := [7, 0, 0, 0, 0, 0, 0, 0]
/-- PROMPT 5. -/
def promptStep : List Byte := [5, 5, 0, 0, 0, 0, 0, 0]

/-- The unit at a plan's start. -/
def firstUnit (steps : List (List Byte)) : Option PlanUnit := ((filled steps).plan 0).unitAt 0

theorem opened_planned_law : RecordLaw (planned [] runs id).live := record_law (by unfold SlotLaw; decide) rfl rfl

theorem witness_take_unit : (planned [] runs id).awake ∧ State.reset.live.seq.state ≠ .running
    ∧ (planned [] runs id).live.seq.state = .running
    ∧ (planned [] runs id).live.plan? (filled []) = some ((filled []).plan 0) ∧ firstUnit [] = none
    ∧ (planned [] runs id).live.openSlot = some 0 ∧ RecordLaw (planned [] runs id).live
    ∧ (firstUnit [seatStep]).map (fun u => (u.record, u.station)) = some (.seat (some .ra), some .ra)
    ∧ (planned [seatStep] runs (faulty (entry .pitGuard .lock true))).live.level = 3
    ∧ (planned [seatStep] runs (faulty (entry .linkWindow .stop false))).live.level = 2
    ∧ (planned [seatStep] runs (stands .ra .faulted)).live.stationState .ra = .faulted
    ∧ (planned [seatStep] runs id).live.stationState .ra = .offline ∧ (PlanStep.seat (some .ra)).needsStation = true
    ∧ (firstUnit [awaitStep]).map (fun u => (u.record, u.station)) = some (.await .confirm 0 false, some .ra)
    ∧ (planned [seatStep] runs (stands .ra .idle)).live.stationState .ra ≠ .seated
    ∧ (planned [seatStep] runs fun l => (stands .ra .seated l).setBound .ra (some 1)).live.bound .ra ≠ none
    ∧ (firstUnit [promptStep]).map (·.record) = some (.prompt 5 false)
    ∧ (firstUnit [advanceStep]).map (·.record) = some .advance
    ∧ ([axle1].countP (·.state == .done)) < record1.expected
    ∧ (planned [captureStep] (fun q => { runs q with armedSkip := some 0 }) id).live.seq.armedSkip
      = some (planned [captureStep] (fun q => { runs q with armedSkip := some 0 }) id).live.seq.pointer
    ∧ (planned [captureStep] (fun q => { runs q with armedSkip := some 0 }) (·.setBound .ra (some 1))).live.bound .ra = some 1
    ∧ (planned [captureStep] (fun q => { runs q with armedSkip := some 0 }) (·.setBound .ra (some 1))).live.axle? 1 = some axle1 := by
  refine ⟨rfl, by decide, by decide, by decide, by decide, by decide, opened_planned_law, ?_⟩
  decide

set_option maxRecDepth 20000 in
theorem witness_step_requests : (planned [spinStep] runs (stands .ra .seated)).awake
    ∧ (planned [spinStep] runs (stands .ra .seated)).live.seq.state = .running
    ∧ (planned [spinStep] runs (stands .ra .seated)).live.level < 2
    ∧ (planned [spinStep] runs (stands .ra .seated)).live.seq.stepEndPrompt = none
    ∧ (firstUnit [spinStep]).map (fun u => (u.record, u.station)) = some (.spin (some .ra) true, some .ra)
    ∧ (planned [spinStep] runs (stands .ra .seated)).live.ra.state = .seated
    ∧ (planned [spinStep] runs (stands .ra .seated)).live.noneSilent
    ∧ (firstUnit [releaseStep]).map (fun u => (u.record, u.station)) = some (.release (some .ra) true, some .ra)
    ∧ (planned [releaseStep] runs (stands .ra .ready)).live.ra.state = .ready
    ∧ (firstUnit [tareStep]).map (fun u => (u.record, u.station)) = some (.tare (some .ra) false, some .ra)
    ∧ (planned [tareStep] runs (stands .ra .idle)).live.stationState .ra = .idle ∧ tareChannels (filled [tareStep]) .ra ≠ []
    ∧ (firstUnit [captureStep]).map (fun u => (u.record, u.station)) = some (.capture (some .ra) [16, 4, 0, 0, 0, 0], some .ra)
    ∧ (captureSettings [16, 4, 0, 0, 0, 0] none none).joint = false
    ∧ (planned [captureStep] runs (stands .ra .ready)).live.seq.armedSkip
      ≠ some (planned [captureStep] runs (stands .ra .ready)).live.seq.pointer := by
  refine ⟨rfl, by decide, by decide, by decide, by decide, by decide, quiet_channels rfl, ?_⟩
  decide

theorem witness_await_timeout : (planned [awaitStep] (awaiting .confirm 2 true 2000) id).awake
    ∧ (planned [awaitStep] (awaiting .confirm 2 true 2000) id).live.seq.state = .waiting
    ∧ (planned [awaitStep] (awaiting .confirm 2 true 2000) id).live.seq.wait = some (.await .confirm .ra 2 true)
    ∧ (planned [awaitStep] (awaiting .confirm 2 true 2000) id).live.seq.awaitTimer = some 2000 ∧ 2 * 1000 ≤ 2000
    ∧ 1999 < 2 * 1000 ∧ (planned [awaitStep] (awaiting .delay 2 false 2000) id).live.currentUnit (filled [awaitStep]) ≠ none
    ∧ (planned [awaitStep] (awaiting .delay 2 false 2000) id).live.seq.pendingRepeat = false := by
  refine ⟨rfl, ?_⟩
  decide

/-- RA IDLE with a tare of an age in s and ms. -/
def aged (age ms : Nat) (stale : Bool) : State :=
  lane (machine fun l => (stands .ra .idle l).setTare .ra { Tare.reset with age := some age, ageMs := ms, stale := stale })

theorem witness_tare_upkeep : (aged 450 0 false).awake ∧ (filled []).valid .lane = true ∧ (filled []).settings.autoTare = true
    ∧ (aged 450 0 false).live.stationState .ra = .idle ∧ (aged 450 0 false).live.bound .ra = none
    ∧ (aged 450 0 false).live.tracker.g1 = [] ∧ (aged 450 0 false).live.mode ≠ .service
    ∧ (filled []).settings.tareInterval / 2 ≤ 450 ∧ 449 < (filled []).settings.tareInterval / 2
    ∧ ((aged 450 0 false).live.tare .ra).bar = false ∧ (aged 450 0 false).live.seqFree ∧ (aged 450 0 false).live.noneSilent
    ∧ ((aged 0 999 false).live.tare .ra).ageMs < 1000 ∧ 1000 ≤ ((aged 0 1000 false).live.tare .ra).ageMs
    ∧ min 65535 (898 + 1) < (filled []).settings.tareInterval ∧ (filled []).settings.tareInterval ≤ min 65535 (899 + 1)
    ∧ ((aged 899 1000 true).live.tare .ra).stale = true ∧ ((aged 899 1000 false).live.tare .ra).stale = false
    ∧ (filled []).present .ra = true ∧ State.reset.tables.present .ra = false := by
  refine ⟨rfl, by decide, by decide, by decide, by decide, by decide, by decide, by decide, by decide, by decide,
    ⟨by decide, by decide⟩, quiet_channels rfl, ?_⟩
  decide

/-- A channel with its silence timer. -/
def hush (t : Nat) (silent raised : Bool) : ChannelState :=
  { channel0 with silence := some t, silent := silent, silenceRaised := raised }

theorem witness_silence_limit : (steered (hush 100 false false) (stands .ra .taring)).awake
    ∧ (steered (hush 100 false false) (stands .ra .taring)).live.steer.channels[2]? = some (hush 100 false false)
    ∧ (hush 100 true false).silent = true ∧ 99 < (filled []).settings.silence ∧ (filled []).settings.silence ≤ 100
    ∧ (filled []).entries[2]? = some (entryAt 2) ∧ (entryAt 2).station = some .ra ∧ (entryAt 2).enabled = true
    ∧ (filled []).present .ra = true
    ∧ ((steered (hush 100 false false) (stands .ra .taring)).live.stationState .ra).atWork = true
    ∧ (entryAt 0).station = none ∧ (hush 100 false true).silenceRaised = true
    ∧ ((steered (hush 100 false false) (stands .ra .idle)).live.stationState .ra).atWork = false := by
  refine ⟨rfl, ?_⟩
  decide

/-- RA SETTLING for so many ms, with the seated flag as given. -/
def settling (n : Nat) (seated : Bool) (l : Live) : Live :=
  l.setRoller .ra { l.ra with state := .settling, settleTimer := some n, seated := seated }

theorem witness_settle_expiry : (planned [] id (settling 500 false)).awake
    ∧ (planned [] id (settling 500 false)).live.ra.state = .settling
    ∧ (planned [] id (settling 500 false)).live.ra.settleTimer = some 500 ∧ (filled []).settings.settle ≤ 500
    ∧ 499 < (filled []).settings.settle ∧ (planned [] id (settling 500 false)).live.seqFree
    ∧ (settling 500 true State.reset.live).ra.seated = true ∧ (settling 500 false State.reset.live).openRecord = none
    ∧ (planned [] id (settling 500 false)).live.openRecord = some { record1 with axles := [axle1] }
    ∧ (planned [] id fun l => settling 500 false { l with tracker := { l.tracker with g1 := [1] } }).live.tracker.g1 = 1 :: []
    ∧ (planned [] id (settling 500 false)).live.tracker.g1 = []
    ∧ rollerOnlyAllowed (filled []) record1 = true ∧ record1.axles.length < record1.expected
    ∧ ¬ ([axle1].length < record1.expected) := by
  refine ⟨rfl, by decide, by decide, by decide, by decide, ⟨by decide, by decide⟩, ?_⟩
  decide

/-- RA in a state with every timer at so many ms. -/
def timed (x : StationState) (n : Nat) : State :=
  machine fun l => l.setRoller .ra
    { l.ra with state := x, spinTimer := some n, readyTimer := some n, releaseTimer := some n }

theorem witness_drum_timers : (timed .spinning 8000).awake ∧ (timed .spinning 8000).live.ra.state = .spinning
    ∧ (timed .spinning 8000).live.ra.spinTimer = some 8000 ∧ (timed .spinning 7999).live.ra.spinTimer = some 7999
    ∧ (timed .ready 60000).live.ra.state = .ready ∧ (timed .ready 60000).live.ra.readyTimer = some 60000
    ∧ (timed .releasing 10000).live.ra.state = .releasing ∧ (timed .releasing 10000).live.ra.releaseTimer = some 10000
    ∧ (timed .idle 0).live.ra.state ≠ .spinning ∧ (timed .spinning 8000).live.seqFree := by
  refine ⟨rfl, by decide, by decide, by decide, by decide, by decide, by decide, by decide, by decide, ⟨by decide, by decide⟩⟩

theorem witness_capture_timeout : (measuring settings0 20 30000).awake ∧ State.reset.live.ra.capture = none
    ∧ (measuring settings0 20 30000).live.ra.capture.map (·.timer) = some 30000
    ∧ (measuring settings0 20 29999).live.ra.capture.map (·.timer) = some 29999
    ∧ (measuring settings0 20 30000).live.noneSilent ∧ (measuring settings0 20 30000).live.seq.planCapture .ra = none
    ∧ (measuring settings0 20 30000).live.seqFree ∧ settings0.joint = false
    ∧ (opened ((measuring settings0 20 30000).live.setBound .ra (some 1))).bound .ra = some 1
    ∧ (opened ((measuring settings0 20 30000).live.setBound .ra (some 1))).axle? 1 = some axle1 := by
  refine ⟨rfl, by decide, by decide, by decide, ?_, by decide, ⟨by decide, by decide⟩, by decide, by decide, by decide⟩
  unfold Live.noneSilent
  decide

/-! ### The printer and the lines -/

/-- A job of two page bands in slot 1. -/
def job1 (compose send : Nat) : Job :=
  { slot := 0, axleCount := 0, pageBands := 2, copy := false, verdict := .absent, copyNumber := 1, void := false,
    nextCompose := compose, nextSend := send }

/-- A band buffer in a state. -/
def buffer (x : BufferState) (band : Nat) : BandBuffer := { state := x, band := band, content := [] }

/-- A printer that is ready, slot 1 queued, with a job and buffers. -/
def printing (c : ComposerState) (j : Option Job) (a b : BandBuffer) (line : LineState) (ack : Bool) : State :=
  { machine (fun l =>
      let m := queued c l
      { m.setPrinter { m.printer with job := j, bufA := a, bufB := b, line := line, timer := some 5000 } with
        lines := { m.lines with ready := true, bandAck := ack } }) with tables := filled [] }

theorem witness_print_job :
    (printing .idle none .free .free .idle false).awake
    ∧ (printing .idle none .free .free .idle false).live.printer.composer = .idle
    ∧ (printing .idle none .free .free .idle false).live.printer.queue = [{ slot := 0, restarts := 0 }]
    ∧ (filled []).valid .form = true ∧ (filled []).valid .glyphs = true
    ∧ (printing .idle none .free .free .idle false).live.lines.ready = true
    ∧ ((printing .idle none .free .free .idle false).live.records.slots.get 0).record = some record1
    ∧ ((printing .composing (some (job1 1 0)) (buffer .composing 0) .free .idle false).live.printer.buffer .a).state = .composing
    ∧ (job1 1 0).nextCompose < (job1 1 0).length ∧ ¬ ((job1 2 0).nextCompose < (job1 2 0).length)
    ∧ ((printing .composing (some (job1 1 0)) (buffer .full 0) .free .idle false).live.printer.buffer (bufferOf 0)).state = .full
    ∧ ((printing .composing (some (job1 2 1)) .free (buffer .full 1) .idle false).live.printer.buffer (bufferOf 1)).band = 1 := by
  refine ⟨rfl, ?_⟩
  decide

theorem witness_band_ack :
    (printing .draining (some (job1 2 2)) .free (buffer .offered 1) .offered false).awake
    ∧ (printing .draining (some (job1 2 2)) .free (buffer .offered 1) .offered false).live.lines.bandAck = false
    ∧ (printing .draining (some (job1 2 2)) .free (buffer .offered 1) .offered false).live.printer.line = .offered
    ∧ (printing .draining (some (job1 2 2)) .free (buffer .offered 1) .offered false).live.printer.job = some (job1 2 2)
    ∧ (printing .composing (some (job1 1 1)) (buffer .offered 0) .free .offered false).live.printer.composer ≠ .draining
    ∧ (printing .composing (some (job1 1 1)) (buffer .offered 0) .free .taken true).live.lines.bandAck = true
    ∧ (printing .composing (some (job1 1 1)) (buffer .offered 0) .free .taken true).live.printer.line = .taken
    ∧ (printing .composing (some (job1 1 1)) (buffer .offered 0) .free .taken true).live.printer.fault = false
    ∧ (printing .composing (some (job1 1 1)) (buffer .offered 0) .free .taken true).live.printer.composer ≠ .paused
    ∧ State.reset.live.printer.line ≠ .taken := by
  refine ⟨rfl, ?_⟩
  decide

theorem witness_printer_faults :
    (printing .composing (some (job1 1 1)) (buffer .offered 0) .free .offered false).awake
    ∧ State.reset.live.printer.line = .idle
    ∧ (printing .composing (some (job1 1 1)) (buffer .offered 0) .free .offered false).live.printer.line ≠ .idle
    ∧ (printing .composing (some (job1 1 1)) (buffer .offered 0) .free .offered false).live.printer.timer = some 5000
    ∧ (printing .paused none .free .free .idle false).live.printer.composer = .paused
    ∧ (printing .paused none .free .free .idle false).live.printer.queue = { slot := 0, restarts := 0 } :: []
    ∧ (printing .paused none .free .free .idle true).live.lines.bandAck = true
    ∧ State.reset.live.lines.paperOut = false ∧ State.reset.live.lines.headHot = false
    ∧ (machine fun l => { l with lines := { l.lines with paperOut := true } }).live.lines.paperOut = true
    ∧ (machine fun l => { l with lines := { l.lines with headHot := true } }).live.lines.headHot = true
    ∧ ((printing .paused none .free .free .idle false).live.records.slots.get 0).record = some record1 := by
  refine ⟨rfl, ?_⟩
  decide

theorem witness_stop_inputs : (lane State.reset).awake ∧ headAddress 9 = true ∧ (lane State.reset).tables.isRemote 9 = true
    ∧ (lane State.reset).tables.valid .faults = false ∧ State.reset.live.faults.any (·.is .operatorStop .lane) = false
    ∧ State.reset.live.lines.estop = false ∧ State.reset.live.faults.any (·.is .estop .lane) = false
    ∧ (machine fun l => { l with lines := { l.lines with estop := true } }).live.lines.estop = true := by
  refine ⟨rfl, ?_⟩
  decide

/-- The result of a capture that took nothing. -/
def measuringResult : BrakeResult :=
  (Capture.start settings0 { repeated := false, manual := false } 0).result .ra .ra .timeout

set_option maxRecDepth 20000 in
theorem witness_limit_fields : (⟨.failAbove, 10, 5⟩ : LimitField).mode = .failAbove
    ∧ (⟨.failBelow, 5, 10⟩ : LimitField).mode = .failBelow ∧ (⟨.unused, 0, 0⟩ : LimitField).mode = .unused
    ∧ judgeField ⟨.failAbove, 10, 5⟩ 10 = .advisory ∧ judgeField ⟨.failAbove, 10, 5⟩ 5 = .pass
    ∧ judgeField ⟨.failBelow, 5, 10⟩ 5 = .advisory ∧ judgeField ⟨.failBelow, 5, 10⟩ 4 = .fail
    ∧ (LimitRow.ofBytes ([8, 4, 0, 0, 4, 0, 0, 0, 0, 0, 10, 0, 5] ++ List.replicate 19 0)).fields[1]? = some ⟨.failAbove, 10, 5⟩
    ∧ ({ measuringResult with ovalityL := some 10, ovalityR := some 11 } : BrakeResult).ovalityR = some 11 := by decide


/-! ### The values of the samples -/

/-- Tables whose channel map has an entry of a role and station (head 2, channel 0, never judged, no mirror), and DRUM_L of RA. -/
def fedTables (role station : Byte) : Tables :=
  { filled [] with channels := full (entryBytes 0 role station 2 ++ entryBytes 1 4 1 2) }

/-- A lane with these tables; the latest value of DRUM_L is 100. -/
def fed (role station : Byte) (f : Live → Live) : State :=
  { machine fun l => f (l.setSteer { l.steer with channels := [channel0, { channel0 with latest := some 100 }] }) with
    tables := fedTables role station }

/-- Its first entry. -/
def fedEntry (role station : Byte) : ChannelEntry := ChannelEntry.ofBytes (entryBytes 0 role station 2)

/-- The first entry takes the samples of head 2, channel 0, and asks for no window and no mirror. -/
def plainEntry (role station : Byte) : Bool :=
  (fedTables role station).entryOfHead 2 0 == some 0 && (fedTables role station).entries[0]? == some (fedEntry role station)
    && (fedEntry role station).applicability == .never && (fedEntry role station).mirror == .none
    && [Station.ps, .ra, .rb].all (fedTables role station).present

theorem steering_fed (role station : Byte) : (fedTables role station).steering = true := by
  have h : (fedTables role station).steering = (filled []).steering := rfl
  rw [h]; decide

theorem fed_sampled (role station : Byte) (x : Half) (f : Live → Live) (h : (fed role station f).live.resetAsserted = false)
    (k : (fed role station f).live.steer.channels[0]? = some channel0) (p : plainEntry role station = true) :
    Sampled (fed role station f) 2 0 x 0 (fedEntry role station) channel0 := by
  simp only [plainEntry, Bool.and_eq_true, beq_iff_eq, List.all_eq_true] at p
  obtain ⟨⟨⟨⟨p1, p2⟩, p3⟩, p4⟩, p5⟩ := p
  exact ⟨h, rfl, steering_fed role station, ⟨p1, p2⟩, k, ⟨p3, p4, rfl, rfl⟩,
    fun st _ => p5 st (by cases st <;> decide)⟩

/-- The pit guard open and raised. -/
def guarded (l : Live) : Live := l.setSteer { l.steer with guardOpen := true, guardRaised := true }

theorem witness_guard_samples : Sampled (fed 12 3 id) 2 0 1000 0 (fedEntry 12 3) channel0
    ∧ Sampled (fed 12 3 guarded) 2 0 1000 0 (fedEntry 12 3) channel0 ∧ (fedEntry 12 3).role = .pitGuard
    ∧ (fedEntry 12 3).station = none ∧ (fed 12 3 id).valueOf (fedEntry 12 3) 1000 = 1
    ∧ (fed 12 3 id).valueOf (fedEntry 12 3) 0 = 0 ∧ (fed 12 3 id).live.steer.guardRaised = false
    ∧ (fed 12 3 guarded).live.steer.guardRaised = true := by
  refine ⟨fed_sampled _ _ _ _ rfl rfl (by decide), fed_sampled _ _ _ _ rfl rfl (by decide), ?_⟩
  decide

/-- PS with a crossing of a direction, its contacts as given. -/
def crosses (d : Direction) (a b : Bool) (l : Live) : Live :=
  { l with ps := { l.ps with
      state := .crossing, crossing := some { direction := d, peak := some 5, stale := none }, contactIn := a, contactOut := b } }

/-- PS IDLE. -/
def plateIdle (l : Live) : Live := { l with ps := { l.ps with state := .idle } }

/-- Slot 1 OPEN with the one axle in the gap before RA. -/
def gapped (l : Live) : Live :=
  let m := opened l
  { m with tracker := { m.tracker with g1 := [1] } }

theorem witness_plate_samples : Sampled (fed 9 0 (crosses .forward true false)) 2 0 7 0 (fedEntry 9 0) channel0
    ∧ (fedEntry 9 0).role = .plateDisp ∧ (fedEntry 9 0).station = some .ps
    ∧ (fed 9 0 (crosses .forward true false)).live.ps.crossing = some { direction := .forward, peak := some 5, stale := none }
    ∧ State.reset.live.ps.state ∉ [.crossing, .taring]
    ∧ Sampled (fed 10 0 plateIdle) 2 0 1000 0 (fedEntry 10 0) channel0
    ∧ (fedEntry 10 0).role = .plateEntry ∧ (fedEntry 11 0).role = .plateExit ∧ (fed 10 0 plateIdle).live.ps.contactIn = false
    ∧ (fed 10 0 plateIdle).valueOf (fedEntry 10 0) 1000 = 1 ∧ (fed 10 0 plateIdle).valueOf (fedEntry 10 0) 0 = 0
    ∧ (fed 10 0 plateIdle).live.ps.state = .idle ∧ (fed 10 0 plateIdle).live.seqFree
    ∧ Sampled (fed 10 0 (crosses .forward true false)) 2 0 0 0 (fedEntry 10 0) channel0
    ∧ (fed 10 0 (crosses .forward true true)).live.ps.contactOut = true
    ∧ (fed 10 0 (crosses .forward true false)).live.ps.contactOut = false
    ∧ (fed 10 0 (crosses .forward true false)).live.openRecord = none
    ∧ (fed 10 0 fun l => crosses .forward true false (slot1 .opened record1 l)).live.openRecord = some record1
    ∧ record1.axles.length < record1.expected ∧ (fed 10 0 gapped).live.tracker.g1 = [1]
    ∧ ¬ ([axle1].length < record1.expected)
    ∧ (fed 11 0 fun l => crosses .reverse false true (gapped l)).live.openRecord = some { record1 with axles := [axle1] }
    ∧ [1].getLast? = some axle1.index ∧ (fed 11 0 opened).live.tracker.g1.getLast? = none := by
  refine ⟨fed_sampled _ _ _ _ rfl rfl (by decide), by decide, by decide, rfl, by decide, fed_sampled _ _ _ _ rfl rfl (by decide), by decide, by decide, rfl,
    by decide, by decide, rfl, ⟨by decide, by decide⟩, fed_sampled _ _ _ _ rfl rfl (by decide), ?_⟩
  decide

/-- An AUX entry with its scaled mirror at every second frame. -/
def mirrored : ChannelEntry := ChannelEntry.ofBytes ([1, 2, 0, 13, 3, 0, 0, 0, 3, 0xE8, 0, 0, 0, 0, 2, 2, 2] ++ List.replicate 7 0)

theorem witness_mirror : mirrored.mirror = .scaled ∧ mirrored.applicability = .never ∧ mirrored.role = .aux
    ∧ mirrored.station = none ∧ channel0.decimation + 1 < mirrored.decimation
    ∧ mirrored.decimation ≤ ({ channel0 with decimation := 1 } : ChannelState).decimation + 1 := by decide

/-- RA MEASURING with a capture of the settings and left reductions given. -/
def measures (c : CaptureSettings) (x : SideReduction) (l : Live) : Live :=
  (stands .ra .measuring l).setCapture .ra (some { Capture.start c { repeated := false, manual := false } 0 with left := x })

theorem witness_pedal_sample : Sampled (fed 8 3 (measures { settings0 with pedalTarget := some 50 } .start)) 2 0 50 0 (fedEntry 8 3)
      channel0
    ∧ (fedEntry 8 3).role = .pedal ∧ (fedEntry 8 3).station = none
    ∧ ((fed 8 3 (measures settings0 .start)).valueOf (fedEntry 8 3) 50).toNat = 50
    ∧ ((fed 8 3 (measures settings0 .start)).valueOf (fedEntry 8 3) 49).toNat < 50
    ∧ (∀ r k, ((fed 8 3 (measures settings0 .start)).live.roller r).capture = some k → k.settings.joint = false)
    ∧ (fed 8 3 (measures settings0 .start)).live.ra.state = .measuring
    ∧ (∀ q, q ≠ Roller.ra → ((fed 8 3 (measures settings0 .start)).live.roller q).state ≠ .measuring)
    ∧ (fed 8 3 (measures settings0 .start)).live.seqFree ∧ (fed 8 3 (measures settings0 .start)).live.noneSilent := by
  refine ⟨fed_sampled _ _ _ _ rfl rfl (by decide), by decide, by decide, by decide, by decide, fun r k h => ?_, rfl, fun q h => ?_,
    ⟨by decide, by decide⟩, ?_⟩
  · cases r
    · cases h; decide
    · cases h
  · cases q
    · exact absurd rfl h
    · decide
  · unfold Live.noneSilent; decide

theorem witness_capture_samples :
    Sampled (fed 0 1 (measures { settings0 with ceiling := some 300 } .start)) 2 0 300 0 (fedEntry 0 1) channel0
    ∧ (fedEntry 0 1).role = .forceL ∧ (fedEntry 0 1).station = some (stationOf .ra)
    ∧ ((fed 0 1 (measures settings0 .start)).valueOf (fedEntry 0 1) 300).toNat = 300
    ∧ Sampled (fed 0 1 (measures { settings0 with length := some 64 } { SideReduction.start with count := 63 })) 2 0 5 0 (fedEntry 0 1)
        channel0
    ∧ 64 ≤ ({ SideReduction.start with count := 63 } : SideReduction).count + 1
    ∧ Sampled (fed 6 1 (measures settings0 { SideReduction.start with lockupRun := 2 })) 2 0 70 0 (fedEntry 6 1) channel0
    ∧ (fedEntry 6 1).role = .wheelL
    ∧ (fed 6 1 (measures settings0 .start)).live.latest (fedTables 6 1) .ra .drumL = some 100
    ∧ ((fedTables 6 1).settings.ready : Int) ≤ 2 * 100
    ∧ ((fedTables 6 1).settings.lockup : Int) ≤ (1000 * (100 - (fed 6 1 id).valueOf (fedEntry 6 1) 70)).tdiv 100
    ∧ ¬ ((fedTables 6 1).settings.lockup : Int) ≤ (1000 * (100 - (fed 6 1 id).valueOf (fedEntry 6 1) 71)).tdiv 100 := by
  refine ⟨fed_sampled _ _ _ _ rfl rfl (by decide), by decide, by decide, by decide, fed_sampled _ _ _ _ rfl rfl (by decide), by decide,
    fed_sampled _ _ _ _ rfl rfl (by decide), ?_⟩
  decide

/-- The context of a tare of one channel. -/
def taredOne (count : Nat) (sum : Int) : TareContext :=
  { service := false, channels := [{ entry := 0, role := .forceL, count := count, sum := sum }] }

/-- RA TARING with a context. -/
def tares (k : TareContext) (l : Live) : Live := (stands .ra .taring l).setTare .ra { Tare.reset with context := some k }

theorem witness_tare_values : Sampled (fed 0 1 (tares (taredOne 62 0))) 2 0 0 0 (fedEntry 0 1) channel0
    ∧ Sampled (fed 0 1 (tares (taredOne 63 0))) 2 0 0 0 (fedEntry 0 1) channel0
    ∧ Sampled (fed 0 1 (tares (taredOne 63 64))) 2 0 0 0 (fedEntry 0 1) channel0
    ∧ Sampled (fed 2 1 (tares (taredOne 5 0))) 2 0 200 0 (fedEntry 2 1) channel0 ∧ (fedEntry 2 1).role = .loadL
    ∧ (fed 0 1 (tares (taredOne 63 0))).live.stationState .ra = .taring
    ∧ ((fed 0 1 (tares (taredOne 63 0))).live.tare .ra).context = some (taredOne 63 0)
    ∧ (fedTables 0 1).entries[0]?.map (·.tareLimit) = some 0 ∧ calibrated (fedTables 0 1) (fedEntry 0 1) 0 = 0
    ∧ (0 : Int).tdiv 64 = 0 ∧ 0 < ((64 : Int).tdiv 64).natAbs ∧ (fed 0 1 (tares (taredOne 63 0))).live.seqFree
    ∧ (fedTables 2 1).settings.seat ≤
        ((fed 2 1 (tares (taredOne 5 0))).sampledAs 0 (fedEntry 2 1) channel0 200).loadSum (fedTables 2 1) .ra
    ∧ (fed 2 1 (tares (taredOne 5 0))).valueOf (fedEntry 2 1) 200 = 200 := by
  refine ⟨fed_sampled _ _ _ _ rfl rfl (by decide), fed_sampled _ _ _ _ rfl rfl (by decide), fed_sampled _ _ _ _ rfl rfl (by decide), fed_sampled _ _ _ _ rfl rfl (by decide),
    by decide, rfl, rfl, by decide, by decide, by decide, by decide, ⟨by decide, by decide⟩, ?_⟩
  decide

/-- RA in a state, bound to axle 1 of the OPEN record, its seated flag as given. -/
def carries (x : StationState) (seated : Bool) (l : Live) : Live :=
  (opened l).setRoller .ra { l.ra with state := x, seated := seated } |>.setBound .ra (some 1)

/-- The load sum after a LOAD_L value of RA. -/
def sumAfter (f : Live → Live) (v : Int) : Int :=
  ((fed 2 1 f).sampledAs 0 (fedEntry 2 1) channel0 v).loadSum (fed 2 1 f).tables .ra

theorem witness_load_values : Sampled (fed 2 1 (stands .ra .idle)) 2 0 200 0 (fedEntry 2 1) channel0
    ∧ Sampled (fed 2 1 (carries .seated true)) 2 0 99 0 (fedEntry 2 1) channel0
    ∧ (fedEntry 2 1).station = some (stationOf .ra) ∧ (fedEntry 2 1).role = .loadL
    ∧ (fed 2 1 (stands .ra .idle)).live.ra.state = .idle ∧ (fedTables 2 1).settings.seat ≤ sumAfter (stands .ra .idle) 200
    ∧ sumAfter (stands .ra .idle) 199 < (fedTables 2 1).settings.seat
    ∧ sumAfter (carries .seated true) 99 < (fedTables 2 1).settings.empty
    ∧ ¬ sumAfter (carries .seated true) 100 < (fedTables 2 1).settings.empty
    ∧ (fed 2 1 (carries .seated true)).live.ra.seated = true ∧ (fed 2 1 (carries .settling false)).live.ra.seated = false
    ∧ (fed 2 1 (carries .seated true)).live.bound .ra = some 1 ∧ (fed 2 1 (stands .ra .seated)).live.bound .ra = none
    ∧ (fed 2 1 (carries .seated true)).live.openRecord = some { record1 with axles := [axle1] }
    ∧ ({ record1 with axles := [axle1] } : VehicleRecord).axle? 1 = some axle1 ∧ (fedTables 2 1).present .rb = true
    ∧ (fed 2 1 (carries .seated true)).live.tracker.g2.length < 4
    ∧ 4 ≤ (fed 2 1 fun l => let m := carries .seated true l
        { m with tracker := { m.tracker with g2 := [2, 3, 4, 5] } }).live.tracker.g2.length
    ∧ (fed 2 1 (carries .seated true)).live.seq.state = .standby
    ∧ sumAfter (carries .spinning true) 99 < (fedTables 2 1).settings.empty
    ∧ (fed 2 1 (carries .spinning true)).live.ra.state = .spinning := by
  refine ⟨fed_sampled _ _ _ _ rfl rfl (by decide), fed_sampled _ _ _ _ rfl rfl (by decide), ?_⟩
  decide

/-- RA in a state with its ready counts and its seated flag. -/
def counted (x : StationState) (a b : Nat) (seated : Bool) (l : Live) : Live :=
  l.setRoller .ra { l.ra with state := x, readyL := a, readyR := b, seated := seated }

theorem witness_drum_values : Sampled (fed 4 1 (counted .spinning 4 5 true)) 2 0 25 0 (fedEntry 4 1) channel0
    ∧ (fedEntry 4 1).role = .drumL ∧ (fed 4 1 (counted .spinning 4 5 true)).valueOf (fedEntry 4 1) 25 = 25
    ∧ ((fedTables 4 1).settings.ready : Int) ≤ 25 ∧ (fed 4 1 (counted .spinning 4 5 true)).live.ra.readyL + 1 = 5
    ∧ (fed 4 1 (counted .spinning 4 5 true)).live.ra.readyR = 5 ∧ (fed 4 1 (counted .spinning 3 5 true)).live.ra.readyL + 1 < 5
    ∧ Sampled (fed 4 1 (counted .releasing 0 0 true)) 2 0 4 0 (fedEntry 4 1) channel0
    ∧ (∀ z ∈ [Role.drumL, .drumR], (((fed 4 1 (counted .releasing 0 0 true)).sampledAs 0 (fedEntry 4 1) channel0 4).latest
        (fedTables 4 1) .ra z).getD 0 < (fedTables 4 1).settings.stopped)
    ∧ ¬ (4 + 1 : Int) < (fedTables 4 1).settings.stopped ∧ (fed 4 1 (counted .releasing 0 0 true)).live.seqFree
    ∧ (fed 4 1 (counted .spinning 4 5 true)).live.noneSilent ∧ (fed 4 1 (counted .idle 0 0 true)).live.ra.state = .idle := by
  refine ⟨fed_sampled _ _ _ _ rfl rfl (by decide), by decide, by decide, by decide, by decide, by decide, by decide,
    fed_sampled _ _ _ _ rfl rfl (by decide), by decide, by decide, ⟨by decide, by decide⟩, ?_, rfl⟩
  unfold Live.noneSilent; decide

/-! ### One step of a sample -/

theorem test_force_value_joins : (match exec (.sampleFrame 2 0 [300]) (fed 0 1 (measures settings0 .start)) with
    | .next s => s.live.ra.capture.map fun c => (c.left.count, c.left.peak) | _ => none) = some (1, 300) := by decide
theorem test_load_value_settles : (match exec (.sampleFrame 2 0 [200]) (fed 2 1 (stands .ra .idle)) with
    | .next s => (s.live.ra.state, s.live.ra.settleTimer) | _ => (.offline, none)) = (.settling, some 0) := by decide
theorem test_fifth_drum_value_readies : (match exec (.sampleFrame 2 0 [25]) (fed 4 1 (counted .spinning 4 5 true)) with
    | .next s => (s.live.ra.state, s.live.ra.readyTimer) | _ => (.offline, none)) = (.ready, some 0) := by decide
theorem test_contact_starts_a_crossing : (match exec (.sampleFrame 2 0 [1000]) (fed 10 0 plateIdle) with
    | .next s => s.live.ps.crossing.map (·.direction) | _ => none) = some .forward := by decide
theorem test_last_tare_value_completes : (match exec (.sampleFrame 2 0 [0]) (fed 0 1 (tares (taredOne 63 0))) with
    | .next s => (s.live.ra.state, s.live.ra.tare.stale, s.live.ra.tare.age) | _ => (.offline, true, none)) =
      (.idle, false, some 0) := by decide

/-! ### Points of the spec that one step shows -/

/-- SPIN of PS fails check 3 of PLANS (R124, R126): SEAT, SPIN, CAPTURE and RELEASE name RA or RB. -/
theorem test_steps_may_not_name_ps : stepRanges [1, 0, 0, 0, 0, 0, 0, 0] = false ∧ stepRanges [4, 0, 0, 0, 0, 0, 0, 0] = true := by
  decide
/-- A lock discards a pending repeat with EVENT BUTTON_IGNORED (R135, R139). -/
theorem test_lock_discards_a_repeat : (let l := (State.reset.live.setSeq { Seq.reset with pendingRepeat := true }).lockOrder
    (l.seq.state, l.seq.pendingRepeat, l.chain.up.length)) = (.locked, false, 1) := by decide
/-- After PRINT_CANCEL in TAKEN the handshake timer runs on (R182, R187). -/
theorem test_abandoned_line_keeps_its_timer : (Printer.abandon { Printer.reset with line := .taken, timer := some 7 } true).timer
    = some 7 := by decide
/-- A contact left closed reads as 0 once steering stops (R53, R73). -/
theorem test_steering_stop_opens_the_contacts :
    (fed 10 0 (crosses .forward true true)).live.stopSteering.ps.contactIn = false := by decide

/-! ### Joint captures, ends of captures, and answers to requests -/

/-- Both roller stations MEASURING, RA holding a joint capture of the settings and RA's left reductions given. -/
def both (c : CaptureSettings) (x : SideReduction) (l : Live) : Live :=
  stands .rb .measuring (measures { c with joint := true } x l)

theorem witness_joint_samples : Sampled (fed 8 3 (both settings0 .start)) 2 0 50 0 (fedEntry 8 3) channel0
    ∧ (fed 8 3 (both settings0 .start)).live.ra.state = .measuring ∧ (fed 8 3 (both settings0 .start)).live.rb.state = .measuring
    ∧ (fed 8 3 (both settings0 .start)).live.ra.capture.map (·.settings.joint) = some true
    ∧ (fed 8 3 (both settings0 .start)).live.noneSilent
    ∧ Sampled (fed 0 2 (both { settings0 with ceiling := some 300 } .start)) 2 0 300 0 (fedEntry 0 2) channel0
    ∧ (fedEntry 0 2).role = .forceL ∧ (fedEntry 0 2).station = some (stationOf .rb)
    ∧ ((fed 0 2 (both settings0 .start)).valueOf (fedEntry 0 2) 300).toNat = 300
    ∧ Sampled (fed 0 1 (both { settings0 with length := some 64 } { SideReduction.start with count := 63 })) 2 0 5 0 (fedEntry 0 1)
        channel0
    ∧ (fedEntry 0 1).station = some (stationOf .ra) ∧ 64 ≤ ({ SideReduction.start with count := 63 } : SideReduction).count + 1
    ∧ Sampled (fed 6 1 (both settings0 { SideReduction.start with lockupRun := 2 })) 2 0 70 0 (fedEntry 6 1) channel0
    ∧ (fed 6 1 (both settings0 .start)).live.latest (fedTables 6 1) .ra .drumL = some 100
    ∧ (fed 6 2 (both settings0 .start)).live.latest (fedTables 6 2) .rb .drumL = none := by
  refine ⟨fed_sampled _ _ _ _ rfl rfl (by decide), rfl, rfl, rfl, by unfold Live.noneSilent; decide,
    fed_sampled _ _ _ _ rfl rfl (by decide), by decide, by decide, by decide, fed_sampled _ _ _ _ rfl rfl (by decide), by decide,
    by decide, fed_sampled _ _ _ _ rfl rfl (by decide), ?_⟩
  decide

/-- PS TARING, in service or not. -/
def plateTares (service : Bool) (l : Live) : Live :=
  { l with ps := { l.ps with
      state := .taring, tare := { Tare.reset with context := some { service := service, channels := [] } } } }

theorem witness_plate_tare : Sampled (fed 10 0 (plateTares false)) 2 0 1000 0 (fedEntry 10 0) channel0
    ∧ Sampled (fed 10 0 (plateTares true)) 2 0 1000 0 (fedEntry 10 0) channel0
    ∧ (fed 10 0 (plateTares true)).live.ps.state = .taring ∧ (fed 10 0 (plateTares true)).live.ps.contactIn = false
    ∧ (fed 10 0 (plateTares true)).live.ps.tare.context = some { service := true, channels := [] }
    ∧ (fed 10 0 (plateTares false)).live.seqFree := by
  refine ⟨fed_sampled _ _ _ _ rfl rfl (by decide), fed_sampled _ _ _ _ rfl rfl (by decide), rfl, rfl, rfl, by decide, by decide⟩

theorem witness_confirm_ends_a_capture : (measuring settings0 20 0).awake
    ∧ (measuring settings0 20 0).tables.isRemote 9 = true ∧ (measuring settings0 20 0).live.noneSilent
    ∧ (measuring settings0 20 0).live.ra.capture.map (·.settings.operator) = some true
    ∧ (measuring settings0 20 0).live.rb.capture = none
    ∧ ((both settings0 .start State.reset.live).ra.capture.map fun c => (c.settings.operator, c.settings.joint)) = some (true, true) := by
  refine ⟨rfl, by decide, by unfold Live.noneSilent; decide, ?_⟩
  decide

/-- A sequencer that waits on RA's capture of the plan's first step. -/
def waitsOnCapture (q : Seq) : Seq :=
  { Seq.setPlanCapture .ra (some { step := 0, restart := 0 }) q with state := .waiting, wait := some (.capture .ra) }

/-- An axle whose service part has been repeated three times. -/
def repeated3 : AxleRecord := { axle1 with service := { axle1.service with repeats := 3 } }

theorem witness_skip_and_third_repeat :
    (planned [captureStep] waitsOnCapture (measures settings0 .start)).live.seq.wait = some (.capture .ra)
    ∧ (planned [captureStep] waitsOnCapture (measures settings0 .start)).live.ra.capture ≠ none
    ∧ (planned [captureStep] waitsOnCapture (measures settings0 .start)).live.noneSilent
    ∧ (planned [captureStep] waitsOnCapture (measures settings0 .start)).live.seq.planCapture .ra = some { step := 0, restart := 0 }
    ∧ (planned [captureStep] waitsOnCapture (measures settings0 .start)).live.currentUnit (filled [captureStep]) ≠ none
    ∧ (planned [captureStep] waitsOnCapture (measures settings0 .start)).live.seq.stepEndPrompt = none
    ∧ (planned [captureStep] captured fun l => (slot1 .opened { record1 with axles := [repeated3] } l).setBound .ra (some 1)).live.bound
        .ra = some 1
    ∧ (repeated3.brake .service).repeats = 3 ∧ (LaneSettings.ofBytes laneBytes).noMoreRepeats = none
    ∧ (LaneSettings.ofBytes (laneBytes.set 26 5)).noMoreRepeats = some 5 := by
  refine ⟨rfl, by decide, quiet_channels rfl, ?_⟩
  decide

/-- AWAIT STATION_READY. -/
def readyStep : List Byte := [6, 1, 0, 0, 0, 0, 0, 0]
/-- CLOSE. -/
def closeStep : List Byte := [8, 0, 0, 0, 0, 0, 0, 0]
/-- The modifier that sets the station to PS. -/
def atPlate : List Byte := [9, 0, 0, 0, 0, 0, 0, 0]

set_option maxRecDepth 20000 in
theorem witness_station_units :
    ((firstUnit [readyStep]).map fun u => (u.record, u.station)) = some (.await .stationReady 0 false, some .ra)
    ∧ (planned [readyStep] runs (stands .ra .ready)).live.stationState .ra = .ready
    ∧ (planned [readyStep] runs (stands .ra .idle)).live.stationState .ra ∉ [StationState.ready, .offline]
    ∧ (planned [readyStep] runs (stands .ra .idle)).live.seq.pendingRepeat = false
    ∧ (firstUnit [closeStep]).map (·.record) = some .close ∧ (planned [closeStep] runs id).live.level < 2
    ∧ (∀ st, (planned [closeStep] runs id).live.stationState st ≠ .faulted) := by
  refine ⟨by decide, by decide, by decide, by decide, by decide, by decide, fun st => by cases st <;> decide⟩

set_option maxRecDepth 20000 in
theorem witness_refused_requests :
    ((firstUnit [spinStep]).map fun u => (u.record, u.station)) = some (.spin (some .ra) true, some .ra)
    ∧ (planned [spinStep] runs (stands .ra .releasing)).live.stationState .ra ∈ [StationState.settling, .releasing, .taring]
    ∧ (planned [spinStep] runs (stands .ra .idle)).live.stationState .ra ∈ [StationState.idle, .offline]
    ∧ (planned [captureStep] runs (stands .ra .measuring)).live.stationState .ra = .measuring
    ∧ (planned [captureStep] runs (stands .ra .idle)).live.stationState .ra ∉ [StationState.ready, .measuring]
    ∧ (captureSettings [80, 4, 0, 0, 0, 0] none none).joint = true
    ∧ (planned [releaseStep] runs id).live.stationState .ra = .offline
    ∧ (planned [tareStep] runs (stands .ra .seated)).live.stationState .ra ∉ [StationState.idle, .taring, .offline]
    ∧ ((firstUnit [atPlate, spinStep]).map fun u => (u.record, u.station)) = some (.spin (some .ra) true, some .ps)
    ∧ (stands .ra .faulted State.reset.live).stationState .ra = .faulted
    ∧ (({ Seq.reset with state := .waiting, wait := some (.busy .ra) } : Seq).wait = some (.busy .ra)) := by
  decide

/-- RA MEASURING its axle on the rollers. -/
def measuresAxle (c : CaptureSettings) (l : Live) : Live := measures c .start (carries .measuring true l)

theorem witness_axle_lost_while_measuring :
    Sampled (fed 2 1 (measuresAxle settings0)) 2 0 99 0 (fedEntry 2 1) channel0
    ∧ (fed 2 1 (measuresAxle settings0)).live.ra.state = .measuring
    ∧ sumAfter (measuresAxle settings0) 99 < (fedTables 2 1).settings.empty
    ∧ (fed 2 1 (measuresAxle settings0)).live.seqFree
    ∧ (fed 2 1 (measuresAxle settings0)).live.captureHolder .ra = some .ra
    ∧ (fed 2 1 (measuresAxle settings0)).live.ra.capture ≠ none ∧ (fed 2 1 (measuresAxle settings0)).live.bound .ra = some 1
    ∧ (fed 2 1 (measuresAxle settings0)).live.axle? 1 = some axle1 ∧ (fed 2 1 (measuresAxle settings0)).live.tracker.g2.length < 4
    ∧ (fed 2 1 (measuresAxle settings0)).live.bound .rb ≠ some 1
    ∧ (fed 2 2 (both settings0 .start)).live.captureHolder .rb = some .ra := by
  refine ⟨fed_sampled _ _ _ _ rfl rfl (by decide), by decide, by decide, ⟨by decide, by decide⟩, ?_⟩
  decide

theorem witness_ends_of_the_lane :
    (asking [18] (faulty (entry .pitGuard .stop true))).asks [18] ∧ (faulty (entry .pitGuard .stop true) State.reset.live).seqFree
    ∧ State.reset.live.seqApart ∧ (opened State.reset.live).openSlot ≠ none ∧ (opened State.reset.live).rb.capture = none
    ∧ ((both settings0 .start State.reset.live).ra.capture.map fun c => ({ c with timer := 30000 } : Capture).timer) = some 30000
    ∧ (both settings0 .start State.reset.live).noneSilent := by
  refine ⟨⟨rfl, rfl, rfl⟩, ⟨by decide, by decide⟩, fun h => absurd h (by decide), by decide, by decide, by decide, quiet_channels rfl⟩

theorem witness_fall_readies_the_printer :
    (printing .paused none (buffer .offered 0) .free .taken true).live.lines.bandAck = true
    ∧ (printing .paused none (buffer .offered 0) .free .taken true).live.lines.paperOut = false
    ∧ (printing .paused none (buffer .offered 0) .free .taken true).live.lines.headHot = false
    ∧ (printing .paused none (buffer .offered 0) .free .taken true).live.printer.job = none
    ∧ (printing .paused none (buffer .offered 0) .free .taken true).live.printer.composer = .paused
    ∧ (printing .paused none (buffer .offered 0) .free .taken true).live.printer.queue = { slot := 0, restarts := 0 } :: []
    ∧ ((printing .paused none (buffer .offered 0) .free .taken true).live.records.slots.get 0).record = some record1
    ∧ (printing .idle none .free .free .idle true).live.printer.composer ≠ .paused := by decide

/-! ### Windows, limits, what a lane reset keeps, and verdicts -/

/-- Tables whose first channel (head 2, channel 0) is an AUX entry of a station with an applicability, window 0 to 1000. -/
def watchedTables (station applies : Byte) : Tables :=
  { filled [] with channels := full (entryBytes 0 13 station applies ++ entryBytes 1 4 1 2) }

/-- Its entry. -/
def watchedEntry (station applies : Byte) : ChannelEntry := ChannelEntry.ofBytes (entryBytes 0 13 station applies)

/-- A lane with these tables. -/
def watched (station applies : Byte) (c : ChannelState) (f : Live → Live) : State :=
  { machine fun l => f (l.setSteer { l.steer with channels := [c, channel0] }) with tables := watchedTables station applies }

/-- A value of RA's AUX entry, and of one of the lane: inside the window, outside it where the window applies or not, and where
the station is absent. -/
theorem witness_window_samples : (watched 1 1 channel0 (stands .ra .spinning)).awake ∧ WellFormed (.sampleFrame 2 0 [1001]) = true
    ∧ (watchedTables 1 1).steering = true ∧ (watchedTables 1 1).entryOfHead 2 0 = some 0
    ∧ (watchedTables 1 1).entries[0]? = some (watchedEntry 1 1) ∧ (watchedEntry 1 1).role = .aux
    ∧ (watchedEntry 1 1).mirror = .none ∧ (watchedEntry 1 1).station = some .ra ∧ (watchedEntry 1 1).applicability = .active
    ∧ (watchedEntry 3 0).station = none ∧ (watchedEntry 3 0).applicability = .always ∧ (watchedTables 1 1).present .ra = true
    ∧ (watched 1 1 channel0 (stands .ra .spinning)).live.stationState .ra = .spinning
    ∧ (watched 1 1 channel0 (stands .ra .idle)).live.stationState .ra = .idle
    ∧ calibrated (watchedTables 1 1) (watchedEntry 1 1) (signed16 1000) ≤ (watchedEntry 1 1).high
    ∧ (watchedEntry 1 1).high < calibrated (watchedTables 1 1) (watchedEntry 1 1) (signed16 1001)
    ∧ (watched 1 1 { channel0 with silent := true, outside := true, windowRaised := true } id).live.steer.channels[0]?
        = some { channel0 with silent := true, outside := true, windowRaised := true }
    ∧ ({ watchedTables 1 1 with lane := full (laneBytes.set 0 5) } : Tables).present .ra = false
    ∧ ({ watchedTables 1 1 with lane := full (laneBytes.set 0 5) } : Tables).steering = true := by
  refine ⟨rfl, ?_⟩
  decide

/-- The first and the last segment of a set of three points. -/
theorem witness_segments : ([(0, 0), (10, 100), (20, 50)] : SegmentSet).Pairwise (fun p q => p.1 < q.1)
    ∧ ([(0, 0), (10, 100), (20, 50)] : SegmentSet)[1]? = some (10, 100) ∧ (filled []).segmentSet 0 .aux = [(0, 0), (1000, 1000)]
    ∧ calibrated (filled []) (entryAt 1) (-40000) = -32768 ∧ calibrated (filled []) (entryAt 1) 500 = 500
    ∧ (entryAt 1).station = none := by decide

/-- A capture whose ceiling and length a FORCE value does not reach. -/
theorem witness_capture_with_ends :
    (measuring { settings0 with ceiling := some 300, length := some 64 } 15 0).live.ra.capture.map (fun c =>
      (c.settings.ceiling, c.settings.length, c.left.count, c.settings.joint)) = some (some 300, some 64, 15, false)
    ∧ (calibrated (filled []) (entryAt 2) (signed16 100)
        - (measuring { settings0 with ceiling := some 300, length := some 64 } 15 0).live.offset (entryAt 2)).toNat = 100
    ∧ (measuring { settings0 with ceiling := some 300, length := some 64 } 15 0).live.rb.capture = none := by decide

set_option maxRecDepth 20000 in
/-- LANE with a bad-frame limit of 5 becomes VALID where 5 frames were counted upstream, and one with 20 leaves VALID. -/
theorem witness_limit_is_reread :
    ({ laneLoaded with lane := full (laneBytes.set 22 5) } : Tables).settings.badLimit = 5 ∧ laneLoaded.settings.badLimit = 8
    ∧ (counts 5 0 0).live.chain.badUp = 5 ∧ (counts 5 5 0).live.chain.badDown = 5
    ∧ structureCheck laneLoaded .lane (laneBytes.set 22 5) = none
    ∧ ({ filled [] with lane := full (laneBytes.set 22 20) } : Tables).settings.badLimit = 20
    ∧ ({ filled [] with lane := full (laneBytes.set 22 20) } : Tables).valid .lane = true
    ∧ ({ filled [] with lane := { state := .loading, content := [] } } : Tables).settings.badLimit = 8 := by decide

/-- A roller station that holds a DRIVE frame. -/
def holding (f : Frame) (l : Live) : Live := (stands .ra .releasing l).setHeld .ra (some f)

/-- A FAULTED station that is seated. -/
def faultedSeated (l : Live) : Live := l.setRoller .ra { l.roller .ra with state := .faulted, seated := true }

theorem witness_lane_reset_keeps : (asking [10] (holding frame0)).asks [10] ∧ RecordLaw (holding frame0 State.reset.live)
    ∧ (holding frame0 State.reset.live).ra.capture = none ∧ (holding frame0 State.reset.live).rb.capture = none
    ∧ (holding frame0 State.reset.live).ra.heldDrive = some frame0
    ∧ (holding frame0 State.reset.live).ra.state ≠ .offline ∧ (holding frame0 State.reset.live).ra.state ≠ .faulted
    ∧ (faultedSeated State.reset.live).ra.state = .faulted ∧ (faultedSeated State.reset.live).ra.seated = true := by
  refine ⟨⟨rfl, rfl, rfl⟩, record_law (by unfold SlotLaw; decide) rfl rfl, ?_⟩
  decide

/-- An axle with a load of 1000 kg, its service part measured or not, and a verdict. -/
def weighed (b : Option BrakeResult) (x : Verdict) : AxleRecord :=
  { axle1 with
    load := { axle1.load with values := some { left := 500, right := 500, axle := 1000 } }
    service := { axle1.service with values := b, verdict := x }, verdict := x }

/-- A row for every axle that requires the service part, and one for vehicles that judges both efficiencies. -/
def rows1 : List LimitRow :=
  [{ cls := none, applies := .any, required := 4, fields := List.replicate 4 ⟨.failAbove, 10, 5⟩ },
    { cls := none, applies := .vehicle, required := 0, fields := List.replicate 6 ⟨.failBelow, 500, 600⟩ }]

/-- The record with one axle of a verdict and a service efficiency. -/
def judged1 (x : Verdict) (e : Nat) : VehicleRecord :=
  { record1 with axles := [weighed (some measuringResult) x], serviceEff := some e, parkingEff := some 700 }

set_option maxRecDepth 20000 in
/-- Each verdict of an axle and of a vehicle is reached, and an efficiency is there or not. -/
theorem witness_verdict_chains :
    axleVerdict rows1 0 (weighed (some measuringResult) .fail) = .fail ∧ axleVerdict rows1 0 (weighed none .absent) = .incomplete
    ∧ axleVerdict rows1 0 (weighed (some measuringResult) .unverified) = .unverified
    ∧ axleVerdict rows1 0 (weighed (some measuringResult) .advisory) = .advisory
    ∧ axleVerdict rows1 0 (weighed (some measuringResult) .pass) = .pass
    ∧ vehicleVerdict rows1 (judged1 .pass 499) = .fail ∧ vehicleVerdict rows1 (judged1 .incomplete 700) = .incomplete
    ∧ vehicleVerdict rows1 (judged1 .unverified 700) = .unverified ∧ vehicleVerdict rows1 (judged1 .pass 550) = .advisory
    ∧ vehicleVerdict rows1 (judged1 .pass 700) = .pass
    ∧ totalLoad [weighed (some measuringResult) .pass] = some 1000 ∧ totalLoad [axle1] = none
    ∧ efficiency rows1 0 .service [weighed (some { measuringResult with peakL := 245, peakR := 245 }) .pass] = some 499
    ∧ efficiency rows1 0 .service [weighed none .absent] = none ∧ efficiency rows1 0 .parking [weighed none .absent] = none := by
  decide
end Sys2Proof.Tests
end

section
/-! ## Steps on an empty queue (R1; log 2, log 3) -/

namespace Sys2Proof.Machine

theorem step_of_pending_nil {s : State} (h : s.pending = []) : step s = idleStep s := by
  simp only [step, h]

theorem idleStep_of_reset {s : State} (h : s.live.resetAsserted = true) : idleStep s = .next s := by
  simp only [idleStep, h, if_true]

theorem idleStep_of_dueEvent_none {s : State} (ha : s.awake) (h : s.dueEvent = none) : idleStep s = .next s.tick := by
  simp [idleStep, show s.live.resetAsserted = false from ha, h]

theorem idleStep_of_dueEvent_some {s : State} {i : Instr} (ha : s.awake) (h : s.dueEvent = some i) :
    idleStep s = exec i s.dueTaken := by
  simp [idleStep, show s.live.resetAsserted = false from ha, h]

theorem dueEvent_of_due_nil {s : State} (h : s.live.due s.tables = []) : s.dueEvent = none := by
  simp [State.dueEvent, h]

/-- Whatever the free choice answers, its remainder by the number of due events is the place of one of them. -/
theorem exists_dueEvent_of_due_ne_nil {s : State} (h : s.live.due s.tables ≠ []) :
    ∃ i ∈ s.live.due s.tables, s.dueEvent = some i := by
  have inRange : Config.dueChoice s.live.choices % (s.live.due s.tables).length < (s.live.due s.tables).length :=
    Nat.mod_lt _ (List.length_pos_of_ne_nil h)
  exact ⟨_, List.getElem_mem inRange, List.getElem?_eq_getElem inRange⟩

/-- Settles O2, by the three branches of the step on an empty queue: RESET, no event due, an event due. -/
theorem emptyQueueRunsADueEventOrTicks : Obligations.EmptyQueueRunsADueEventOrTicks := by
  intro s hempty
  rw [step_of_pending_nil hempty]
  refine ⟨idleStep_of_reset, fun ha hnone => ?_, fun ha hsome => ?_⟩
  · exact idleStep_of_dueEvent_none ha (dueEvent_of_due_nil hnone)
  · obtain ⟨i, hi, hdue⟩ := exists_dueEvent_of_due_ne_nil hsome
    exact ⟨i, hi, idleStep_of_dueEvent_some ha hdue⟩

end Sys2Proof.Machine
end

section
/-! ## The laws of the rest, through every step (O6, O8) -/

namespace Sys2Proof.Machine

/-! ### From `Keeps` to the laws -/

section
variable {T U : Tables} {old s : Live}

theorem Tables.law.trip_le_upCapacity (h : T.law) : T.settings.trip ≤ Config.upCapacity :=
  (Tables.law_trip h).2.trans (by decide)

/-- An operation that keeps what `Keeps` names keeps the laws. -/
theorem Lawful.keeps (h : Lawful T old) (hT : T.law) (k : Keeps T old s) : Lawful T s where
  queues := k.queues hT.trip_le_upCapacity h.queues
  faults := k.faults h.faults
  records := k.records h.records
  estop hawake hline := k.estop h.faults (h.estop (k.reset ▸ hawake) (k.lines ▸ hline))

/-- Other tables under the same state: only the mirror trip level is judged anew (R10). -/
theorem Lawful.retable (h : Lawful U s) (hm : mirrorCount s.chain.up ≤ T.settings.trip) : Lawful T s where
  queues := by
    obtain ⟨hup, hdown, hprompts, hg1, hg2, -⟩ := h.queues
    exact ⟨hup, hdown, hprompts, hg1, hg2, hm⟩
  faults := h.faults
  records := h.records
  estop := h.estop

theorem Lawful.mirrors (h : Lawful U s) : mirrorCount s.chain.up ≤ U.settings.trip := by
  obtain ⟨-, -, -, -, -, hm⟩ := h.queues
  exact hm

/-- The lines replaced with ESTOP's level as it was. -/
theorem Lawful.lines (h : Lawful T s) {x : InputLines} (hx : x.estop = s.lines.estop) : Lawful T { s with lines := x } :=
  ⟨h.queues, h.faults, h.records, fun hawake hline => h.estop hawake (hx ▸ hline)⟩

/-- The settings are those of LANE alone, and of LANE only while it is VALID. -/
theorem Tables.settings_eq_of_lane (hv : T.valid .lane = U.valid .lane) (hl : T.valid .lane = true → T.lane = U.lane) :
    T.settings = U.settings := by
  unfold Tables.settings Tables.lane?
  by_cases h : T.valid .lane = true
  · simp [h, ← hv, hl h]
  · simp [h, ← hv]

/-- A region that is not VALID, rewritten as one that is not VALID, leaves the settings. -/
theorem Tables.settings_eq_of_invalid {n : RegionName} (hT : T.valid n = false) (hU : U.valid n = false)
    (he : ∀ m, m ≠ n → T.get m = U.get m) : T.settings = U.settings := by
  by_cases hn : n = .lane
  · subst hn
    exact Tables.settings_eq_of_lane (hT.trans hU.symm) fun hv => by rw [hT] at hv; cases hv
  · have hl := he .lane (Ne.symm hn)
    exact Tables.settings_eq_of_lane (Tables.valid_eq hl) fun _ => hl

/-- A region other than LANE leaves the settings. -/
theorem Tables.settings_eq_of_ne_lane {n : RegionName} (hn : n ≠ .lane) (he : ∀ m, m ≠ n → T.get m = U.get m) :
    T.settings = U.settings := by
  have hl := he .lane (Ne.symm hn)
  exact Tables.settings_eq_of_lane (Tables.valid_eq hl) fun _ => hl

/-- The region of the load context is LOADING, and so not VALID (R31). -/
theorem Tables.law.load_not_valid (h : T.law) {c : LoadContext} (hc : T.load = some c) : T.valid c.region = false := by
  have hload := h.1
  rw [Tables.loadLaw, hc] at hload
  simp [Tables.valid, hload.1]

theorem Tables.settings_append (h : T.law) {c : LoadContext} (hc : T.load = some c) (d : List Byte) :
    (T.append c d).settings = T.settings :=
  Tables.settings_eq_of_invalid (by simp [Tables.valid, Tables.get_append_self]) (h.load_not_valid hc)
    fun _ hm => Tables.get_append_of_ne T d hm

theorem Tables.settings_finish_empty (h : T.law) {c : LoadContext} (hc : T.load = some c) :
    (T.finish c.region .empty).settings = T.settings :=
  Tables.settings_eq_of_invalid (by simp [Tables.valid, Tables.get_finish_self, Region.empty]) (h.load_not_valid hc)
    fun _ hm => Tables.get_finish_of_ne T _ hm

theorem Tables.settings_abandon (h : T.law) : T.abandon.settings = T.settings := by
  unfold Tables.abandon
  split
  · next c hc => exact Tables.settings_finish_empty h hc
  · rfl

/-- A load abandoned keeps the laws (R34): the settings stay. -/
theorem Lawful.abandon (h : Lawful T s) (hT : T.law) : Lawful T.abandon s :=
  h.retable (by rw [Tables.settings_abandon hT]; exact h.mirrors)

/-! ### LANE leaves and becomes VALID (R10) -/

/-- The chain interface's first act at new settings: the mirror-class frames above the trip level go, and the places they free
are offered (R10). -/
def Live.trimmed (T : Tables) (s : Live) : Live :=
  if T.settings.trip < mirrorCount s.chain.up then (s.setUp (trimMirrors T.settings.trip s.chain.up)).offerFreedUp else s

theorem Live.rereadChain_eq (limit : Nat) : s.rereadChain T limit = (s.trimmed T).rejudgeNoise T limit := rfl

/-- The frames that freed places take are of the originated class. -/
theorem Live.offerFreedUp_mirrors (s : Live) : mirrorCount s.offerFreedUp.chain.up = mirrorCount s.chain.up := by
  unfold Live.offerFreedUp
  split
  · exact enterResults_mirrors _ _
  · split
    · exact (enterResults_mirrors _ _).trans (mirrorCount_append _ _)
    · rfl

/-- At new settings the trimmed queue is within the new trip level (R10). -/
theorem Lawful.trimmed (h : Lawful U s) (hU : U.law) (hT : T.law) : Lawful T (s.trimmed T) := by
  unfold Live.trimmed
  split
  · have k : Keeps U s (s.setUp (trimMirrors T.settings.trip s.chain.up)).offerFreedUp :=
      Live.offerFreedUp_keeps (Live.setUp_keeps (.refl U s) (trimMirrors_length _ _).trans (trimMirrors_mirrors_le _ _))
    refine (h.keeps hU k).retable ?_
    rw [Live.offerFreedUp_mirrors]
    exact trimMirrors_mirrors _ _ (Nat.le_trans (by decide) (Tables.law_trip hT).1)
  · next hle => exact h.retable (Nat.le_of_not_lt hle)

theorem Live.laneLeaves_keeps_trimmed (limit : Nat) : Keeps T (s.trimmed T) (s.laneLeaves T limit) := by
  have hreread : Keeps T (s.trimmed T) (s.rereadChain T limit) := Live.rejudgeNoise_keeps (.refl _ _) limit
  have hoffline := Keeps.foldl (f := fun x st => x.enterOffline T st) (fun x st hx => Live.enterOffline_keeps hx st) stations hreread
  have hdrives := Keeps.foldl (f := Live.dropDriveFault) (fun x r hx => Live.dropDriveFault_keeps hx r) [.ra, .rb] hoffline
  exact Live.setGuide_keeps_queue (Live.stationsUnsteered_keeps hdrives) rfl

theorem Live.laneBecomes_keeps_trimmed (limit : Nat) : Keeps T (s.trimmed T) (s.laneBecomes T limit) := by
  have hreread : Keeps T (s.trimmed T) (s.rereadChain T limit) := Live.rejudgeNoise_keeps (.refl _ _) limit
  refine Live.render_keeps (Live.allDirty_keeps (Live.setGuide_keeps_queue (Live.stationsSteered_keeps ?_) rfl))
  refine Keeps.foldl (fun x st hx => Live.presentTare_keeps hx st) _ ?_
  split
  · exact hreread
  · exact Keeps.foldl (fun x st hx => Live.bringUp_keeps hx st) _ hreread

/-- A region that leaves VALID (R19, R36): LANE trims the queue to the level then in force; another region leaves the level. -/
theorem Lawful.regionLeaves (h : Lawful U s) (hU : U.law) (hT : T.law) {n : RegionName}
    (hn : n ≠ .lane → T.settings = U.settings) (limit : Nat) : Lawful T (s.regionLeaves T limit n) := by
  by_cases hl : n = .lane
  · subst hl
    exact ((h.keeps hU ((Keeps.refl U s).mgmt _)).trimmed hU hT).keeps hT (Live.laneLeaves_keeps_trimmed limit)
  · exact (h.retable (hn hl ▸ h.mirrors)).keeps hT (Live.regionLeaves_keeps (.refl T s) limit n)

/-- A region that becomes VALID (R33), likewise. -/
theorem Lawful.regionBecomes (h : Lawful U s) (hU : U.law) (hT : T.law) {n : RegionName}
    (hn : n ≠ .lane → T.settings = U.settings) (limit : Nat) : Lawful T (s.regionBecomes T limit n) := by
  by_cases hl : n = .lane
  · subst hl
    exact (h.trimmed hU hT).keeps hT (Live.laneBecomes_keeps_trimmed limit)
  · exact (h.retable (hn hl ▸ h.mirrors)).keeps hT (Live.regionBecomes_keeps (.refl T s) limit n)

end

/-! ### Answers of requests -/

/-- The tables and the rest obey their laws. -/
def Answered.lawful (x : Answered) : Prop := x.tables.law ∧ Lawful x.tables x.live

/-- A request that leaves the table store alone, whoever takes it. -/
def LeavesTables (h : Tables → List Byte → Live → Answered) : Prop := ∀ T a s, (h T a s).tables = T

section
variable {T : Tables} {s : Live}

@[simp] theorem refuse_tables (x : Status) : (refuse T s x).tables = T := rfl

@[simp] theorem accept_tables (d : List Byte) : (accept T s d).tables = T := rfl

@[simp] theorem stationReply_tables (st : Station) (a : Answer) : (stationReply T st a s).tables = T := by
  unfold stationReply; split <;> rfl

theorem onRollerRequest_tables {a : List Byte} {f : Roller → Answered} (hf : ∀ r, (f r).tables = T) :
    (onRollerRequest T a f s).tables = T := by
  unfold onRollerRequest
  split
  · rfl
  · split
    · rfl
    · split
      · rfl
      · exact hf _

@[simp] theorem clearedReply_tables (p : FaultEntry → Bool) (k : Nat) : (clearedReply T p k s).tables = T := by
  unfold clearedReply; split <;> rfl

@[simp] theorem readRegion_tables (n : RegionName) (o c : Nat) : (readRegion T n o c s).tables = T := by
  simp only [readRegion]; repeat' split
  all_goals rfl

@[simp] theorem readItem_tables (i : Fin 4) (k : Nat) (b : Bool) : (readItem T i k b s).tables = T := by
  simp only [readItem]; repeat' split
  all_goals rfl

@[simp] theorem clearPrompt_tables (n : Nat) : (clearPrompt T n s).tables = T := by
  unfold clearPrompt; repeat' split
  all_goals rfl

theorem unknownRequest_tables : LeavesTables unknownRequest := fun _ _ _ => rfl

theorem statusRequest_tables : LeavesTables statusRequest := fun T a s => by
  unfold statusRequest; split <;> rfl

theorem laneModeRequest_tables : LeavesTables laneModeRequest := fun T a s => by
  unfold laneModeRequest; repeat' split
  all_goals rfl

theorem windowRequest_tables : LeavesTables windowRequest := fun T a s => by
  simp only [windowRequest]; split <;> rfl

theorem tableReadRequest_tables : LeavesTables tableReadRequest := fun T a s => by
  unfold tableReadRequest; repeat' split
  all_goals simp

theorem recordReadRequest_tables : LeavesTables recordReadRequest := fun T a s => by
  unfold recordReadRequest; repeat' split
  all_goals simp

theorem upFlushRequest_tables : LeavesTables upFlushRequest := fun T a s => by
  unfold upFlushRequest; split <;> rfl

theorem vehicleBeginRequest_tables : LeavesTables vehicleBeginRequest := fun T a s => by
  unfold vehicleBeginRequest; repeat' split
  all_goals rfl

theorem vehicleCloseRequest_tables : LeavesTables vehicleCloseRequest := fun T a s => by
  unfold vehicleCloseRequest; repeat' split
  all_goals rfl

theorem vehicleAbortRequest_tables : LeavesTables vehicleAbortRequest := fun T a s => by
  unfold vehicleAbortRequest; repeat' split
  all_goals rfl

theorem recordReleaseRequest_tables : LeavesTables recordReleaseRequest := fun T a s => by
  simp only [recordReleaseRequest]; repeat' split
  all_goals rfl

theorem stationSpinRequest_tables : LeavesTables stationSpinRequest := fun T a s => by
  simp only [stationSpinRequest]; split
  · rfl
  · exact onRollerRequest_tables fun r => stationReply_tables _ _

theorem stationCaptureRequest_tables : LeavesTables stationCaptureRequest := fun T a s => by
  simp only [stationCaptureRequest]; split
  · rfl
  · refine onRollerRequest_tables fun r => ?_
    split
    · exact stationReply_tables _ _
    · rfl

theorem stationReleaseRequest_tables : LeavesTables stationReleaseRequest := fun T a s => by
  simp only [stationReleaseRequest]; split
  · rfl
  · exact onRollerRequest_tables fun r => stationReply_tables _ _

theorem stationTareRequest_tables : LeavesTables stationTareRequest := fun T a s => by
  simp only [stationTareRequest]; repeat' split
  all_goals simp

theorem clearFaultRequest_tables : LeavesTables clearFaultRequest := fun T a s => by
  unfold clearFaultRequest; split
  · exact clearedReply_tables _ _
  · rfl

theorem resumeRequest_tables : LeavesTables resumeRequest := fun T a s => by
  simp only [resumeRequest]; split
  · rfl
  · exact clearedReply_tables _ _

theorem clearLockoutRequest_tables : LeavesTables clearLockoutRequest := fun T a s => by
  unfold clearLockoutRequest; repeat' split
  all_goals rfl

theorem promptPostRequest_tables : LeavesTables promptPostRequest := fun T a s => by
  simp only [promptPostRequest]; repeat' split
  all_goals rfl

theorem promptClearRequest_tables : LeavesTables promptClearRequest := fun T a s => by
  unfold promptClearRequest; repeat' split
  all_goals first | rfl | exact clearPrompt_tables _

theorem printRequest_tables : LeavesTables printRequest := fun T a s => by
  simp only [printRequest]; repeat' split
  all_goals rfl

theorem printCancelRequest_tables : LeavesTables printCancelRequest := fun T a s => by
  unfold printCancelRequest; repeat' split
  all_goals rfl

/-- A refusal leaves everything lawful. -/
theorem refuse_lawful (hT : T.law) (hs : Lawful T s) (x : Status) : (refuse T s x).lawful := ⟨hT, hs⟩

/-- TABLE_BEGIN (R31, R36). -/
theorem tableBeginRequest_lawful (hT : T.law) (hs : Lawful T s) (a : List Byte) : (tableBeginRequest T a s).lawful := by
  unfold tableBeginRequest
  split
  case h_2 => exact refuse_lawful hT hs _
  case h_1 n _ =>
    split
    case isFalse => exact refuse_lawful hT hs _
    case isTrue hrange =>
      obtain ⟨-, -, hsize⟩ := hrange
      simp only [beginRegion]
      split
      case isTrue => exact refuse_lawful hT hs _
      case isFalse hidle =>
        split
        case isFalse => exact refuse_lawful hT hs _
        case isTrue =>
          have hT' := Tables.begin_law hT (by simpa using hidle) hsize
          have hother : ∀ m, m ≠ n → (T.begin n (rd16 a 1)).get m = T.get m := fun m hm => Tables.get_begin_of_ne T _ hm
          refine ⟨hT', ?_⟩
          dsimp only
          split
          · exact hs.regionLeaves hT hT' (fun hn => Tables.settings_eq_of_ne_lane hn hother) _
          · next hv =>
            have hsame : (T.begin n (rd16 a 1)).settings = T.settings :=
              Tables.settings_eq_of_invalid (by simp [Tables.valid, Tables.get_begin_self]) (by simpa using hv) hother
            exact hs.retable (by rw [hsame]; exact hs.mirrors)

theorem Tables.loadOf_some {n : RegionName} {c : LoadContext} (h : T.loadOf n = some c) : T.load = some c ∧ c.region = n := by
  simpa [Tables.loadOf, Option.filter_eq_some_iff] using h

/-- A load that ends with its region INVALID (R33, R34). -/
theorem finish_empty_lawful (hT : T.law) (hs : Lawful T s) {n : RegionName} {c : LoadContext} (hc : T.loadOf n = some c) :
    (T.finish n .empty).law ∧ Lawful (T.finish n .empty) s := by
  obtain ⟨hload, rfl⟩ := Tables.loadOf_some hc
  exact ⟨Tables.finish_empty_law hT hload,
    hs.retable (by rw [Tables.settings_finish_empty hT hload]; exact hs.mirrors)⟩

/-- TABLE_DATA (R32). -/
theorem tableDataRequest_lawful (hT : T.law) (hs : Lawful T s) (a : List Byte) : (tableDataRequest T a s).lawful := by
  unfold tableDataRequest
  split
  case h_2 => exact refuse_lawful hT hs _
  case h_1 n _ =>
    split
    case isFalse => exact refuse_lawful hT hs _
    case isTrue =>
      unfold dataRegion
      split
      case h_1 => exact refuse_lawful hT hs _
      case h_2 c hc =>
        obtain ⟨hload, rfl⟩ := Tables.loadOf_some hc
        split
        case isTrue => exact ⟨hT, hs⟩
        case isFalse hoffset =>
          split
          case isTrue => exact refuse_lawful hT hs _
          case isFalse hroom =>
            refine ⟨Tables.append_law hT hload (by omega), hs.retable ?_⟩
            dsimp only
            rw [Tables.settings_append hT hload]
            exact hs.mirrors

/-- TABLE_END (R33): the checks in their order, and the region that becomes VALID. -/
theorem tableEndRequest_lawful (hT : T.law) (hs : Lawful T s) (a : List Byte) : (tableEndRequest T a s).lawful := by
  unfold tableEndRequest
  split
  case h_2 => exact refuse_lawful hT hs _
  case h_1 n _ =>
    split
    case isFalse => exact refuse_lawful hT hs _
    case isTrue =>
      simp only [endRegion]
      split
      case h_1 => exact refuse_lawful hT hs _
      case h_2 c hc =>
        split
        case isTrue => exact finish_empty_lawful hT hs hc
        case isFalse =>
          split
          case isTrue => exact finish_empty_lawful hT hs hc
          case isFalse =>
            split
            case h_1 => exact finish_empty_lawful hT hs hc
            case h_2 hcheck =>
              obtain ⟨hload, rfl⟩ := Tables.loadOf_some hc
              have hT' := Tables.finish_valid_law hT hload hcheck
              exact ⟨hT', hs.regionBecomes hT hT' (fun hn => Tables.settings_eq_of_ne_lane hn
                fun m hm => Tables.get_finish_of_ne T _ hm) _⟩

/-- TABLE_ABORT (R34). -/
theorem tableAbortRequest_lawful (hT : T.law) (hs : Lawful T s) (a : List Byte) : (tableAbortRequest T a s).lawful := by
  unfold tableAbortRequest
  split
  case h_2 => exact refuse_lawful hT hs _
  case h_1 n _ =>
    split
    case isTrue => exact refuse_lawful hT hs _
    case isFalse =>
      split
      case h_2 => exact refuse_lawful hT hs _
      case h_1 c hc => exact finish_empty_lawful hT hs hc

/-- LANE_RESET (R38): the load goes, and the rest is reset under settings that stay. -/
theorem laneResetRequest_lawful (hT : T.law) (hs : Lawful T s) (a : List Byte) : (laneResetRequest T a s).lawful := by
  unfold laneResetRequest
  split
  · exact ⟨Tables.abandon_law hT, (hs.keeps hT (Live.laneReset_keeps (.refl T s))).abandon hT⟩
  · exact refuse_lawful hT hs _

/-- A raise of LINK_WINDOW, which abandons a load (R28, R34). -/
theorem linkWindow_lawful (hT : T.law) (hs : Lawful T s) :
    (linkWindow T s).1.law ∧ Lawful (linkWindow T s).1 (linkWindow T s).2 := by
  have hraise := hs.keeps hT (Live.raise_keeps (.refl T s) .linkWindow .lane 0)
  simp only [linkWindow]
  split
  · exact ⟨Tables.abandon_law hT, (hraise.keeps hT (Live.event_keeps (.refl _ _) _ _ _ _)).abandon hT⟩
  · exact ⟨hT, hraise⟩

theorem takeKeepalive_lawful (hT : T.law) (hs : Lawful T s) :
    (takeKeepalive T s).1.law ∧ Lawful (takeKeepalive T s).1 (takeKeepalive T s).2 := by
  have hmgmt := hs.keeps hT ((Keeps.refl T s).mgmt s.mgmt.keepalive.1)
  simp only [takeKeepalive]
  split
  · exact linkWindow_lawful hT hmgmt
  · exact ⟨hT, hmgmt⟩

/-- A frame at the upstream port (R6): only a KEEPALIVE reaches the tables. -/
theorem takeUp_lawful (hT : T.law) (hs : Lawful T s) (f : Frame) :
    (takeUp f T s).1.law ∧ Lawful (takeUp f T s).1 (takeUp f T s).2 := by
  unfold takeUp
  split
  · exact ⟨hT, hs.keeps hT (Live.badFrame_keeps (.refl T s) .up)⟩
  · split
    · split
      · exact ⟨hT, hs.keeps hT (Live.bufferRequest_keeps (.refl T s) _)⟩
      · exact takeKeepalive_lawful hT hs
    · split
      · exact ⟨hT, hs.keeps hT (Live.hostFrame_keeps (.refl T s) f)⟩
      · exact ⟨hT, hs⟩

/-! ### ESTOP (R158) -/

/-- A raise of ESTOP has its entry stand, a LOCK whose condition is present: it is made, or found and marked. -/
theorem Live.raise_estopEntry (hf : FaultLaw s) : EstopEntry (s.raise T .estop .lane 0) := by
  unfold Live.raise Live.raiseWith
  split
  case h_1 e he =>
    have hmem := List.mem_of_find?_eq_some he
    have his : e.source = .estop ∧ e.scope = .lane := by
      simpa [FaultEntry.is] using List.find?_some he
    obtain ⟨-, hlock, -⟩ := hf.2 e hmem
    refine ⟨{ e with present := true }, ?_, his.1, his.2, hlock his.1, rfl⟩
    have hfaults (f : Frame) : (s.offerEvent f).faults = s.faults := by
      unfold Live.offerEvent; split <;> rfl
    simp only [Live.markPresent, hfaults]
    exact List.mem_map.2 ⟨e, hmem, by simp [FaultEntry.is, his, conditioned]⟩
  case h_2 hnone =>
    have hadded : EstopEntry { s with faults := s.faults ++ [newEntry .estop .lane .lock (T.promptFor .estop)] } :=
      ⟨newEntry .estop .lane .lock (T.promptFor .estop), by simp, rfl, rfl, rfl, rfl⟩
    have hlaw : FaultLaw { s with faults := s.faults ++ [newEntry .estop .lane .lock (T.promptFor .estop)] } := by
      refine ⟨List.pairwise_append.2 ⟨hf.1, by simp, fun a ha b hb => ?_⟩, fun f hmem => ?_⟩
      · rw [List.mem_singleton.1 hb]
        have hno := List.find?_eq_none.1 hnone a ha
        simpa [sameFault, FaultEntry.is, newEntry] using hno
      · rcases List.mem_append.1 hmem with hold | hnew
        · exact hf.2 f hold
        · rw [List.mem_singleton.1 hnew]
          exact ⟨.inr (.inr rfl), fun _ => rfl, fun h => by cases h⟩
    have horders : Keeps T { s with faults := s.faults ++ [newEntry .estop .lane .lock (T.promptFor .estop)] }
        (s.makeEntry T (newEntry .estop .lane .lock (T.promptFor .estop))) := by
      have hgive := Live.giveOrders_keeps (.refl T { s with faults := s.faults ++ [newEntry .estop .lane .lock (T.promptFor .estop)] })
        (newEntry .estop .lane .lock (T.promptFor .estop))
      simp only [Live.makeEntry]
      split
      · exact Live.postPrompt_keeps hgive _ _ _ _
      · exact hgive
    exact (Live.offerEvent_keeps horders _).estop hlaw hadded

/-- The laws without ESTOP's, and the entry that a raise of ESTOP makes. -/
theorem Lawful.raise_estop {l : Live} (hT : T.law) (hl : Lawful T l) (x : InputLines) :
    Lawful T ({ l with lines := x }.raise T .estop .lane 0) := by
  have k : Keeps T { l with lines := x } ({ l with lines := x }.raise T .estop .lane 0) := Live.raise_keeps (.refl _ _) _ _ _
  exact ⟨k.queues hT.trip_le_upCapacity hl.queues, k.faults hl.faults, k.records hl.records,
    fun _ _ => Live.raise_estopEntry hl.faults⟩

/-- The end of ESTOP's condition, with its line no longer asserted. -/
theorem Lawful.end_estop (hs : Lawful T s) (hline : s.lines.estop = false) : Lawful T (s.endCondition .estop .lane) where
  queues := hs.queues
  faults := by
    refine FaultLaw.map (fun e => ?_) (fun e => ?_) (fun e he => ?_) hs.faults
    · split <;> rfl
    · split <;> rfl
    · split
      · exact ⟨he.1, he.2.1, fun _ => rfl⟩
      · exact he
  records := hs.records
  estop _ h := absurd (hline.symm.trans h) (by simp)

end
end Sys2Proof.Machine
end

section
/-! ## The laws of the rest, command by command (O6, O8) -/

namespace Sys2Proof.Machine

section
variable {s : State}

/-- The tables and the rest obey their laws. -/
def State.lawful (s : State) : Prop := s.tables.law ∧ Lawful s.tables s.live

theorem State.lawful.keeps (h : s.lawful) {l : Live} (k : Keeps s.tables s.live l) : (s.withLive l).lawful :=
  ⟨h.1, h.2.keeps h.1 k⟩

theorem State.onLive_lawful (h : s.lawful) {f : Tables → Live → Live} (hf : ∀ T l, Keeps T l (f T l)) :
    (s.onLive f).lawful := by
  unfold State.onLive
  split
  · exact h
  · exact h.keeps (hf _ _)

theorem State.onBoth_lawful (h : s.lawful) {f : Tables → Live → Tables × Live}
    (hf : ∀ {T l}, T.law → Lawful T l → (f T l).1.law ∧ Lawful (f T l).1 (f T l).2) : (s.onBoth f).lawful := by
  unfold State.onBoth
  split
  · exact h
  · exact hf h.1 h.2

/-- A change of lines other than ESTOP's. -/
theorem State.onLines_lawful (h : s.lawful) {g : InputLines → InputLines} {f : Tables → Live → Live}
    (hg : ∀ x, (g x).estop = x.estop) (hf : ∀ T l, Keeps T l (f T l)) : (s.onLines g f).lawful := by
  have hlines := h.2.lines (hg s.live.lines)
  simp only [State.onLines]
  split
  · exact ⟨h.1, hlines⟩
  · exact ⟨h.1, hlines.keeps h.1 (hf _ _)⟩

/-- A request taken from the buffer, answered, and its REPLY offered (R7, R20). -/
theorem takeRequest_lawful (h : s.lawful) {row : Instr} {f : Tables → List Byte → Live → Answered}
    (hf : ∀ {T l}, T.law → Lawful T l → ∀ a, (f T a l).lawful) : (takeRequest row f s).lawful := by
  unfold takeRequest
  split
  · next p _ =>
    obtain ⟨hT, hl⟩ := hf h.1 (h.2.keeps h.1 ((Keeps.refl _ s.live).mgmt { s.live.mgmt with request := none })) (p.drop 1)
    exact ⟨hT, hl.keeps hT (Live.offerReply_keeps (.refl _ _) _)⟩
  · exact h

/-- A request that leaves the table store alone. -/
theorem takeRequest_lawful_of_keeps (h : s.lawful) {row : Instr} {f : Tables → List Byte → Live → Answered}
    (ht : LeavesTables f) (hf : ∀ T a l, Keeps T l (f T a l).live) : (takeRequest row f s).lawful :=
  takeRequest_lawful h fun {T l} hT hl a => by
    have hlive := hl.keeps hT (hf T a l)
    rw [← ht T a l] at hT hlive
    exact ⟨hT, by rwa [ht] at hlive ⊢⟩

/-! ### Power-on, RESET and ESTOP -/

theorem Tables.reset_get (n : RegionName) : Tables.reset.get n = .empty := by cases n <;> rfl

theorem Tables.reset_law : Tables.reset.law := by
  refine ⟨fun n => ?_, fun n => ?_, fun n _ => ?_, fun n hv => ?_⟩
  · rw [Tables.reset_get]; decide
  · rw [Tables.reset_get]; exact Nat.zero_le _
  · rw [Tables.reset_get]; rfl
  · rw [Tables.valid, Tables.reset_get] at hv; cases hv

/-- What holds of the power-on state whatever its lines: the laws of the queues, the fault list and the records. -/
theorem Live.lost_laws (s : Live) (lines : InputLines) (asserted : Bool) :
    QueuesBounded .reset (s.lost lines asserted) ∧ FaultLaw (s.lost lines asserted) ∧ RecordLaw (s.lost lines asserted) := by
  have hslot (i : Fin 4) : (s.lost lines asserted).records.slots.get i = .empty := by fin_cases i <;> rfl
  refine ⟨⟨?_, ?_, ?_, ?_, ?_, ?_⟩, ⟨.nil, fun e he => by cases he⟩, ⟨fun i j hi _ => ?_, fun i => ?_⟩,
    ?_⟩
  iterate 6 exact Nat.zero_le _
  · rw [Live.slotState, hslot] at hi; cases hi
  · rw [Live.slotState, hslot]; exact ⟨fun _ => rfl, fun _ => rfl⟩
  · have hempty : (s.lost lines asserted).printer.queue = [] := rfl
    refine ⟨by simp [hempty], by simp [hempty], Printer.jobLaw_none rfl⟩

/-- The power-on state is lawful where ESTOP's law asks nothing of it. -/
theorem Live.lost_lawful (s : Live) {lines : InputLines} {asserted : Bool} (h : asserted = true ∨ lines.estop = false) :
    Lawful .reset (s.lost lines asserted) := by
  obtain ⟨hq, hf, hr⟩ := s.lost_laws lines asserted
  refine ⟨hq, hf, hr, fun hawake hline => ?_⟩
  change asserted = false at hawake
  change lines.estop = true at hline
  simp [hawake, hline] at h

/-- The lines sampled at the release (R158, R188). -/
theorem Live.sampleLines_lawful (s : Live) (lines : InputLines) : Lawful .reset ((s.lost lines false).sampleLines .reset) := by
  have hestop : Lawful .reset (if lines.estop then (s.lost lines false).raise .reset .estop .lane 0 else s.lost lines false) := by
    split
    · exact Lawful.raise_estop Tables.reset_law (s.lost_lawful (lines := { lines with estop := false }) (.inr rfl)) lines
    · next h => exact s.lost_lawful (.inr (by simpa using h))
  change Lawful .reset (if lines.paperOut || lines.headHot then Live.printerFault .reset _ else _)
  split
  · exact hestop.keeps Tables.reset_law (Live.printerFault_keeps (.refl _ _))
  · exact hestop

theorem execResetAssert_lawful (h : s.lawful) {t : State} (ht : execResetAssert s = .next t) : t.lawful := by
  unfold execResetAssert at ht
  split at ht <;> cases ht
  · exact h
  · exact ⟨Tables.reset_law, s.live.lost_lawful (.inl rfl)⟩

theorem execResetRelease_lawful (h : s.lawful) (lines : InputLines) {t : State} (ht : execResetRelease lines s = .next t) :
    t.lawful := by
  unfold execResetRelease at ht
  split at ht <;> cases ht
  · exact ⟨Tables.reset_law, s.live.sampleLines_lawful lines⟩
  · exact h

theorem execEstopAsserted_lawful (h : s.lawful) {t : State} (ht : execEstopAsserted s = .next t) : t.lawful := by
  unfold execEstopAsserted State.onLines at ht
  split at ht <;> cases ht
  · exact h
  · refine ⟨h.1, ?_⟩
    dsimp only
    split
    · next hreset => exact ⟨h.2.queues, h.2.faults, h.2.records, fun hawake => absurd (hreset.symm.trans hawake) (by simp)⟩
    · exact h.2.raise_estop h.1 _

theorem execEstopReleased_lawful (h : s.lawful) {t : State} (ht : execEstopReleased s = .next t) : t.lawful := by
  have hlow : Lawful s.tables { s.live with lines := { s.live.lines with estop := false } } :=
    ⟨h.2.queues, h.2.faults, h.2.records, fun _ hline => by cases hline⟩
  unfold execEstopReleased State.onLines at ht
  split at ht <;> cases ht
  · refine ⟨h.1, ?_⟩
    dsimp only
    split
    · exact hlow
    · exact hlow.end_estop rfl
  · exact h

/-! ### The printer's commands -/

/-- A band offered (R182) leaves the queue, and the job under way. -/
theorem Live.offerBand_keeps {T : Tables} {l : Live} {j : Job} (hj : l.offerDue = some j) :
    Keeps T l (l.setPrinter (l.printer.offer j)) := by
  unfold Live.offerDue at hj
  split at hj
  case h_2 => cases hj
  case h_1 k hk =>
    dsimp only at hj
    split at hj <;> cases hj
    refine Live.setPrinter_keeps (.refl T l) (by simp [Printer.offer]) fun hlaw k hk' => ?_
    obtain ⟨-, hhead⟩ := hlaw j hk
    cases hk'
    refine ⟨?_, by simpa [Printer.offer] using hhead⟩
    by_cases hlast : j.nextSend + 1 = j.length <;> simp [Printer.offer, Printer.underWay, hlast]

theorem Printer.beginBand_keeps {T : Tables} {l : Live} {p : Printer} (hq : p.queue = l.printer.queue)
    (hj : p.job = l.printer.job) (hc : p.composer = l.printer.composer) : Keeps T l (l.setPrinter p.beginBand) :=
  Live.setPrinter_keeps (.refl T l) (by simp [hq]) fun hlaw =>
    Printer.beginBand_jobLaw fun j hx => by
      obtain ⟨hway, hhead⟩ := hlaw j (hj ▸ hx)
      exact ⟨by simpa [Printer.underWay, hc] using hway, hq ▸ hhead⟩

/-- The end of the handshake (R182) leaves the queue and the job, whose next band may begin. -/
theorem Live.handshakeEnds_keeps (T : Tables) (l : Live) : Keeps T l (l.setPrinter l.printer.handshakeEnds) := by
  unfold Printer.handshakeEnds
  split
  · exact Printer.beginBand_keeps rfl rfl rfl
  · exact Live.setPrinter_keeps_job (.refl T l) rfl rfl rfl

/-- 1 ms of the timebase moves timers alone. -/
theorem Live.tick_keeps (T : Tables) (l : Live) : Keeps T l l.tick :=
  Keeps.same (Live.setPrinter_keeps_job (p := { l.printer with timer := later l.printer.timer }) (.refl T l) rfl rfl rfl)
    rfl rfl rfl rfl rfl rfl rfl rfl rfl rfl

end

/-! ### Every command -/

/-- A command that does nothing but where its moment has come. -/
theorem keeps_ite {T : Tables} {l x : Live} {c : Prop} [Decidable c] (h : Keeps T l x) :
    Keeps T l (if c then x else l) := by
  split
  · exact h
  · exact .refl T l

/-- Every command keeps the laws of the tables and of the rest. -/
theorem exec_lawful {s t : State} (i : Instr) (h : s.lawful) (ht : exec i s = .next t) : t.lawful := by
  cases i
  case mgmtFrame p => cases ht; exact State.onBoth_lawful h fun hT hl => takeUp_lawful hT hl _
  case keepalive => cases ht; exact State.onBoth_lawful h fun hT hl => takeUp_lawful hT hl _
  case hostPassThrough f => cases ht; exact State.onBoth_lawful h fun hT hl => takeUp_lawful hT hl _
  case badFrame port b => cases ht; exact State.onLive_lawful h fun T l => keeps_ite (Live.badFrame_keeps (.refl T l) port)
  case badFrameWindowEnd => cases ht; exact State.onLive_lawful h fun T l => keeps_ite (Live.windowEnds_keeps (.refl T l))
  case sampleFrame a b c => cases ht; exact State.onLive_lawful h fun T l => Live.takeDown_keeps (.refl T l) _
  case headStatus a b c => cases ht; exact State.onLive_lawful h fun T l => Live.takeDown_keeps (.refl T l) _
  case headFramePassedUp f => cases ht; exact State.onLive_lawful h fun T l => Live.takeDown_keeps (.refl T l) _
  case buttonConfirm a => cases ht; exact State.onLive_lawful h fun T l => Live.takeDown_keeps (.refl T l) _
  case buttonRepeat a => cases ht; exact State.onLive_lawful h fun T l => Live.takeDown_keeps (.refl T l) _
  case buttonSkip a => cases ht; exact State.onLive_lawful h fun T l => Live.takeDown_keeps (.refl T l) _
  case buttonUnknown a b => cases ht; exact State.onLive_lawful h fun T l => Live.takeDown_keeps (.refl T l) _
  case operatorStop a => cases ht; exact State.onLive_lawful h fun T l => Live.takeDown_keeps (.refl T l) _
  case upFrameSent => cases ht; exact State.onLive_lawful h fun T l => Live.upSent_keeps (.refl T l)
  case downFrameSent => cases ht; exact State.onLive_lawful h fun T l => Live.downSent_keeps (.refl T l)
  case mgmtUnknownRequest =>
    cases ht; exact takeRequest_lawful_of_keeps h unknownRequest_tables fun T a l => unknownRequest_keeps (.refl T l) a
  case status => cases ht; exact takeRequest_lawful_of_keeps h statusRequest_tables fun T a l => statusRequest_keeps (.refl T l) a
  case laneMode =>
    cases ht; exact takeRequest_lawful_of_keeps h laneModeRequest_tables fun T a l => laneModeRequest_keeps (.refl T l) a
  case window => cases ht; exact takeRequest_lawful_of_keeps h windowRequest_tables fun T a l => windowRequest_keeps (.refl T l) a
  case tableBegin => cases ht; exact takeRequest_lawful h tableBeginRequest_lawful
  case tableData => cases ht; exact takeRequest_lawful h tableDataRequest_lawful
  case tableEnd => cases ht; exact takeRequest_lawful h tableEndRequest_lawful
  case tableAbort => cases ht; exact takeRequest_lawful h tableAbortRequest_lawful
  case tableRead =>
    cases ht; exact takeRequest_lawful_of_keeps h tableReadRequest_tables fun T a l => tableReadRequest_keeps (.refl T l) a
  case recordRead =>
    cases ht; exact takeRequest_lawful_of_keeps h recordReadRequest_tables fun T a l => recordReadRequest_keeps (.refl T l) a
  case laneReset => cases ht; exact takeRequest_lawful h laneResetRequest_lawful
  case upFlush =>
    cases ht; exact takeRequest_lawful_of_keeps h upFlushRequest_tables fun T a l => upFlushRequest_keeps (.refl T l) a
  case vehicleBegin =>
    cases ht; exact takeRequest_lawful_of_keeps h vehicleBeginRequest_tables fun T a l => vehicleBeginRequest_keeps (.refl T l) a
  case vehicleClose =>
    cases ht; exact takeRequest_lawful_of_keeps h vehicleCloseRequest_tables fun T a l => vehicleCloseRequest_keeps (.refl T l) a
  case vehicleAbort =>
    cases ht; exact takeRequest_lawful_of_keeps h vehicleAbortRequest_tables fun T a l => vehicleAbortRequest_keeps (.refl T l) a
  case recordRelease =>
    cases ht; exact takeRequest_lawful_of_keeps h recordReleaseRequest_tables fun T a l => recordReleaseRequest_keeps (.refl T l) a
  case stationSpin =>
    cases ht; exact takeRequest_lawful_of_keeps h stationSpinRequest_tables fun T a l => stationSpinRequest_keeps (.refl T l) a
  case stationCapture =>
    cases ht; exact takeRequest_lawful_of_keeps h stationCaptureRequest_tables fun T a l => stationCaptureRequest_keeps (.refl T l) a
  case stationRelease =>
    cases ht; exact takeRequest_lawful_of_keeps h stationReleaseRequest_tables fun T a l => stationReleaseRequest_keeps (.refl T l) a
  case stationTare =>
    cases ht; exact takeRequest_lawful_of_keeps h stationTareRequest_tables fun T a l => stationTareRequest_keeps (.refl T l) a
  case clearFault =>
    cases ht; exact takeRequest_lawful_of_keeps h clearFaultRequest_tables fun T a l => clearFaultRequest_keeps (.refl T l) a
  case resume => cases ht; exact takeRequest_lawful_of_keeps h resumeRequest_tables fun T a l => resumeRequest_keeps (.refl T l) a
  case clearLockout =>
    cases ht; exact takeRequest_lawful_of_keeps h clearLockoutRequest_tables fun T a l => clearLockoutRequest_keeps (.refl T l) a
  case promptPost =>
    cases ht; exact takeRequest_lawful_of_keeps h promptPostRequest_tables fun T a l => promptPostRequest_keeps (.refl T l) a
  case promptClear =>
    cases ht; exact takeRequest_lawful_of_keeps h promptClearRequest_tables fun T a l => promptClearRequest_keeps (.refl T l) a
  case print => cases ht; exact takeRequest_lawful_of_keeps h printRequest_tables fun T a l => printRequest_keeps (.refl T l) a
  case printCancel =>
    cases ht; exact takeRequest_lawful_of_keeps h printCancelRequest_tables fun T a l => printCancelRequest_keeps (.refl T l) a
  case sequencerTakeUnit => cases ht; exact State.onLive_lawful h fun T l => keeps_ite (Live.takeUnit_keeps (.refl T l))
  case autoTare st =>
    cases ht
    exact State.onLive_lawful h fun T l => keeps_ite (Live.beginTare_keeps (Live.requestTare_keeps (.refl T l) st false) st _)
  case keepaliveUpperExpiry =>
    cases ht
    refine State.onBoth_lawful h fun {T l} hT hl => ?_
    dsimp only
    split
    · exact linkWindow_lawful hT (hl.keeps hT ((Keeps.refl T l).mgmt _))
    · exact ⟨hT, hl⟩
  case silenceLimit n => cases ht; exact State.onLive_lawful h fun T l => keeps_ite (Live.fallSilent_keeps (.refl T l) n)
  case settleExpiry r => cases ht; exact State.onLive_lawful h fun T l => keeps_ite (Live.settle_keeps (.refl T l) r)
  case spinTimeout r =>
    cases ht
    exact State.onLive_lawful h fun T l => keeps_ite (Live.raise_keeps (Live.enterReleasing_keeps (.refl T l) r) _ _ _)
  case readyLapsed r =>
    cases ht
    exact State.onLive_lawful h fun T l => keeps_ite (Live.event_keeps (Live.enterReleasing_keeps (.refl T l) r) _ _ _ _)
  case releaseTimeout r => cases ht; exact State.onLive_lawful h fun T l => keeps_ite (Live.releaseExpires_keeps (.refl T l) r)
  case captureTimeout r =>
    cases ht
    refine State.onLive_lawful h fun T l => ?_
    split
    · exact Live.judgeReady_keeps (Live.endCapture_keeps (.refl T l) _ _ _)
    · exact .refl T l
  case tareAgeTick st => cases ht; exact State.onLive_lawful h fun T l => keeps_ite (Live.tareTick_keeps (.refl T l) st)
  case awaitTimeout =>
    cases ht
    refine State.onLive_lawful h fun T l => ?_
    split
    · exact Live.awaitExpires_keeps (.refl T l) _ _ _
    · exact .refl T l
  case promptHoldExpiry =>
    cases ht
    exact State.onLive_lawful h fun T l => keeps_ite (Live.setQueue_keeps (.refl T l) fun hb => by simp; omega)
  case refreshExpiry => cases ht; exact State.onLive_lawful h fun T l => keeps_ite (Live.refresh_keeps (.refl T l))
  case printJobStart => cases ht; exact State.onLive_lawful h fun T l => keeps_ite (Live.startJob_keeps (.refl T l))
  case bandComposed n => cases ht; exact State.onLive_lawful h fun T l => Live.bandComposed_keeps (.refl T l) n
  case bandOffer =>
    cases ht
    refine State.onLive_lawful h fun T l => ?_
    split
    · next hj => exact Live.offerBand_keeps hj
    · exact .refl T l
  case bandAckRise r =>
    change execBandAckRise r s = _ at ht
    unfold execBandAckRise at ht
    split at ht <;> cases ht
    · exact h
    · exact State.onLines_lawful h (fun _ => rfl) fun T l => Live.bandTaken_keeps (.refl T l)
  case bandAckFall r =>
    change execBandAckFall r s = _ at ht
    unfold execBandAckFall at ht
    split at ht <;> cases ht
    · exact State.onLines_lawful h (fun _ => rfl) fun T l => Live.becomeReady_keeps (Live.handshakeEnds_keeps T l)
    · exact h
  case ackTimeout => cases ht; exact State.onLive_lawful h fun T l => keeps_ite (Live.ackExpires_keeps (.refl T l))
  case paperOutAsserted r =>
    change execPaperOutAsserted r s = _ at ht
    unfold execPaperOutAsserted at ht
    split at ht <;> cases ht
    · exact h
    · exact State.onLines_lawful h (fun _ => rfl) fun T l => Live.printerFault_keeps (.refl T l)
  case headHotAsserted r =>
    change execHeadHotAsserted r s = _ at ht
    unfold execHeadHotAsserted at ht
    split at ht <;> cases ht
    · exact h
    · exact State.onLines_lawful h (fun _ => rfl) fun T l => Live.printerFault_keeps (.refl T l)
  case printerReady =>
    cases ht; exact State.onLines_lawful h (fun _ => rfl) fun T l => Live.becomeReady_keeps (.refl T l)
  case estopAsserted => exact execEstopAsserted_lawful h ht
  case estopReleased => exact execEstopReleased_lawful h ht
  case resetAssert => exact execResetAssert_lawful h ht
  case resetRelease lines => exact execResetRelease_lawful h lines ht

/-- A step on an empty queue: a due event is a command, and a tick moves timers alone. -/
theorem idleStep_lawful {s t : State} (h : s.lawful) (ht : idleStep s = .next t) : t.lawful := by
  unfold idleStep at ht
  split at ht
  · cases ht; exact h
  · split at ht
    · exact exec_lawful _ (h.keeps (Live.chosen_keeps (.refl _ _))) ht
    · cases ht; exact h.keeps (Live.tick_keeps _ _)

theorem step_lawful {s t : State} (h : s.lawful) (ht : step s = .next t) : t.lawful := by
  unfold step at ht
  split at ht
  · next c rest _ => exact exec_lawful (s := { s with pending := rest }) c h ht
  · exact idleStep_lawful h ht

/-- Settles O8: the laws of the tables bound the mirror trip level, under which each command keeps the laws of the rest. -/
theorem everyStepKeepsTheLaws : Obligations.EveryStepKeepsTheLaws :=
  fun _ _ hT hl ht => (step_lawful ⟨hT, hl⟩ ht).2

/-- Settles O6: the power-on state, read field by field. -/
theorem resetStateIsLawful : Obligations.ResetStateIsLawful := by
  refine ⟨Tables.reset_law, Live.lost_lawful (Live.powerOn .inactive) (asserted := false) (.inr rfl), rfl, Tables.reset_get, rfl,
    fun st => ?_, fun i => ?_, rfl, rfl, rfl, rfl, rfl, rfl, rfl, rfl⟩
  · cases st <;> exact ⟨rfl, rfl⟩
  · fin_cases i <;> rfl

end Sys2Proof.Machine
end

section
/-! ## Commands under RESET, and the frames of the two ports (O4, O5, O11 to O14, O21, O31) -/

namespace Sys2Proof.Machine

/-! ### Under RESET (R17) -/

section
variable {s : State}

theorem State.onBoth_reset (f : Tables → Live → Tables × Live) (h : s.live.resetAsserted = true) : s.onBoth f = s := by
  simp [State.onBoth, h]

theorem State.onLines_reset (g : InputLines → InputLines) (f : Tables → Live → Live) (h : s.live.resetAsserted = true) :
    s.onLines g f = s.withLive { s.live with lines := g s.live.lines } := by
  simp [State.onLines, h, State.withLive]

theorem takeRequest_reset (row : Instr) (f : Tables → List Byte → Live → Answered) (h : s.live.resetAsserted = true) :
    takeRequest row f s = s := by
  have hnone : s.live.requestOf row = none := by
    unfold Live.requestOf
    split
    · simp [h]
    · rfl
  simp [takeRequest, hnone]

/-- A command that changes no line and is not the release of RESET has no effect under RESET: each acts through one of the three
frames of the commands, and RESET's own assertion is not taken twice. -/
theorem exec_under_reset (i : Instr) (h : s.live.resetAsserted = true) (hr : ∀ l, i ≠ .resetRelease l)
    (hl : lineCommand i = false) : exec i s = .next s := by
  cases i
  case resetAssert => simp [exec, execResetAssert, h]
  case resetRelease l => exact absurd rfl (hr l)
  case bandAckRise | bandAckFall | paperOutAsserted | headHotAsserted | printerReady | estopAsserted | estopReleased => cases hl
  all_goals first
    | exact congrArg Host.Outcome.next (State.onLive_reset _ h)
    | exact congrArg Host.Outcome.next (State.onBoth_reset _ h)
    | exact congrArg Host.Outcome.next (takeRequest_reset _ _ h)

/-- A command of a line under RESET changes the levels alone. -/
theorem exec_line_under_reset (i : Instr) (h : s.live.resetAsserted = true) (hl : lineCommand i = true) :
    ∃ lines, exec i s = .next (s.withLive { s.live with lines := lines }) := by
  have hedge (c : Bool) (g : InputLines → InputLines) (f : Tables → Live → Live) :
      ∃ lines, (if c = true then Host.Outcome.next s else .next (s.onLines g f) : Out)
        = .next (s.withLive { s.live with lines := lines }) := by
    cases c
    · exact ⟨g s.live.lines, congrArg Host.Outcome.next (State.onLines_reset g f h)⟩
    · exact ⟨s.live.lines, rfl⟩
  have hfall (c : Bool) (g : InputLines → InputLines) (f : Tables → Live → Live) :
      ∃ lines, (if c = true then Host.Outcome.next (s.onLines g f) else .next s : Out)
        = .next (s.withLive { s.live with lines := lines }) := by
    obtain ⟨lines, hlines⟩ := hedge (!c) g f
    exact ⟨lines, by rw [← hlines]; cases c <;> rfl⟩
  cases i
  case bandAckRise ready => exact hedge _ _ _
  case bandAckFall ready => exact hfall _ _ _
  case paperOutAsserted ready => exact hedge _ _ _
  case headHotAsserted ready => exact hedge _ _ _
  case printerReady => exact ⟨_, congrArg Host.Outcome.next (State.onLines_reset _ _ h)⟩
  case estopAsserted => exact hedge _ _ _
  case estopReleased => exact hfall _ _ _
  all_goals cases hl

/-- Settles O4, by whether the command is one of a line. -/
theorem underResetOnlyTheLinesChange : Obligations.UnderResetOnlyTheLinesChange := by
  intro i s h hr
  cases hl : lineCommand i
  · exact ⟨s.live.lines, exec_under_reset i h hr hl, fun _ => rfl⟩
  · obtain ⟨lines, hlines⟩ := exec_line_under_reset i h hl
    exact ⟨lines, hlines, fun hno => by cases hno⟩

/-! ### The release of RESET (R158, R163, R188) -/

/-- What the sampled lines make of the power-on state: no station is present, so that ESTOP's lock reaches the sequencer alone,
and PRINTER's action is NOTE. -/
theorem Live.sampleLines_lost (l : Live) (lines : InputLines) :
    (l.lost lines false).sampleLines .reset = { l.lost lines false with
      faults := if lines.estop then [newEntry .estop .lane .lock none] else []
      seq := if lines.estop then { Seq.reset with state := .locked } else .reset
      printer := { Printer.reset with fault := lines.paperOut || lines.headHot }
      chain := { Chain.reset with
        up := (if lines.estop then originated [faultEvent .estop .lane .lock false 0 0] else [])
          ++ (if lines.paperOut || lines.headHot then originated [faultEvent .printer .lane .note false 0 0] else []) } } := by
  obtain ⟨estop, ready, paperOut, headHot, bandAck⟩ := lines
  cases estop <;> cases paperOut <;> cases headHot <;> rfl

/-- Settles O5: the assertion by definition, the release by what the sampled lines make of the power-on state. -/
theorem resetLosesEverythingAndSamplesTheLines : Obligations.ResetLosesEverythingAndSamplesTheLines := by
  refine ⟨fun s h => ?_, fun s lines h => ?_⟩
  · have hawake : s.live.resetAsserted = false := h
    simp [exec, execResetAssert, hawake, Live.lost]
  · refine ⟨{ s with tables := .reset, live := (s.live.lost lines false).sampleLines .reset }, ?_, rfl, rfl, ?_⟩
    · simp [exec, execResetRelease, h]
    · rw [State.awake, Live.sampleLines_lost]
      exact ⟨rfl, rfl, rfl, rfl, rfl, rfl, rfl, rfl, rfl, rfl, rfl, rfl, rfl, rfl, rfl⟩

end

/-! ### The down filter and the level of the host (R15, R16) -/

section
variable {T : Tables} {l : Live}

theorem Live.driveBlocked_eq_none {dest : Nat} : l.driveBlocked T dest = none ↔
    ∀ r, dest = 31 ∨ T.driveStation dest = some r → (l.roller r).state ≠ .faulted := by
  unfold Live.driveBlocked
  by_cases hall : dest = 31
  · simp only [hall, if_true, true_or, forall_const]
    constructor
    · intro h r hx
      cases r
      · simp [show l.ra.state = .faulted from hx] at h
      · split at h
        · cases h
        · simp [show l.rb.state = .faulted from hx] at h
    · intro h
      have hra : l.ra.state ≠ .faulted := h .ra
      have hrb : l.rb.state ≠ .faulted := h .rb
      simp [hra, hrb]
  · simp only [hall, if_false, false_or]
    cases hd : T.driveStation dest with
    | none => simp
    | some r => simp

theorem Live.setupBlocked_eq_none {dest : Nat} : l.setupBlocked T dest = none ↔
    ∀ st, headBound T dest st = true → l.stationState st = .idle ∨ l.stationState st = .offline := by
  unfold Live.setupBlocked
  rw [List.find?_eq_none]
  have hmem (st : Station) : st ∈ stations := by cases st <;> decide
  constructor
  · intro h st hb
    have := h st (hmem st)
    by_contra hx
    rw [not_or] at hx
    simp [hb, hx.1, hx.2] at this
  · intro h st _
    by_cases hb : headBound T dest st = true
    · rcases h st hb with hx | hx <;> simp [hx]
    · simp [hb]

theorem hostPasses_drive {f : Frame} (hk : f.kind = kindDrive) :
    hostPasses T l f ↔ l.mode = .service ∧ l.driveBlocked T f.dest.toNat = none := by
  rw [Live.driveBlocked_eq_none, hostPasses, if_pos hk]

theorem hostPasses_setup {f : Frame} (hk : f.kind ≠ kindDrive) (hall : f.dest.toNat ≠ 31) (hs : f.kind = kindHeadSetup) :
    hostPasses T l f ↔ l.setupBlocked T f.dest.toNat = none := by
  rw [Live.setupBlocked_eq_none, hostPasses, if_neg hk, if_neg hall, if_pos hs]

theorem hostPasses_other {f : Frame} (hk : f.kind ≠ kindDrive) (h : f.dest.toNat = 31 ∨ f.kind ≠ kindHeadSetup) :
    hostPasses T l f := by
  rw [hostPasses, if_neg hk]
  rcases h with hall | hs
  · rw [if_pos hall]; trivial
  · rw [if_neg hs, ite_self]; trivial

/-- A frame of neither kind that the filter judges, or a broadcast that is no DRIVE frame, is offered (R16). -/
theorem Live.hostFrame_other {f : Frame} (hk : f.kind ≠ kindDrive) (h : f.dest.toNat = 31 ∨ f.kind ≠ kindHeadSetup) :
    l.hostFrame T f = l.offerHost f := by
  rcases h with hall | hs
  · simp [Live.hostFrame, hk, hall]
  · simp [Live.hostFrame, hk, hs]

theorem Live.hostFrame_of_passes {f : Frame} (h : hostPasses T l f) : l.hostFrame T f = l.offerHost f := by
  by_cases hk : f.kind = kindDrive
  · simp only [Live.hostFrame, hk, if_true, (hostPasses_drive hk).1 h, and_self]
  · by_cases ho : f.dest.toNat = 31 ∨ f.kind ≠ kindHeadSetup
    · exact Live.hostFrame_other hk ho
    · rw [not_or, not_not] at ho
      obtain ⟨hall, hs⟩ := ho
      have hfree := (hostPasses_setup hk hall hs).1 h
      rw [hs] at hk
      simp [Live.hostFrame, hk, hall, hs, hfree]

theorem Live.hostFrame_of_not_passes {f : Frame} (h : ¬ hostPasses T l f) :
    l.hostFrame T f = l.event .filtered (filteredStation T l f) 0 f.dest.toNat := by
  by_cases hk : f.kind = kindDrive
  · rw [hostPasses_drive hk] at h
    simp only [Live.hostFrame, filteredStation, hk, if_true, if_neg h, Live.filtered]
  · by_cases ho : f.dest.toNat = 31 ∨ f.kind ≠ kindHeadSetup
    · exact absurd (hostPasses_other hk ho) h
    · rw [not_or, not_not] at ho
      obtain ⟨hall, hs⟩ := ho
      rw [hostPasses_setup hk hall hs] at h
      obtain ⟨st, hst⟩ := Option.ne_none_iff_exists'.1 h
      rw [hs] at hk
      simp [Live.hostFrame, filteredStation, Live.filtered, hk, hall, hs, hst]

theorem Live.admitDown?_of_room {f : DownFrame} (h : l.chain.down.length < downLevel f.source) :
    l.admitDown? f = some (l.setDown (placeDown f l.chain.down)) := if_pos h

theorem Live.admitDown?_of_full {f : DownFrame} (h : downLevel f.source ≤ l.chain.down.length) : l.admitDown? f = none :=
  if_neg (Nat.not_lt.2 h)

theorem Live.offerHost_of_room {f : Frame} (h : l.chain.down.length < 10) :
    l.offerHost f = l.setDown (placeDown { source := .host, frame := f } l.chain.down) := by
  simp only [Live.offerHost, Live.admitDown?_of_room (f := { source := .host, frame := f }) h]

theorem Live.offerHost_of_full {f : Frame} (h : 10 ≤ l.chain.down.length) :
    l.offerHost f = l.event .downFull none 0 f.dest.toNat := by
  simp only [Live.offerHost, Live.admitDown?_of_full (f := { source := .host, frame := f }) h]

/-- A well-formed host frame reaches the down filter. -/
theorem takeUp_hostFrame {f : Frame} (h : hostFrameFits f = true) : takeUp f T l = (T, l.hostFrame T f) := by
  have hgood : frameBad .up f = false :=
    Laws.GoodFrames.hostPassThrough f h (.up, f) (List.mem_singleton.2 rfl)
  simp only [hostFrameFits, chainAddress, Bool.and_eq_true, decide_eq_true_eq] at h
  obtain ⟨⟨hpos, hle⟩, -⟩ := h
  have hdest : f.dest ≠ 0 := fun h0 => by rw [h0] at hpos; simp at hpos
  simp only [takeUp, hgood, if_neg hdest, if_pos hle, Bool.false_eq_true, if_false]

/-- Settles O11: the frame reaches the filter, whose two outcomes are those of R16, and the admission that of R15. -/
theorem hostFrameIsFilteredThenAdmitted : Obligations.HostFrameIsFilteredThenAdmitted := by
  intro s f hawake hfits
  have hexec : exec (.hostPassThrough f) s = .next (s.withLive (s.live.hostFrame s.tables f)) := by
    change Host.Outcome.next (s.onBoth (takeUp f)) = _
    rw [State.onBoth_awake _ hawake, takeUp_hostFrame hfits]
    rfl
  rw [hexec]
  refine ⟨fun hp hroom => ?_, fun hp hfull => ?_, fun hp => ?_⟩
  · rw [Live.hostFrame_of_passes hp, Live.offerHost_of_room hroom]
  · rw [Live.hostFrame_of_passes hp, Live.offerHost_of_full hfull]
  · rw [Live.hostFrame_of_not_passes hp]

end

/-! ### Freed places of the up queue (R12, R120) -/

theorem originated_append (a b : List Frame) : originated (a ++ b) = originated a ++ originated b := List.map_append

/-- Pending RESULT frames enter in their order, as many as there is room for. -/
theorem enterResults_eq : ∀ (l : List (Fin 4 × Frame)) (q : List UpFrame), enterResults l q =
    (l.drop (32 - q.length), q ++ originated ((l.take (32 - q.length)).map (·.2)))
  | [], q => by simp [enterResults, originated]
  | p :: rest, q => by
    unfold enterResults
    by_cases h : q.length < Config.upCapacity
    · have hroom : 32 - q.length = (32 - (q.length + 1)) + 1 := by
        simp only [Config.upCapacity] at h; omega
      rw [if_pos h, enterResults_eq rest, List.length_append, List.length_singleton, hroom]
      simp [originated]
    · have hroom : 32 - q.length = 0 := by
        simp only [Config.upCapacity] at h; omega
      rw [if_neg h, hroom]
      simp [originated]

theorem Live.offerPending_eq (l : Live) : l.offerPending = { l with
    chain := { l.chain with
      up := l.chain.up ++ originated ((l.records.pendingResults.take (32 - l.chain.up.length)).map (·.2)) }
    records := { l.records with pendingResults := l.records.pendingResults.drop (32 - l.chain.up.length) } } := by
  simp only [Live.offerPending, enterResults_eq, Live.setUp]

theorem Live.offerFreedUp_of_none {l : Live} (h : l.mgmt.reply = none) : l.offerFreedUp = l.offerPending := by
  simp [Live.offerFreedUp, h]

theorem Live.offerFreedUp_of_some {l : Live} {f : Frame} (h : l.mgmt.reply = some f) (hroom : l.chain.up.length < 32) :
    l.offerFreedUp = Live.offerPending { (l.setUp (l.chain.up ++ originated [f])) with
      mgmt := { l.mgmt with reply := none } } := by
  simp [Live.offerFreedUp, h, Config.upCapacity, hroom, originated]

/-- Settles O12: the head leaves, and the freed places are offered to the REPLY and the RESULT frames. -/
theorem upFrameSentOffersTheFreedPlaces : Obligations.UpFrameSentOffersTheFreedPlaces := by
  intro s h rest hawake hup
  have hexec : exec .upFrameSent s = .next (s.withLive (s.live.setUp rest).offerFreedUp) := by
    change Host.Outcome.next (s.onLive fun _ l => l.upSent) = _
    rw [State.onLive_awake _ hawake]
    simp [Live.upSent, hup]
  rw [hexec]
  refine ⟨fun hnone => ?_, fun f hsome hroom => ?_⟩
  · rw [Live.offerFreedUp_of_none (l := s.live.setUp rest) hnone, Live.offerPending_eq]
    rfl
  · rw [Live.offerFreedUp_of_some (l := s.live.setUp rest) hsome hroom, Live.offerPending_eq]
    have hlen : 32 - (rest ++ originated [f]).length = 31 - rest.length := by
      simp [originated]
    simp only [Live.setUp, hlen]
    simp [originated]

/-! ### The down queue (R14, R69) -/

theorem placeDown_drive {f h : DownFrame} {drives others : List DownFrame} (hd : ∀ x ∈ drives, x.isDrive = true)
    (ho : ∀ x ∈ others, x.isDrive = false) (hf : f.isDrive = true) :
    placeDown f (h :: (drives ++ others)) = h :: (drives ++ f :: others) := by
  have htake : others.takeWhile (·.isDrive) = [] := by
    cases others with
    | nil => rfl
    | cons x xs => simp [ho x (by simp)]
  have hdrop : others.dropWhile (·.isDrive) = others := by
    cases others with
    | nil => rfl
    | cons x xs => simp [ho x (by simp)]
  simp [placeDown, hf, List.takeWhile_append_of_pos hd, List.dropWhile_append_of_pos hd, htake, hdrop]

theorem Live.offerHeld_of_none {l : Live} {r : Roller} (h : (l.roller r).heldDrive = none) : l.offerHeld r = l := by
  simp [Live.offerHeld, h]

theorem Live.offerHeld_of_room {l : Live} {r : Roller} {f : Frame} (h : (l.roller r).heldDrive = some f)
    (hroom : l.chain.down.length < 16) :
    l.offerHeld r = (l.setDown (placeDown { source := .drive, frame := f } l.chain.down)).setHeld r none := by
  simp only [Live.offerHeld, h, Live.admitDown?_of_room (f := { source := .drive, frame := f }) hroom]

theorem Live.offerHeld_of_full {l : Live} {r : Roller} (hfull : 16 ≤ l.chain.down.length) : l.offerHeld r = l := by
  unfold Live.offerHeld
  split
  · rfl
  · next f _ => rw [Live.admitDown?_of_full (f := { source := .drive, frame := f }) hfull]

/-- Settles O13: the order by the prefix of DRIVE frames, the freed places by what each roller station holds. -/
theorem downQueueOrderAndFreedPlaces : Obligations.DownQueueOrderAndFreedPlaces := by
  refine ⟨fun f h drives others hd ho => ⟨rfl, placeDown_drive hd ho, fun hf => by simp [placeDown, hf]⟩, ?_⟩
  intro s h rest hawake hdown hlen
  have hexec : exec .downFrameSent s = .next (s.withLive (s.live.setDown rest).offerFreedDown) := by
    change Host.Outcome.next (s.onLive fun _ l => l.downSent) = _
    rw [State.onLive_awake _ hawake]
    simp [Live.downSent, hdown]
  simp only [hexec, Live.offerFreedDown]
  refine ⟨fun hra hrb => ?_, fun f hra hrb => ?_, fun g hra hrb => ?_, fun f g hra hrb hroom => ?_⟩
  · rw [Live.offerHeld_of_none (l := s.live.setDown rest) (r := .ra) hra,
      Live.offerHeld_of_none (l := s.live.setDown rest) (r := .rb) hrb]
  · rw [Live.offerHeld_of_room (l := s.live.setDown rest) (r := .ra) hra hlen]
    rcases hrb with hrb | hfull
    · rw [Live.offerHeld_of_none (r := .rb)]
      · rfl
      · exact hrb
    · rw [Live.offerHeld_of_full]
      · rfl
      · simp [Live.setHeld, hfull]
  · rw [Live.offerHeld_of_none (l := s.live.setDown rest) (r := .ra) hra,
      Live.offerHeld_of_room (l := s.live.setDown rest) (r := .rb) hrb hlen]
    rfl
  · rw [Live.offerHeld_of_room (l := s.live.setDown rest) (r := .ra) hra hlen, Live.offerHeld_of_room (r := .rb) (f := g)]
    · rfl
    · exact hrb
    · simp only [Live.setHeld, Live.setRoller_chain, Live.setDown_chain, placeDown_length]; omega

/-! ### Frames that no block takes (R8, R10, R42) -/

theorem Live.offerMirror_of_room {T : Tables} {l : Live} (f : Frame) (h : l.chain.up.length < T.settings.trip) :
    l.offerMirror T f = l.setUp (l.chain.up ++ [{ mirror := true, frame := f }]) := if_pos h

theorem Live.offerMirror_of_full {T : Tables} {l : Live} (f : Frame) (h : T.settings.trip ≤ l.chain.up.length) :
    l.offerMirror T f = l := if_neg (Nat.not_lt.2 h)

/-- A good frame that no block takes is offered as mirror class. -/
theorem Live.takeDown_passedUp {T : Tables} {l : Live} {f : Frame} (hfits : headFrameFits f = true)
    (hgood : frameBad .down f = false) (hp : passedUp T f) : l.takeDown f T = l.offerMirror T f := by
  simp only [headFrameFits, Bool.and_eq_true, decide_eq_true_eq] at hfits
  obtain ⟨⟨-, hdest⟩, -⟩ := hfits
  have hle : f.dest.toNat ≤ 31 := by omega
  rcases hp with hto | ⟨hs, hst, hb⟩ | ⟨hk, hnone⟩ | ⟨hk, hrem⟩
  · simp only [Live.takeDown, hgood, if_neg hto, if_pos hle, Bool.false_eq_true, if_false]
  · simp [Live.takeDown, hgood, hs, hst, hb, hle]
  · simp [Live.takeDown, hgood, hk, hnone, hle, kindHeadStatus, kindSample]
  · simp [Live.takeDown, hgood, hk, hrem, hle, kindButton, kindHeadStatus, kindSample]

/-- A well-formed SAMPLE frame reaches the steering unit. -/
theorem Live.takeDown_sample {T : Tables} {l : Live} {src ch : Byte} {xs : List Half}
    (h : WellFormed (.sampleFrame src ch xs) = true) :
    l.takeDown (headFrame src kindSample (samplePayload ch xs)) T =
      l.sampleFrame T (headFrame src kindSample (samplePayload ch xs)) ch (payloadSamples (samplePayload ch xs)) := by
  have hgood : frameBad .down (headFrame src kindSample (samplePayload ch xs)) = false :=
    Laws.GoodFrames.sampleFrame src ch xs h (.down, _) (List.mem_singleton.2 rfl)
  have hdest : (headFrame src kindSample (samplePayload ch xs)).dest = 0 := rfl
  have hkind : (headFrame src kindSample (samplePayload ch xs)).kind = kindSample := rfl
  simp only [Live.takeDown, hgood, if_pos hdest, if_pos hkind, Bool.false_eq_true, if_false]
  rfl

/-- Settles O14: a frame that no block takes, and a SAMPLE frame without an entry, are offered as mirror class. -/
theorem headFramesThatNoBlockTakesGoUp : Obligations.HeadFramesThatNoBlockTakesGoUp := by
  refine ⟨fun s f hawake hfits hgood hp => ?_, fun s src ch xs hawake hwf => ?_⟩
  · have hexec : exec (.headFramePassedUp f) s = .next (s.withLive (s.live.offerMirror s.tables f)) := by
      change Host.Outcome.next (s.onLive (Live.takeDown f)) = _
      rw [State.onLive_awake _ hawake, Live.takeDown_passedUp hfits hgood hp]
    rw [hexec]
    exact ⟨fun hroom => by rw [Live.offerMirror_of_room f hroom], fun hfull => by rw [Live.offerMirror_of_full f hfull]; rfl⟩
  · have hexec : exec (.sampleFrame src ch xs) s = .next (s.withLive (s.live.sampleFrame s.tables
        (headFrame src kindSample (samplePayload ch xs)) ch (payloadSamples (samplePayload ch xs)))) := by
      change Host.Outcome.next (s.onLive (Live.takeDown _)) = _
      rw [State.onLive_awake _ hawake, Live.takeDown_sample hwf]
    rw [hexec]
    refine ⟨fun hoff => ?_, fun hon hno hroom => ?_, fun hon hno hfull => ?_⟩
    · simp [Live.sampleFrame, hoff]
    · simp [Live.sampleFrame, hon, headFrame, hno, Live.offerMirror_of_room _ hroom]
    · simp [Live.sampleFrame, hon, headFrame, hno, Live.offerMirror_of_full _ hfull]

/-! ### Requests (R7, R20) -/

/-- A request that the management unit can take is answered by its row. -/
theorem takeRequest_of_asks {s : State} {code : Byte} {a : List Byte} {row : Instr}
    {f : Tables → List Byte → Live → Answered} (h : s.asks (code :: a)) (hrow : requestRow (code :: a) = row) :
    takeRequest row f s = s.answered code (f s.tables a s.taking).tables (f s.tables a s.taking).live
      (f s.tables a s.taking).status (f s.tables a s.taking).data := by
  obtain ⟨hawake, hreply, hreq⟩ := h
  have hof : s.live.requestOf row = some (code :: a) := by
    simp [Live.requestOf, hreq, hreply, hrow, show s.live.resetAsserted = false from hawake]
  simp only [takeRequest, hof]
  rfl

/-- A well-formed MGMT frame reaches the request buffer. -/
theorem takeUp_mgmtFrame {T : Tables} {l : Live} {p : List Byte} (h : requestFits p = true) :
    takeUp (hostToController kindMgmt p) T l = (T, l.bufferRequest p) := by
  have hgood : frameBad .up (hostToController kindMgmt p) = false :=
    Laws.GoodFrames.mgmtFrame p h (.up, _) (List.mem_singleton.2 rfl)
  have hdest : (hostToController kindMgmt p).dest = 0 := rfl
  have hkind : (hostToController kindMgmt p).kind = kindMgmt := rfl
  simp only [takeUp, hgood, if_pos hdest, if_pos hkind, Bool.false_eq_true, if_false]
  rfl

/-- A code that names no request, or a STATION request without one of its operations, is taken by the row of unknown requests. -/
theorem requestRow_unknown {code : Byte} {a : List Byte}
    (h : code.toNat = 0 ∨ 23 < code.toNat ∨ (code.toNat = 16 ∧ (a.length < 2 ∨ 3 < (a.getD 1 0).toNat))) :
    requestRow (code :: a) = .mgmtUnknownRequest := by
  have hcode : rd (code :: a) 0 = code.toNat := rfl
  have hop : rd (code :: a) 2 = (a.getD 1 0).toNat := rfl
  unfold requestRow
  rw [hcode, hop]
  rcases h with h0 | h23 | ⟨h16, hlen | hbig⟩
  · rw [h0]; rfl
  · split <;> first | omega | rfl
  · rw [h16]; simp; omega
  · obtain ⟨k, hk⟩ := Nat.exists_eq_add_of_le' hbig
    rw [h16, hk]
    exact ite_self _

/-- Settles O21: the buffer by whether it is empty, the refusal by the row of unknown requests. -/
theorem requestsEnterTheBufferOrAreRefused : Obligations.RequestsEnterTheBufferOrAreRefused := by
  refine ⟨fun s p hawake hfits => ?_, fun s code a hasks hcode => ?_⟩
  · have hexec : exec (.mgmtFrame p) s = .next (s.withLive (s.live.bufferRequest p)) := by
      change Host.Outcome.next (s.onBoth (takeUp _)) = _
      rw [State.onBoth_awake _ hawake, takeUp_mgmtFrame hfits]
      rfl
    rw [hexec]
    refine ⟨fun hnone => by simp [Live.bufferRequest, hnone], fun hsome => ?_⟩
    obtain ⟨q, hq⟩ := Option.ne_none_iff_exists'.1 hsome
    simp [Live.bufferRequest, hq]
  · exact congrArg Host.Outcome.next (takeRequest_of_asks hasks (requestRow_unknown hcode))

/-! ### UP_FLUSH (R13) -/

theorem flushMirrors_eq (q : List UpFrame) : flushMirrors q = q.take 1 ++ (q.drop 1).filter (fun f => !f.mirror) := by
  cases q <;> rfl

/-- What a flush leaves and what it removes make up the queue. -/
theorem flushMirrors_length_add (q : List UpFrame) : (flushMirrors q).length + mirrorCount (q.drop 1) = q.length := by
  cases q with
  | nil => rfl
  | cons h t =>
    have hsplit : (t.filter fun f => !f.mirror).length = t.countP fun f => !f.mirror := List.countP_eq_length_filter.symm
    have hsum := List.length_eq_countP_add_countP (fun f : UpFrame => f.mirror) (l := t)
    simp only [flushMirrors, mirrorCount, List.drop_one, List.tail_cons, List.length_cons, hsplit]
    simp only [Bool.not_eq_true, Bool.decide_eq_false] at hsum
    omega

/-- A flush that removes nothing leaves the queue. -/
theorem flushMirrors_of_no_mirror {q : List UpFrame} (h : mirrorCount (q.drop 1) = 0) : flushMirrors q = q := by
  cases q with
  | nil => rfl
  | cons x t =>
    have hno : ∀ f ∈ t, ¬ f.mirror = true := List.countP_eq_zero.1 h
    simp only [flushMirrors, List.cons.injEq, true_and]
    exact List.filter_eq_self.2 fun f hf => by simpa using hno f hf

/-- Settles O31: the flush by what it leaves, the freed places by R12, and a queue that stays full makes the REPLY wait. -/
theorem upFlushRemovesTheMirrors : Obligations.UpFlushRemovesTheMirrors := by
  intro s hasks hmirrors
  have hlen := flushMirrors_length_add s.live.chain.up
  have hexec : exec .upFlush s = .next (s.answered 11 s.tables (s.taking.setUp (flushMirrors s.live.chain.up)).offerPending .ok
      [byte (mirrorCount (s.live.chain.up.drop 1))]) := by
    refine congrArg Host.Outcome.next ((takeRequest_of_asks hasks rfl).trans ?_)
    have hfreed : (s.taking.setUp (flushMirrors s.live.chain.up)).offerFreedUp
        = (s.taking.setUp (flushMirrors s.live.chain.up)).offerPending :=
      Live.offerFreedUp_of_none (l := s.taking.setUp _) hasks.2.1
    have hremoved : s.live.chain.up.length - (flushMirrors s.live.chain.up).length = mirrorCount (s.live.chain.up.drop 1) := by
      omega
    have hchain : s.taking.chain = s.live.chain := rfl
    simp only [upFlushRequest, List.isEmpty_nil, if_true, accept, hchain, hfreed, hremoved]
  have htail : mirrorCount (s.live.chain.up.drop 1) ≤ mirrorCount s.live.chain.up :=
    (List.drop_sublist 1 _).countP_le
  refine ⟨?_, by omega, ?_, fun hzero hfull => ?_⟩
  · rw [hexec, Live.offerPending_eq, ← flushMirrors_eq]
    rfl
  · rw [← flushMirrors_eq]; exact hlen
  · rw [hexec, hzero, flushMirrors_of_no_mirror hzero, Live.offerPending_eq]
    have hup : s.taking.chain.up.length = 32 := hfull
    simp [State.answered, Live.offerReply, Live.setUp, State.withLive, Config.upCapacity, hfull, originated]
    exact ⟨rfl, rfl⟩

end Sys2Proof.Machine
end

section
/-! ## What the board and the sequencer leave alone of the rest

`Reacts old s`: beside the sequencer's items, the board, the queues' frames and EVENT_OVERRUN, everything is as it was, and the down
queue has only grown. It holds of each act of the guidance unit and the sequencer, and so of what a station's change of state
brings about. -/

namespace Sys2Proof.Machine

/-! ### A down queue that grows (R14, R15) -/

/-- A down queue has taken frames that are not the host's: what stood in it keeps its order, and the started frame its place. -/
structure DownGrows (old new : List DownFrame) : Prop where
  kept : old.Sublist new
  head : ∀ h, old.head? = some h → new.head? = some h
  host : (new.filter fun f => f.source == .host) = old.filter fun f => f.source == .host

theorem DownGrows.refl (q : List DownFrame) : DownGrows q q := ⟨.refl q, fun _ h => h, rfl⟩

theorem DownGrows.trans {p q r : List DownFrame} (h : DownGrows p q) (k : DownGrows q r) : DownGrows p r :=
  ⟨h.kept.trans k.kept, fun x hx => k.head x (h.head x hx), k.host.trans h.host⟩

/-- A placed frame splits the queue in two. -/
theorem placeDown_split (f : DownFrame) (q : List DownFrame) :
    ∃ a b, q = a ++ b ∧ placeDown f q = a ++ f :: b ∧ (q ≠ [] → a ≠ []) := by
  cases q with
  | nil => exact ⟨[], [], rfl, rfl, fun h => h⟩
  | cons h t =>
    by_cases hf : f.isDrive = true
    · exact ⟨h :: t.takeWhile (·.isDrive), t.dropWhile (·.isDrive), by simp, by simp [placeDown, hf], fun _ => by simp⟩
    · exact ⟨h :: t, [], by simp, by simp [placeDown, hf], fun _ => by simp⟩

theorem mem_placeDown_self (f : DownFrame) (q : List DownFrame) : f ∈ placeDown f q := by
  obtain ⟨a, b, -, hp, -⟩ := placeDown_split f q
  simp [hp]

/-- A frame that is not the host's joins the down queue. -/
theorem DownGrows.placeDown {f : DownFrame} (hf : f.source ≠ .host) (q : List DownFrame) : DownGrows q (placeDown f q) := by
  obtain ⟨a, b, hq, hp, hne⟩ := placeDown_split f q
  rw [hp]
  refine ⟨?_, fun h hh => ?_, ?_⟩
  · rw [hq]; exact (List.Sublist.refl a).append (List.sublist_cons_self f b)
  · have ha : a ≠ [] := hne fun h0 => by rw [h0] at hh; cases hh
    obtain ⟨x, xs, rfl⟩ := List.exists_cons_of_ne_nil ha
    rw [hq] at hh
    simpa using hh
  · rw [hq]; simp [hf]

/-! ### The relation -/

/-- What an act of the guidance unit or of the sequencer on `old` that answers `s` leaves as it was. -/
structure Reacts (old s : Live) : Prop where
  rest : s = { old with
    seq := s.seq
    guide := s.guide
    chain := { old.chain with up := s.chain.up, down := s.chain.down }
    mgmt := { old.mgmt with sticky := s.mgmt.sticky } }
  down : DownGrows old.chain.down s.chain.down

section
variable {T : Tables} {old s t : Live}

theorem Reacts.refl (s : Live) : Reacts s s := ⟨rfl, .refl _⟩

theorem Reacts.trans (h : Reacts old s) (k : Reacts s t) : Reacts old t := by
  refine ⟨?_, h.down.trans k.down⟩
  have hk := k.rest
  rw [h.rest] at hk
  exact hk

theorem Reacts.faults (h : Reacts old s) : s.faults = old.faults := by rw [h.rest]

theorem Reacts.ps (h : Reacts old s) : s.ps = old.ps := by rw [h.rest]

theorem Reacts.ra (h : Reacts old s) : s.ra = old.ra := by rw [h.rest]

theorem Reacts.rb (h : Reacts old s) : s.rb = old.rb := by rw [h.rest]

theorem Reacts.still (h : Reacts old s) : Still old s := ⟨h.ps, h.ra, h.rb⟩

theorem Reacts.roller (h : Reacts old s) (r : Roller) : s.roller r = old.roller r := h.still.roller r

theorem Reacts.records (h : Reacts old s) : s.records = old.records := by rw [h.rest]

/-- An act applied along a list. -/
theorem Reacts.foldl {α : Type} {f : Live → α → Live} (hf : ∀ x a, Reacts x (f x a)) :
    ∀ (l : List α) (s : Live), Reacts s (l.foldl f s)
  | [], s => .refl s
  | a :: l, s => (hf s a).trans (Reacts.foldl hf l (f s a))

/-! ### Single acts -/

theorem Live.setSeq_reacts (s : Live) (q : Seq) : Reacts s (s.setSeq q) := ⟨rfl, .refl _⟩

theorem Live.setGuide_reacts (s : Live) (g : Guide) : Reacts s (s.setGuide g) := ⟨rfl, .refl _⟩

theorem Live.offerEvent_reacts (s : Live) (f : Frame) : Reacts s (s.offerEvent f) := by
  unfold Live.offerEvent
  split <;> exact ⟨rfl, .refl _⟩

theorem Live.event_reacts (s : Live) (c : EventCode) (st : Option Station) (a v : Nat) : Reacts s (s.event c st a v) :=
  s.offerEvent_reacts _

theorem Live.admitDown?_reacts {f : DownFrame} (hf : f.source ≠ .host) (ht : s.admitDown? f = some t) : Reacts s t := by
  unfold Live.admitDown? at ht
  split at ht <;> cases ht
  exact ⟨rfl, .placeDown hf _⟩

theorem Live.offerEvent_seq (f : Frame) : (s.offerEvent f).seq = s.seq := by
  unfold Live.offerEvent; split <;> rfl

@[simp] theorem Live.event_seq (c : EventCode) (st : Option Station) (a v : Nat) : (s.event c st a v).seq = s.seq :=
  Live.offerEvent_seq _

theorem Live.offerEvent_guide (f : Frame) : (s.offerEvent f).guide = s.guide := by
  unfold Live.offerEvent; split <;> rfl

@[simp] theorem Live.event_guide (c : EventCode) (st : Option Station) (a v : Nat) : (s.event c st a v).guide = s.guide :=
  Live.offerEvent_guide _

theorem Live.admitDown?_seq {f : DownFrame} (ht : s.admitDown? f = some t) : t.seq = s.seq := by
  unfold Live.admitDown? at ht
  split at ht <;> cases ht
  rfl

/-! ### The guidance unit -/

/-- An act of the guidance unit: the sequencer's items are as they were too. -/
structure Shows (old s : Live) : Prop extends Reacts old s where
  seq : s.seq = old.seq

theorem Shows.refl (s : Live) : Shows s s := ⟨.refl s, rfl⟩

theorem Shows.trans (h : Shows old s) (k : Shows s t) : Shows old t := ⟨h.toReacts.trans k.toReacts, k.seq.trans h.seq⟩

theorem Shows.foldl {α : Type} {f : Live → α → Live} (hf : ∀ x a, Shows x (f x a)) :
    ∀ (l : List α) (s : Live), Shows s (l.foldl f s)
  | [], s => .refl s
  | a :: l, s => (hf s a).trans (Shows.foldl hf l (f s a))

theorem Live.setGuide_shows (s : Live) (g : Guide) : Shows s (s.setGuide g) := ⟨s.setGuide_reacts g, rfl⟩

theorem Live.event_shows (s : Live) (c : EventCode) (st : Option Station) (a v : Nat) : Shows s (s.event c st a v) :=
  ⟨s.event_reacts c st a v, Live.event_seq c st a v⟩

theorem Live.markLine_shows (s : Live) (i : Fin 4) : Shows s (s.markLine T i) := by
  simp only [Live.markLine]
  split
  · exact .refl s
  · exact s.setGuide_shows _

theorem Live.offerLine_shows (s : Live) (i : Fin 4) : Shows s (s.offerLine T i) := by
  simp only [Live.offerLine]
  split
  · split
    · next t ht => exact Shows.trans ⟨Live.admitDown?_reacts (by simp) ht, Live.admitDown?_seq ht⟩ (t.setGuide_shows _)
    · exact .refl s
  · exact .refl s

theorem Live.render_shows (s : Live) : Shows s (s.render T) := by
  have hmark := Shows.foldl (f := fun x i => x.markLine T i) (fun x i => x.markLine_shows i) fourIndices s
  simp only [Live.render]
  split
  · exact hmark.trans (Shows.foldl (fun x i => x.offerLine_shows i) fourIndices _)
  · exact hmark

theorem Live.allDirty_shows (s : Live) : Shows s s.allDirty := s.setGuide_shows _

theorem Live.setQueue_shows (s : Live) (q : List PromptEntry) : Shows s (s.setQueue T q) := by
  simp only [Live.setQueue]
  split
  · exact s.setGuide_shows _
  · exact ((s.setGuide_shows _).trans (Live.setGuide_shows _ _)).trans (Live.render_shows _)

theorem Live.postPrompt_shows (s : Live) (n : Nat) (o : PromptOrigin) (b : Bool) (ls : List (Source × Scope)) :
    Shows s (s.postPrompt T n o b ls) := by
  have hnext := s.setGuide_shows { s.guide with nextArrival := s.guide.nextArrival + 1 }
  simp only [Live.postPrompt]
  split
  · exact hnext.trans (Live.setQueue_shows _ _)
  · split
    · split
      · exact (hnext.trans (Live.setQueue_shows _ _)).trans (Live.event_shows _ _ _ _ _)
      · exact hnext.trans (Live.event_shows _ _ _ _ _)
    · exact hnext

theorem Live.stepEndRemoval_shows (s : Live) (n : Nat) : Shows s (s.stepEndRemoval T n) := s.setQueue_shows _

theorem Live.guideLaneReset_shows (s : Live) (gone : List FaultEntry) : Shows s (s.guideLaneReset T gone) :=
  ((s.setGuide_shows _).trans (Live.allDirty_shows _)).trans (Live.render_shows _)

/-! ### The sequencer -/

theorem Live.buttonIgnored_reacts (s : Live) (n : Nat) : Reacts s (s.buttonIgnored n) := s.event_reacts _ _ _ _

theorem Live.discardRepeat_reacts (s : Live) : Reacts s s.discardRepeat := by
  unfold Live.discardRepeat
  split
  · exact (s.setSeq_reacts _).trans (Live.buttonIgnored_reacts _ _)
  · exact .refl s

theorem Live.seqRest_reacts (s : Live) (x : SeqState) : Reacts s (s.seqRest x) := s.setSeq_reacts _

theorem Live.seqHold_reacts (s : Live) (st : Station) : Reacts s (s.seqHold st) := s.setSeq_reacts _

theorem Live.seqHalt_reacts (s : Live) : Reacts s (s.seqHalt T) := by
  simp only [Live.seqHalt]
  split
  · exact (s.setSeq_reacts _).trans (Live.event_reacts _ _ _ _ _)
  · exact s.setSeq_reacts _

theorem Live.actRepeat_reacts (s : Live) : Reacts s (s.actRepeat T) := by
  unfold Live.actRepeat
  split
  · split
    · exact s.buttonIgnored_reacts _
    · split
      · split
        · exact (s.postPrompt_shows _ _ _ _).toReacts
        · exact .refl s
      · exact s.setSeq_reacts _
  · exact s.buttonIgnored_reacts _

theorem Live.actPendingRepeat_reacts (s : Live) : Reacts s (s.actPendingRepeat T) := by
  unfold Live.actPendingRepeat
  split
  · exact (s.setSeq_reacts _).trans (Live.actRepeat_reacts _)
  · exact .refl s

theorem Live.pauseNow_reacts (s : Live) : Reacts s s.pauseNow :=
  ((s.seqRest_reacts .paused).trans (Live.setSeq_reacts _ _)).trans (Live.discardRepeat_reacts _)

theorem Live.endStepPrompt_reacts (s : Live) (u : PlanUnit) : Reacts s (s.endStepPrompt T u) := by
  unfold Live.endStepPrompt
  split
  · exact .refl s
  · exact (s.setSeq_reacts _).trans (Live.stepEndRemoval_shows _ _).toReacts
  · exact .refl s

theorem Live.stepDone_reacts (s : Live) : Reacts s (s.stepDone T) := by
  simp only [Live.stepDone]
  split
  · exact .refl s
  · next u _ =>
    have hmoved (q : Seq) : Reacts s ((s.endStepPrompt T u).setSeq q) :=
      (s.endStepPrompt_reacts u).trans (Live.setSeq_reacts _ q)
    split
    · exact (hmoved _).trans (Live.pauseNow_reacts _)
    · exact ((hmoved _).trans (Live.seqRest_reacts _ _)).trans (Live.actPendingRepeat_reacts _)

theorem Live.stepFailed_reacts (s : Live) (st : Station) : Reacts s (s.stepFailed T st) := by
  unfold Live.stepFailed
  split
  · exact s.pauseNow_reacts
  · split
    · exact (s.seqHold_reacts st).trans (Live.discardRepeat_reacts _)
    · exact s.seqHalt_reacts.trans (Live.actPendingRepeat_reacts _)

theorem Live.makeRestart_reacts (s : Live) (x : Restart) : Reacts s (s.makeRestart T x) := by
  simp only [Live.makeRestart]
  split <;> exact (s.seqRest_reacts .running).trans (Live.setSeq_reacts _ _)

theorem Live.judgeRestart_reacts (s : Live) (b x : Restart) : Reacts s (s.judgeRestart T b x) := by
  unfold Live.judgeRestart
  split
  · exact s.seqRest_reacts _
  · split
    · exact s.seqRest_reacts _
    · split
      · exact s.seqHold_reacts _
      · exact s.makeRestart_reacts x

theorem Live.captureBroken_reacts (s : Live) (b : Restart) : Reacts s (s.captureBroken T b) := by
  simp only [Live.captureBroken]
  split
  · exact .refl s
  · exact (s.discardRepeat_reacts.trans (Live.setSeq_reacts _ _)).trans (Live.judgeRestart_reacts _ _ _)

theorem Live.seqCaptureEnd_reacts (s : Live) (r : Roller) (c : Capture) (reason : EndReason) (axle : Nat) :
    Reacts s (s.seqCaptureEnd T r c reason axle) := by
  unfold Live.seqCaptureEnd
  split
  · exact .refl s
  · have hplan := s.setSeq_reacts (s.seq.setPlanCapture r none)
    dsimp only
    split
    · exact hplan.trans (Live.captureBroken_reacts _ _)
    · exact hplan.trans (Live.captureBroken_reacts _ _)
    · split
      · exact hplan.trans (Live.stepDone_reacts _)
      · exact hplan
    · split
      · exact hplan.trans (Live.stepDone_reacts _)
      · exact hplan
    · exact hplan
    · exact hplan
    · split
      · exact (hplan.trans (Live.setSeq_reacts _ _)).trans (Live.stepDone_reacts _)
      · exact hplan.trans (Live.setSeq_reacts _ _)

theorem Live.heldEnds_reacts (s : Live) : Reacts s (s.heldEnds T) := by
  unfold Live.heldEnds
  split
  · exact s.seqRest_reacts _
  · split
    · exact s.seqRest_reacts _
    · split
      · exact s.makeRestart_reacts _
      · exact s.seqRest_reacts _

theorem Live.waitSees_reacts (s : Live) (st : Station) : Reacts s (s.waitSees T st) := by
  simp only [Live.waitSees]
  (repeat' split) <;>
    first
      | exact .refl s
      | exact s.seqRest_reacts _
      | exact s.stepDone_reacts
      | exact s.stepFailed_reacts st
      | exact s.seqHold_reacts st

theorem Live.seqSees_reacts (s : Live) (st : Station) : Reacts s (s.seqSees T st) := by
  unfold Live.seqSees
  split
  · exact s.waitSees_reacts st
  · split
    · exact s.heldEnds_reacts
    · exact .refl s
  · exact .refl s

theorem Live.seqTareEnd_reacts (s : Live) (st : Station) (o : TareOutcome) : Reacts s (s.seqTareEnd T st o) := by
  unfold Live.seqTareEnd
  split
  · split
    · exact s.stepDone_reacts
    · exact s.stepFailed_reacts st
    · split
      · exact s.stepFailed_reacts st
      · exact s.stepDone_reacts
  · exact .refl s

theorem Live.tareAborted_reacts (s : Live) (st : Station) (v : Int) : Reacts s (s.tareAborted T st v) :=
  (s.offerEvent_reacts _).trans (Live.seqTareEnd_reacts _ _ _)

end
end Sys2Proof.Machine
end

section
/-! ## What a raise does (R154, R157): `Raised`

A STOP or LOCK entry brings the sequencer to a stand before the stations are given their orders, and nothing that the stations then do
sets it going again: `StandsThrough` names the three ways in which they reach it. -/

namespace Sys2Proof.Machine

section
variable {T : Tables} {s t : Live}

/-! ### A sequencer brought to a stand (R134, R135) -/

/-- A property of the sequencer and the fault level that survives what a station's change of state, the end of a capture by a hold or
a stop, and the abort of a tare do to the sequencer. -/
structure StandsThrough (T : Tables) (P : Live → Prop) : Prop where
  same : ∀ {s t : Live}, t.seq = s.seq → t.faults = s.faults → P s → P t
  sees : ∀ {s : Live} (st : Station), P s → P (s.seqSees T st)
  captureEnd : ∀ {s : Live} (r : Roller) (c : Capture) (axle : Nat), P s → P (s.seqCaptureEnd T r c .fault axle)
  tareEnd : ∀ {s : Live} (st : Station), P s → P (s.seqTareEnd T st .aborted)

/-- The lane is at LOCK and the sequencer LOCKED (R135). -/
def Live.lockedDown (s : Live) : Prop := s.level = 3 ∧ s.seq.state = .locked

/-- The lane is at STOP or LOCK and the sequencer does not run: it rests, or waits inside a unit with a pause pending (R134). -/
def Live.stoppedDown (s : Live) : Prop :=
  2 ≤ s.level ∧ s.seq.state ≠ .running
    ∧ (s.seq.state = .waiting → s.seq.pausePending = true ∧ s.seq.inside = true)

theorem Live.level_congr (h : t.faults = s.faults) : t.level = s.level := by simp [Live.level, h]

theorem Live.level_le (s : Live) : s.level ≤ 3 := by
  unfold Live.level faultLevel
  split
  · decide
  · split
    · decide
    · split <;> decide

theorem Live.seqSees_of_locked (h : s.seq.state = .locked) (st : Station) : s.seqSees T st = s := by
  simp [Live.seqSees, h]

theorem Live.seqTareEnd_of_not_waiting (h : s.seq.state ≠ .waiting) (st : Station) (o : TareOutcome) :
    s.seqTareEnd T st o = s := by simp [Live.seqTareEnd, h]

@[simp] theorem Seq.setPlanCapture_state (r : Roller) (x : Option PlanCapture) (q : Seq) :
    (q.setPlanCapture r x).state = q.state := by cases r <;> rfl

@[simp] theorem Seq.setPlanCapture_pausePending (r : Roller) (x : Option PlanCapture) (q : Seq) :
    (q.setPlanCapture r x).pausePending = q.pausePending := by cases r <;> rfl

@[simp] theorem Seq.setPlanCapture_wait (r : Roller) (x : Option PlanCapture) (q : Seq) :
    (q.setPlanCapture r x).wait = q.wait := by cases r <;> rfl

/-- A broken plan capture under STOP or LOCK leaves the sequencer as its level has it (R136). -/
theorem Live.captureBroken_state (b : Restart) (hlevel : 2 ≤ s.level) : (s.captureBroken T b).seq.state =
    if s.seq.state = .standby then .standby else if s.level = 3 then .locked else .paused := by
  have hfaults : s.discardRepeat.faults = s.faults := s.discardRepeat_reacts.faults
  simp only [Live.captureBroken]
  split
  · next h => exact h
  · have hjudged : (s.discardRepeat.setSeq { s.discardRepeat.seq with
          mods := none, wait := none, awaitTimer := none, restart := some (earlierRestart s.seq.restart b)
          armedSkip := none, pausePending := false }).level = s.level := Live.level_congr hfaults
    simp only [Live.judgeRestart, hjudged]
    split
    · rfl
    · have hstop : s.level = 2 := by have := s.level_le; omega
      simp [hstop, Live.seqRest, Live.setSeq]

theorem Live.seqCaptureEnd_fault (r : Roller) (c : Capture) (axle : Nat) : s.seqCaptureEnd T r c .fault axle = s ∨
    ∃ b, s.seqCaptureEnd T r c .fault axle = (s.setSeq (s.seq.setPlanCapture r none)).captureBroken T b := by
  unfold Live.seqCaptureEnd
  split
  · exact .inl rfl
  · exact .inr ⟨_, rfl⟩

theorem lockedDown_stands : StandsThrough T Live.lockedDown where
  same hseq hfaults h := ⟨(Live.level_congr hfaults).trans h.1, by rw [hseq]; exact h.2⟩
  sees st h := by rw [Live.seqSees_of_locked h.2]; exact h
  captureEnd {s} r c axle h := by
    rcases Live.seqCaptureEnd_fault (T := T) (s := s) r c axle with heq | ⟨b, heq⟩
    · rw [heq]; exact h
    · have hlevel : (s.setSeq (s.seq.setPlanCapture r none)).level = 3 := h.1
      have hfaults := (Live.captureBroken_reacts (T := T) (s.setSeq (s.seq.setPlanCapture r none)) b).faults
      rw [heq]
      refine ⟨(Live.level_congr hfaults).trans hlevel, ?_⟩
      rw [Live.captureBroken_state b (by omega), hlevel]
      simp [Live.setSeq, h.2]
  tareEnd st h := by rw [Live.seqTareEnd_of_not_waiting (by rw [h.2]; decide)]; exact h

/-! Under a pending pause a step that ends leaves the sequencer PAUSED. -/

theorem Live.discardRepeat_state : s.discardRepeat.seq.state = s.seq.state := by
  unfold Live.discardRepeat
  split
  · simp [Live.buttonIgnored, Live.setSeq]
  · rfl

theorem Live.pauseNow_state : s.pauseNow.seq.state = .paused := by
  simp only [Live.pauseNow, Live.discardRepeat_state]
  rfl

theorem Live.endStepPrompt_pausePending (u : PlanUnit) : (s.endStepPrompt T u).seq.pausePending = s.seq.pausePending := by
  unfold Live.endStepPrompt
  split
  · rfl
  · rw [(Live.stepEndRemoval_shows _ _).seq]; rfl
  · rfl

theorem Live.stepDone_of_pausePending (h : s.seq.pausePending = true) :
    s.stepDone T = s ∨ (s.stepDone T).seq.state = .paused := by
  simp only [Live.stepDone]
  split
  · exact .inl rfl
  · next u _ =>
    have hpend : (((s.endStepPrompt T u).setSeq { (s.endStepPrompt T u).seq with pointer := u.step + 1, mods := none }).seq).pausePending
        = true := (s.endStepPrompt_pausePending u).trans h
    rw [if_pos hpend]
    exact .inr Live.pauseNow_state

theorem Live.stepFailed_of_pausePending (h : s.seq.pausePending = true) (st : Station) :
    (s.stepFailed T st).seq.state = .paused := by
  rw [Live.stepFailed, if_pos h]
  exact Live.pauseNow_state

/-- What a station's change does to a sequencer that waits inside a unit with a pause pending: nothing, or it is PAUSED. -/
theorem Live.waitSees_of_inside (hpend : s.seq.pausePending = true) (hin : s.seq.inside = true) (st : Station) :
    s.waitSees T st = s ∨ (s.waitSees T st).seq.state = .paused := by
  simp only [Live.waitSees]
  have hdone := Live.stepDone_of_pausePending (T := T) hpend
  have hfailed := Live.stepFailed_of_pausePending (T := T) hpend st
  cases hw : s.seq.wait with
  | none => exact .inl rfl
  | some w =>
    cases w with
    | busy | seat | await => simp [Seq.inside, hw] at hin
    | capture | tare => exact .inl rfl
    | spin p =>
      dsimp only
      split
      · split
        · exact hdone
        · split
          · exact .inr hfailed
          · exact .inl rfl
      · exact .inl rfl
    | release p =>
      dsimp only
      split
      · split
        · exact .inr hfailed
        · split
          · exact .inl rfl
          · exact hdone
      · exact .inl rfl

/-- The end of a hold under STOP or LOCK (R133). -/
theorem Live.heldEnds_state (h : 2 ≤ s.level) : (s.heldEnds T).seq.state = .locked ∨ (s.heldEnds T).seq.state = .paused := by
  unfold Live.heldEnds
  split
  · exact .inl rfl
  · have hstop : s.level = 2 := by have := s.level_le; omega
    rw [if_pos hstop]
    exact .inr rfl

/-- A sequencer that rests stays stopped. -/
theorem Live.stoppedDown_of_state {x : SeqState} (hlevel : 2 ≤ s.level) (h : s.seq.state = x) (hr : x ≠ .running)
    (hw : x ≠ .waiting) : s.stoppedDown :=
  ⟨hlevel, h ▸ hr, fun hwait => absurd (h.symm.trans hwait) hw⟩

theorem stoppedDown_stands : StandsThrough T Live.stoppedDown where
  same hseq hfaults h := by
    unfold Live.stoppedDown at h ⊢
    rw [Live.level_congr hfaults, hseq]
    exact h
  sees {s} st h := by
    obtain ⟨hlevel, hrun, hpend⟩ := h
    have hlevel' : 2 ≤ (s.seqSees T st).level := by rwa [Live.level_congr (s.seqSees_reacts st).faults]
    unfold Live.seqSees at hlevel' ⊢
    split
    · next hw =>
      obtain ⟨hp, hin⟩ := hpend hw
      rcases Live.waitSees_of_inside (T := T) hp hin st with heq | hpaused
      · rw [heq]; exact ⟨hlevel, hrun, hpend⟩
      · simp only [hw] at hlevel'
        exact Live.stoppedDown_of_state hlevel' hpaused (by decide) (by decide)
    · next hheld =>
      simp only [hheld] at hlevel'
      split
      · next hc =>
        rw [if_pos hc] at hlevel'
        rcases Live.heldEnds_state (T := T) hlevel with hl | hp
        · exact Live.stoppedDown_of_state hlevel' hl (by decide) (by decide)
        · exact Live.stoppedDown_of_state hlevel' hp (by decide) (by decide)
      · exact ⟨hlevel, hrun, hpend⟩
    · exact ⟨hlevel, hrun, hpend⟩
  captureEnd {s} r c axle h := by
    rcases Live.seqCaptureEnd_fault (T := T) (s := s) r c axle with heq | ⟨b, heq⟩
    · rw [heq]; exact h
    · obtain ⟨hlevel, -, -⟩ := h
      have hset : 2 ≤ (s.setSeq (s.seq.setPlanCapture r none)).level := hlevel
      have hfaults := (Live.captureBroken_reacts (T := T) (s.setSeq (s.seq.setPlanCapture r none)) b).faults
      have hlevel' : 2 ≤ ((s.setSeq (s.seq.setPlanCapture r none)).captureBroken T b).level := by
        rwa [Live.level_congr hfaults]
      have hstate := Live.captureBroken_state (T := T) b hset
      rw [heq]
      split at hstate
      · exact Live.stoppedDown_of_state hlevel' hstate (by decide) (by decide)
      · split at hstate
        · exact Live.stoppedDown_of_state hlevel' hstate (by decide) (by decide)
        · exact Live.stoppedDown_of_state hlevel' hstate (by decide) (by decide)
  tareEnd {s} st h := by
    obtain ⟨hlevel, hrun, hpend⟩ := h
    have hlevel' : 2 ≤ (s.seqTareEnd T st .aborted).level := by
      rwa [Live.level_congr (s.seqTareEnd_reacts st .aborted).faults]
    unfold Live.seqTareEnd at hlevel' ⊢
    split
    · next hc =>
      obtain ⟨hp, -⟩ := hpend hc.1
      simp only [if_pos hc] at hlevel'
      dsimp only
      split
      · next hf =>
        rw [if_pos hf] at hlevel'
        exact Live.stoppedDown_of_state hlevel' (Live.stepFailed_of_pausePending hp st) (by decide) (by decide)
      · next hf =>
        rw [if_neg hf] at hlevel'
        rcases Live.stepDone_of_pausePending (T := T) hp with heq | hpaused
        · rw [heq]; exact ⟨hlevel, hrun, hpend⟩
        · exact Live.stoppedDown_of_state hlevel' hpaused (by decide) (by decide)
    · exact ⟨hlevel, hrun, hpend⟩

/-! ### Orders of the stations leave a stand (R71, R72) -/

@[simp] theorem Live.offerDrive_seq (r : Roller) (b : Bool) : (s.offerDrive T r b).seq = s.seq := by
  simp only [Live.offerDrive]
  split
  · exact Live.setHeld_seq _ _ _
  · split
    · next ht => exact Live.admitDown?_seq ht
    · exact Live.setHeld_seq _ _ _

@[simp] theorem Live.updOpen_seq (f : VehicleRecord → VehicleRecord) : (s.updOpen f).seq = s.seq := by
  unfold Live.updOpen; split <;> rfl

@[simp] theorem Live.updAxle_seq (i : Nat) (f : AxleRecord → AxleRecord) : (s.updAxle i f).seq = s.seq :=
  Live.updOpen_seq _

@[simp] theorem Live.captureWrite_seq (h : Roller) (c : Capture) (e : EndReason) (r : Roller) :
    (s.captureWrite T h c e r).seq = s.seq := by
  unfold Live.captureWrite
  split
  · unfold Live.writeBrake; split
    · exact Live.updAxle_seq _ _
    · rfl
  · unfold Live.markBrake; split
    · exact Live.updAxle_seq _ _
    · rfl

variable {P : Live → Prop}

theorem StandsThrough.enter (h : StandsThrough T P) (hs : P s) (st : Station) (x : StationState) : P (s.enter T st x) :=
  h.sees st (h.same (by simp) (by simp) hs)

theorem StandsThrough.setRoller (h : StandsThrough T P) (hs : P s) (r : Roller) (x : RollerStation) : P (s.setRoller r x) :=
  h.same (by simp) (by simp) hs

theorem StandsThrough.offerDrive (h : StandsThrough T P) (hs : P s) (r : Roller) (b : Bool) : P (s.offerDrive T r b) :=
  h.same (by simp) (Live.offerDrive_quiet (.refl s) r b).faults hs

theorem StandsThrough.enterStill (h : StandsThrough T P) (hs : P s) (r : Roller) (x : StationState) : P (s.enterStill T r x) :=
  h.enter (h.setRoller hs _ _) _ _

theorem StandsThrough.faultDriven (h : StandsThrough T P) (hs : P s) (r : Roller) : P (s.faultDriven T r) :=
  h.enterStill (h.offerDrive hs _ _) _ _

theorem StandsThrough.enterReleasing (h : StandsThrough T P) (hs : P s) (r : Roller) : P (s.enterReleasing T r) :=
  h.enter (h.setRoller (h.offerDrive hs _ _) _ _) _ _

theorem StandsThrough.captureLeave (h : StandsThrough T P) (hs : P s) (how : Leaving) (r : Roller) :
    P (s.captureLeave T how r) := by
  cases how
  · exact h.enter (h.setRoller hs _ _) _ _
  · exact h.enterReleasing hs r
  · exact h.faultDriven hs r

theorem StandsThrough.foldl {α : Type} {f : Live → α → Live} (hf : ∀ {x} a, P x → P (f x a)) :
    ∀ (l : List α) {x : Live}, P x → P (l.foldl f x)
  | [], _, hx => hx
  | a :: l, _, hx => StandsThrough.foldl hf l (hf a hx)

/-- A capture that ends by a hold or a stop. -/
theorem StandsThrough.endCapture (h : StandsThrough T P) (hs : P s) (holder : Roller) (how : Roller → Leaving) :
    P (s.endCapture T holder .fault how) := by
  unfold Live.endCapture
  split
  · next c _ =>
    refine h.setRoller (h.captureEnd _ _ _ ?_) _ _
    refine StandsThrough.foldl (P := P) (f := fun x r => x.captureEvent .fault r) (fun r hx => h.same (Live.event_seq _ _ _ _)
      (Live.event_quiet (.refl _) _ _ _ _).faults hx) _ ?_
    refine StandsThrough.foldl (P := P) (f := fun x r => x.captureLeave T (how r) r) (fun r hx => h.captureLeave hx (how r) r) _ ?_
    refine StandsThrough.foldl (P := P) (f := fun x r => x.captureWrite T holder c .fault r) (fun r hx =>
      h.same (Live.captureWrite_seq _ _ _ _) (Live.captureWrite_quiet (.refl _) _ _ _ _).faults hx) _ ?_
    exact h.setRoller hs _ _
  · exact hs

theorem StandsThrough.tareAborted (h : StandsThrough T P) (hs : P s) (st : Station) (v : Int) : P (s.tareAborted T st v) :=
  h.tareEnd st (h.same (Live.offerEvent_seq _) (Live.offerEvent_quiet (.refl _) _).faults hs)

theorem StandsThrough.dropTare (h : StandsThrough T P) (hs : P s) (st : Station) : P (s.dropTare st) :=
  h.same (by cases st <;> rfl) (Live.dropTare_quiet (.refl _) st).faults hs

theorem StandsThrough.holdStation (h : StandsThrough T P) (hs : P s) (held : List Station) (st : Station) :
    P (s.holdStation T held st) := by
  unfold Live.holdStation
  split
  · exact hs
  · split
    · exact h.endCapture hs _ _
    · exact h.faultDriven hs _
  · exact h.faultDriven hs _
  · exact h.faultDriven hs _
  · exact h.faultDriven hs _
  · exact h.tareAborted (h.enterStill (h.dropTare hs _) _ _) _ _
  · exact h.enterStill hs _ _
  · exact h.tareAborted (h.enter (h.dropTare hs _) _ _) _ _
  · have hcleared : P { s with ps := { s.ps with crossing := none } } := h.same (s := s) rfl rfl hs
    exact h.enter hcleared _ _

theorem StandsThrough.stopStation (h : StandsThrough T P) (hs : P s) (r : Roller) : P (s.stopStation T r) := by
  unfold Live.stopStation
  split
  · exact h.enterReleasing hs r
  · exact h.enterReleasing hs r
  · split
    · exact h.endCapture hs _ _
    · exact h.enterReleasing hs r
  · exact hs

theorem StandsThrough.holdStations (h : StandsThrough T P) (hs : P s) (held : List Station) : P (s.holdStations T held) :=
  StandsThrough.foldl (P := P) (f := Live.holdStation T held) (fun st hx => h.holdStation hx held st) held hs

theorem StandsThrough.stopStations (h : StandsThrough T P) (hs : P s) : P (s.stopStations T) :=
  StandsThrough.foldl (P := P) (f := Live.stopStation T) (fun r hx => h.stopStation hx r) [.ra, .rb] hs

/-! ### The orders of a new entry (R157) -/

theorem faultLevel_of_lock {l : List FaultEntry} (h : l.any (·.action == .lock) = true) : faultLevel l = 3 := by
  simp only [faultLevel, h, if_true]

theorem faultLevel_of_stop {l : List FaultEntry} (h : l.any (·.action == .stop) = true) : 2 ≤ faultLevel l := by
  simp only [faultLevel, h, if_true]
  split <;> decide

/-- A lock order brings a sequencer under LOCK to a stand (R135). -/
theorem Live.lockOrder_lockedDown (h : s.level = 3) : s.lockOrder.lockedDown := by
  refine ⟨?_, rfl⟩
  rw [Live.level_congr (t := s.lockOrder) (s := s) (Live.lockOrder_quiet (.refl s)).faults, h]

/-- A pause order brings a sequencer under STOP or LOCK to a stand (R134). -/
theorem Live.pauseOrder_stoppedDown (h : 2 ≤ s.level) : s.pauseOrder.stoppedDown := by
  unfold Live.pauseOrder
  split
  · next hin =>
    have hwaits : s.seq.state = .waiting := by
      simp only [Seq.inside, Bool.and_eq_true, beq_iff_eq] at hin
      exact hin.1
    refine ⟨h, ?_, fun _ => ⟨rfl, hin⟩⟩
    change s.seq.state ≠ .running
    rw [hwaits]; decide
  · split
    · exact Live.stoppedDown_of_state (s := s.seqRest .paused) (x := .paused) h rfl (by decide) (by decide)
    · exact Live.stoppedDown_of_state (s := s.seqRest .paused) (x := .paused) h rfl (by decide) (by decide)
    · exact Live.stoppedDown_of_state (s := s.seqRest .paused) (x := .paused) h rfl (by decide) (by decide)
    all_goals next hstate => exact Live.stoppedDown_of_state h hstate (by decide) (by decide)

theorem mem_heldBy {e : FaultEntry} {st : Station} : st ∈ heldBy T e ↔ T.present st = true ∧ e.covers T st = true := by
  simp only [heldBy, List.mem_filter, Bool.and_eq_true]
  exact ⟨fun h => h.2, fun h => ⟨by cases st <;> decide, h⟩⟩

theorem Live.holdStations_faulted {held : List Station} {st : Station} (h : st ∈ held) :
    (s.holdStations T held).stationState st = .faulted :=
  Live.holdStations_fold held held s st h (.inl h)

/-! ### A raise -/

variable {src : Source} {scope : Scope} {axle detail : Nat}

theorem find?_none_iff_any {l : List FaultEntry} : l.find? (·.is src scope) = none ↔ l.any (·.is src scope) = false := by
  simp

/-- The list after a raise that makes an entry. -/
theorem faultsAfter_of_new {l : List FaultEntry} {a : Action} (hnew : l.any (·.is src scope) = false)
    (ha : T.actionFor src = a) (hi : a ≠ .ignore) (hn : a ≠ .note) :
    faultsAfter T src scope l = l ++ [newEntry src scope a (T.promptFor src)] := by
  subst ha
  unfold faultsAfter
  rw [hnew]
  cases h : T.actionFor src <;> simp_all

/-- Without an entry made, the list keeps its length. -/
theorem faultsAfter_length {l : List FaultEntry}
    (h : ∀ a, makesEntry T src scope l a → a = .ignore ∨ a = .note) :
    (faultsAfter T src scope l).length = l.length := by
  unfold faultsAfter
  split
  · simp
  · next hnew =>
    rcases h (T.actionFor src) ⟨by simpa using hnew, rfl⟩ with ha | ha <;> simp [ha]

theorem Live.makeEntry_posts (e : FaultEntry) (s : Live) :
    Shows (({ s with faults := s.faults ++ [e] }).giveOrders T e) (s.makeEntry T e) := by
  simp only [Live.makeEntry]
  split
  · exact Live.postPrompt_shows _ _ _ _ _
  · exact .refl _

theorem Live.makeEntry_quiet (e : FaultEntry) (s : Live) : Quiet { s with faults := s.faults ++ [e] } (s.makeEntry T e) := by
  have horders := Live.giveOrders_quiet (T := T) (.refl { s with faults := s.faults ++ [e] }) e
  simp only [Live.makeEntry]
  split
  · exact Live.postPrompt_quiet horders _ _ _ _
  · exact horders

/-- The repeat raise of an entry (R154). -/
theorem Live.raiseWith_of_entry {e : FaultEntry} (h : s.faults.find? (·.is src scope) = some e) :
    s.raiseWith T src scope axle detail =
      (s.offerEvent (faultEvent src scope e.action true axle detail)).markPresent src scope := by
  simp only [Live.raiseWith, h]

/-- A raise that makes an entry (R154). -/
theorem Live.raiseWith_of_new {a : Action} (hnew : s.faults.find? (·.is src scope) = none) (ha : T.actionFor src = a)
    (hi : a ≠ .ignore) (hn : a ≠ .note) : s.raiseWith T src scope axle detail =
      (s.makeEntry T (newEntry src scope a (T.promptFor src))).offerEvent (faultEvent src scope a false axle detail) := by
  subst ha
  simp only [Live.raiseWith, hnew]

/-- A repeat raise, as `Raised` has it: the entry is marked, the EVENT offered, and nothing else. -/
theorem Live.raised_of_entry {e : FaultEntry} (h : s.faults.find? (·.is src scope) = some e) :
    Raised T src scope axle detail s (s.raiseWith T src scope axle detail) := by
  have hany : s.faults.any (·.is src scope) = true := by
    rw [List.any_eq_true]
    exact ⟨e, List.mem_of_find?_eq_some h, List.find?_some h⟩
  have hnone (a : Action) : ¬ makesEntry T src scope s.faults a := fun hm => by rw [makesEntry, hany] at hm; cases hm.1
  have hreported : reported T src scope s.faults = some (e.action, true) := by simp only [reported, h]
  have hcomm (f : Frame) : (s.offerEvent f).markPresent src scope =
      ({ s with faults := faultsAfter T src scope s.faults }).offerEvent f := by
    unfold Live.offerEvent faultsAfter
    rw [hany]
    split <;> rfl
  rw [Live.raiseWith_of_entry h, hcomm]
  have hstill := Live.offerEvent_reacts { s with faults := faultsAfter T src scope s.faults }
    (faultEvent src scope e.action true axle detail)
  refine ⟨Live.offerEvent_quiet (.refl _) _, fun _ => ⟨⟨hstill.ps, hstill.ra, hstill.rb⟩, Live.offerEvent_seq _,
    Live.offerEvent_guide _, hstill.records⟩, fun hm => absurd hm (hnone _), fun hm => absurd hm (hnone _),
    fun hm => absurd hm (hnone _), fun a again hr => ?_, fun hr => ?_⟩
  · rw [hreported] at hr
    cases hr
    exact Live.offerEvent_last _ _
  · rw [hreported] at hr; cases hr

/-- A raise that makes an entry, as `Raised` has it. -/
theorem Live.raised_of_new {a : Action} (hnew : s.faults.find? (·.is src scope) = none) (ha : T.actionFor src = a)
    (hi : a ≠ .ignore) (hn : a ≠ .note) : Raised T src scope axle detail s (s.raiseWith T src scope axle detail) := by
  have hafter := faultsAfter_of_new (find?_none_iff_any.1 hnew) ha hi hn
  have hreported : reported T src scope s.faults = some (a, false) := by
    simp [reported, hnew, ha, hi]
  have hquiet : Quiet { s with faults := faultsAfter T src scope s.faults } (s.raiseWith T src scope axle detail) := by
    rw [hafter, Live.raiseWith_of_new hnew ha hi hn]
    exact Live.offerEvent_quiet (Live.makeEntry_quiet _ s) _
  have hshows : Shows (({ s with faults := s.faults ++ [newEntry src scope a (T.promptFor src)] }).giveOrders T
      (newEntry src scope a (T.promptFor src))) (s.raiseWith T src scope axle detail) := by
    rw [Live.raiseWith_of_new hnew ha hi hn]
    exact (Live.makeEntry_posts _ s).trans ⟨Live.offerEvent_reacts _ _, Live.offerEvent_seq _⟩
  have hstation := hshows.still.stationState
  refine ⟨hquiet, fun hlen => ?_, fun hm => ?_, fun hm => ?_, fun hm st hp hs => ?_, fun b again hr => ?_, fun hr => ?_⟩
  · rw [hquiet.faults, hafter] at hlen
    simp at hlen
  · obtain rfl : a = .stop := ha.symm.trans hm.2
    have hstop : 2 ≤ ({ s with faults := s.faults ++ [newEntry src scope .stop (T.promptFor src)] } : Live).level :=
      faultLevel_of_stop (by simp [newEntry])
    refine ⟨fun r => ?_, ?_⟩
    · rw [Live.roller_state, hstation]
      exact Live.stopStations_undriven _ r
    · rw [hshows.seq]
      obtain ⟨-, hrun, -⟩ := stoppedDown_stands.stopStations (T := T) (Live.pauseOrder_stoppedDown hstop)
      exact hrun
  · obtain rfl : a = .lock := ha.symm.trans hm.2
    have hlock : ({ s with faults := s.faults ++ [newEntry src scope .lock (T.promptFor src)] } : Live).level = 3 :=
      faultLevel_of_lock (by simp [newEntry])
    refine ⟨fun st hp => ?_, ?_⟩
    · rw [hstation]
      exact Live.holdStations_faulted (mem_heldBy.2 ⟨hp, hp⟩)
    · rw [hshows.seq]
      exact (lockedDown_stands.holdStations (T := T) (Live.lockOrder_lockedDown hlock) _).2
  · obtain rfl : a = .hold := ha.symm.trans hm.2
    rw [hstation]
    refine Live.holdStations_faulted (mem_heldBy.2 ⟨hp, ?_⟩)
    rcases hs with rfl | rfl <;> simp [FaultEntry.covers, newEntry, hp]
  · rw [hreported] at hr
    cases hr
    rw [Live.raiseWith_of_new hnew ha hi hn]
    exact Live.offerEvent_last _ _
  · rw [hreported] at hr; cases hr

/-- A raise that makes no entry where there is none: NOTE sends an EVENT, IGNORE does nothing. -/
theorem Live.raised_of_unlisted (hnew : s.faults.find? (·.is src scope) = none)
    (ha : T.actionFor src = .ignore ∨ T.actionFor src = .note) :
    Raised T src scope axle detail s (s.raiseWith T src scope axle detail) := by
  have hafter : faultsAfter T src scope s.faults = s.faults := by
    unfold faultsAfter
    rw [find?_none_iff_any.1 hnew]
    rcases ha with ha | ha <;> simp [ha]
  have hno (a : Action) (h : a = .stop ∨ a = .lock ∨ a = .hold) : ¬ makesEntry T src scope s.faults a := fun hm => by
    rw [hm.2] at ha
    rcases h with rfl | rfl | rfl <;> simp at ha
  have hreacts : Shows s (s.raiseWith T src scope axle detail) ∧ (s.raiseWith T src scope axle detail).guide = s.guide := by
    simp only [Live.raiseWith, hnew]
    rcases ha with ha | ha <;> rw [ha]
    · exact ⟨.refl s, rfl⟩
    · exact ⟨⟨s.offerEvent_reacts _, Live.offerEvent_seq _⟩, Live.offerEvent_guide _⟩
  refine ⟨?_, fun _ => ⟨hreacts.1.still, hreacts.1.seq, hreacts.2, hreacts.1.records⟩, fun hm => absurd hm (hno _ (.inl rfl)),
    fun hm => absurd hm (hno _ (.inr (.inl rfl))), fun hm => absurd hm (hno _ (.inr (.inr rfl))), fun a again hr => ?_, fun hr => ?_⟩
  · rw [hafter]
    simp only [Live.raiseWith, hnew]
    rcases ha with ha | ha <;> rw [ha]
    · exact .refl s
    · exact Live.offerEvent_quiet (.refl s) _
  · simp only [reported, hnew] at hr
    rcases ha with ha | ha <;> simp only [ha] at hr
    · simp at hr
    · simp only [reduceCtorEq, if_false, Option.some.injEq, Prod.mk.injEq] at hr
      obtain ⟨rfl, rfl⟩ := hr
      simp only [Live.raiseWith, hnew, ha]
      exact Live.offerEvent_last _ _
  · simp only [reported, hnew] at hr
    rcases ha with ha | ha <;> simp only [ha] at hr
    · simp only [Live.raiseWith, hnew, ha]
    · simp at hr

/-- Every raise does what `Raised` says: it finds an entry, makes one, or makes none. -/
theorem Live.raiseWith_raised (T : Tables) (s : Live) (src : Source) (scope : Scope) (axle detail : Nat) :
    Raised T src scope axle detail s (s.raiseWith T src scope axle detail) := by
  cases hfind : s.faults.find? (·.is src scope) with
  | some e => exact Live.raised_of_entry hfind
  | none =>
    by_cases ha : T.actionFor src = .ignore ∨ T.actionFor src = .note
    · exact Live.raised_of_unlisted hfind ha
    · rw [not_or] at ha
      exact Live.raised_of_new hfind rfl ha.1 ha.2

theorem Live.raise_lane_raised (T : Tables) (s : Live) (src : Source) (detail : Nat) :
    Raised T src .lane 0 detail s (s.raise T src .lane detail) := Live.raiseWith_raised T s src .lane 0 detail

end
end Sys2Proof.Machine
end

section
/-! ## The bad-frame window (R4, R5; O10) -/

namespace Sys2Proof.Machine

theorem execBadFrame_of_bad {s : State} {port : Port} {bytes : List Byte} (h : s.awake) (hb : bytesBad port bytes = true) :
    exec (.badFrame port bytes) s = .next (s.withLive (s.live.badFrame s.tables port)) := by
  change Host.Outcome.next (s.onLive _) = _
  rw [State.onLive_awake _ h, if_pos hb]

theorem execBadFrameWindowEnd_of_due {s : State} (h : s.awake) (hdue : 1000 ≤ s.live.chain.windowTimer) :
    exec .badFrameWindowEnd s = .next (s.withLive (s.live.windowEnds s.tables)) := by
  change Host.Outcome.next (s.onLive _) = _
  rw [State.onLive_awake _ h, if_pos (show Config.badFrameWindow ≤ _ from hdue)]

/-- Settles O10, by whether the count becomes equal to the limit, and whether both counts are below it at the end of the window. -/
theorem badFramesAreCountedInAWindow : Obligations.BadFramesAreCountedInAWindow := by
  intro s port bytes hawake
  refine ⟨fun hb hne => ?_, fun hb heq => ?_, fun hgood => ?_, rfl, rfl, fun hdue hup hdown => ?_, fun hdue hreached => ?_,
    fun hearly => ?_⟩
  · rw [execBadFrame_of_bad hawake hb, Live.badFrame, if_neg hne]
  · refine ⟨s.live.badFrame s.tables port, execBadFrame_of_bad hawake hb, ?_⟩
    simp only [Live.badFrame, if_pos heq]
    exact Live.raise_lane_raised _ _ _ _
  · change Host.Outcome.next (s.onLive _) = _
    rw [State.onLive_awake _ hawake, hgood]
    rfl
  · rw [execBadFrameWindowEnd_of_due hawake hdue]
    simp only [Live.windowEnds, if_pos (And.intro hup hdown)]
    rfl
  · rw [execBadFrameWindowEnd_of_due hawake hdue]
    simp only [Live.windowEnds]
    rw [if_neg (by omega)]
    rfl
  · change Host.Outcome.next (s.onLive _) = _
    rw [State.onLive_awake _ hawake, if_neg (by simpa [Config.badFrameWindow] using hearly)]
    rfl

end Sys2Proof.Machine
end

section
/-! ## Loads of the table store (R30 to R36, R53, R55; O25, O27) -/

namespace Sys2Proof.Machine

section
variable {T before : Tables} {old s t : Live}

/-! ### The limit re-read (R5) -/

theorem mem_faultsAfter_again {src : Source} {scope : Scope} (hc : conditioned src = true) {l : List FaultEntry} {e : FaultEntry}
    (he : e ∈ faultsAfter T src scope l) (his : e.is src scope = true) :
    e ∈ faultsAfter T src scope (faultsAfter T src scope l) := by
  have hpresent : e.present = true := by
    unfold faultsAfter at he
    split at he
    · obtain ⟨a, -, rfl⟩ := List.mem_map.1 he
      by_cases ha : a.is src scope = true
      · simp [ha, hc]
      · simp only [ha, Bool.false_and, Bool.false_eq_true, if_false] at his
    · next hno =>
      have hold : e ∉ l := fun hm => hno (List.any_eq_true.2 ⟨e, hm, his⟩)
      split at he
      · exact absurd he hold
      · exact absurd he hold
      · rcases List.mem_append.1 he with hm | hm
        · exact absurd hm hold
        · rw [List.mem_singleton.1 hm]; exact hc
  have hany : (faultsAfter T src scope l).any (·.is src scope) = true := List.any_eq_true.2 ⟨e, he, his⟩
  rw [faultsAfter, if_pos hany]
  exact List.mem_map.2 ⟨e, he, by cases e; simp_all⟩

/-- What the acts that follow a raise of LINK_NOISE leave of it: the condition, its entry, the frames offered, and the read
cursor. -/
structure NoiseStays (old s : Live) : Prop where
  noise : s.chain.noise = old.chain.noise
  entry : ∀ e ∈ old.faults, e.is .linkNoise .lane = true → e ∈ s.faults
  up : UpGrows old s
  cursor : s.mgmt.tableCursor = old.mgmt.tableCursor

theorem NoiseStays.refl (s : Live) : NoiseStays s s := ⟨rfl, fun _ h _ => h, .refl s, rfl⟩

theorem NoiseStays.trans (h : NoiseStays old s) (k : NoiseStays s t) : NoiseStays old t :=
  ⟨k.noise.trans h.noise, fun e he hi => k.entry e (h.entry e he hi) hi, h.up.trans k.up, k.cursor.trans h.cursor⟩

theorem NoiseStays.foldl {α : Type} {f : Live → α → Live} (hf : ∀ x a, NoiseStays x (f x a)) :
    ∀ (l : List α) (s : Live), NoiseStays s (l.foldl f s)
  | [], s => .refl s
  | a :: l, s => (hf s a).trans (NoiseStays.foldl hf l (f s a))

theorem Quiet.tableCursor (h : Quiet old s) : s.mgmt.tableCursor = old.mgmt.tableCursor := by
  have hcursor := congrArg Mgmt.tableCursor h.mgmt
  exact hcursor

theorem Quiet.noiseStays (h : Quiet old s) : NoiseStays old s :=
  ⟨h.bad.2.2.2, fun e he _ => by rw [h.faults]; exact he, h.up, h.tableCursor⟩

theorem Live.endCondition_noiseStays (s : Live) {src : Source} (hs : src ≠ .linkNoise) (scope : Scope) :
    NoiseStays s (s.endCondition src scope) := by
  refine ⟨rfl, fun e he hi => List.mem_map.2 ⟨e, he, ?_⟩, .same rfl rfl, rfl⟩
  have hother : e.is src scope = false := by
    simp only [FaultEntry.is, Bool.and_eq_true, beq_iff_eq] at hi
    simp [FaultEntry.is, hi.1, Ne.symm hs]
  simp [hother]

theorem Live.setSteer_noiseStays (s : Live) (x : Steering) : NoiseStays s (s.setSteer x) :=
  ⟨rfl, fun _ h _ => h, .same rfl rfl, rfl⟩

/-- A raise of another source. -/
theorem Live.raise_noiseStays (s : Live) {src : Source} (hs : src ≠ .linkNoise) (scope : Scope) (detail : Nat) :
    NoiseStays s (s.raise T src scope detail) := by
  have hq := (Live.raiseWith_raised T s src scope (s.scopeAxle scope) detail).frame
  refine ⟨hq.bad.2.2.2, fun e he hi => ?_, hq.up, hq.tableCursor⟩
  have hother : e.is src scope = false := by
    simp only [FaultEntry.is, Bool.and_eq_true, beq_iff_eq] at hi
    simp [FaultEntry.is, hi.1, Ne.symm hs]
  change e ∈ (s.raiseWith T src scope (s.scopeAxle scope) detail).faults
  rw [hq.faults]
  change e ∈ faultsAfter T src scope s.faults
  unfold faultsAfter
  split
  · exact List.mem_map.2 ⟨e, he, by simp [hother]⟩
  · split
    · exact he
    · exact he
    · exact List.mem_append_left _ he

theorem sentLast.sent {f : Frame} (h : sentLast f s) : sent f s := by
  rcases h with h | h
  · exact .inl (List.mem_of_getLast? h)
  · exact .inr h

/-- A frame offered stays offered. -/
theorem sent.grows {f : Frame} (h : sent f old) (k : UpGrows old s) : sent f s := by
  obtain ⟨⟨added, hadded⟩, hsticky⟩ := k
  rcases h with hmem | ⟨hfull, hover⟩
  · exact .inl (by rw [hadded]; exact List.mem_append_left _ hmem)
  · refine .inr ⟨by rw [hadded, List.length_append]; omega, ?_⟩
    rcases hsticky with heq | ⟨-, heq⟩
    · rw [heq]; exact hover
    · rw [heq]

theorem LimitReread.stays (h : LimitReread before T old s) (k : NoiseStays s t) : LimitReread before T old t where
  reached hne hr := by
    obtain ⟨hnoise, hentry⟩ := h.reached hne hr
    exact ⟨k.noise.trans hnoise, fun e he hi => k.entry e (hentry e he hi) hi⟩
  unreached hu := k.noise.trans (h.unreached hu)
  up hne hr a again ha := (h.up hne hr a again ha).grows k.up
  down hne hr := fun a again ha => (h.down hne hr a again ha).grows k.up

/-- What LINK_NOISE's judgement reads of a state. -/
theorem LimitReread.congr (h : LimitReread before T s t) (hu : s.chain.badUp = old.chain.badUp)
    (hd : s.chain.badDown = old.chain.badDown) (hn : s.chain.noise = old.chain.noise) (hf : s.faults = old.faults) :
    LimitReread before T old t where
  reached := by rw [← hu, ← hd, ← hf]; exact h.reached
  unreached := by rw [← hu, ← hd, ← hn]; exact h.unreached
  up := by rw [← hu, ← hf]; exact h.up
  down := by rw [← hu, ← hd, ← hf]; exact h.down

theorem Live.raiseNoise_raised (s : Live) (port : Port) : Raised T .linkNoise .lane 0 (match port with | .up => 0 | .down => 1)
    { s with chain := { s.chain with noise := true } } (s.raiseNoise T port) := Live.raise_lane_raised _ _ _ _

theorem Live.raiseNoise_faults (s : Live) (port : Port) :
    (s.raiseNoise T port).faults = faultsAfter T .linkNoise .lane s.faults := (s.raiseNoise_raised port).frame.faults

theorem Live.raiseNoise_noise (s : Live) (port : Port) : (s.raiseNoise T port).chain.noise = true :=
  (s.raiseNoise_raised (T := T) port).frame.bad.2.2.2

theorem Live.raiseNoise_up (s : Live) (port : Port) : UpGrows s (s.raiseNoise T port) :=
  (UpGrows.same rfl rfl).trans (s.raiseNoise_raised (T := T) port).frame.up

/-- The frame of a raise for a port, where one is sent. -/
theorem Live.raiseNoise_sent (s : Live) (port : Port) {a : Action} {again : Bool}
    (h : reported T .linkNoise .lane s.faults = some (a, again)) :
    sent (faultEvent .linkNoise .lane a again 0 (match port with | .up => 0 | .down => 1)) (s.raiseNoise T port) :=
  ((s.raiseNoise_raised port).event a again h).sent

/-- The judgement of both counts at a new limit: the ports one after the other. -/
theorem Live.rejudgeNoise_reread (s : Live) : LimitReread before T s (s.rejudgeNoise T before.settings.badLimit) := by
  by_cases hsame : T.settings.badLimit = before.settings.badLimit
  · have heq : s.rejudgeNoise T before.settings.badLimit = s := if_pos hsame
    rw [heq]
    exact ⟨fun hne => absurd hsame hne, fun _ => rfl, fun hne => absurd hsame hne, fun hne => absurd hsame hne⟩
  by_cases hup : T.settings.badLimit ≤ s.chain.badUp <;> by_cases hdown : T.settings.badLimit ≤ s.chain.badDown
  · have heq : s.rejudgeNoise T before.settings.badLimit = (s.raiseNoise T .up).raiseNoise T .down := by
      simp only [Live.rejudgeNoise, if_neg hsame, if_pos hup, if_pos hdown]
    rw [heq]
    refine ⟨fun _ _ => ⟨Live.raiseNoise_noise _ _, fun e he hi => ?_⟩, fun hu => ?_, fun _ _ a again ha => ?_, fun _ _ => ?_⟩
    · rw [Live.raiseNoise_faults, Live.raiseNoise_faults]
      exact mem_faultsAfter_again rfl he hi
    · exact absurd hu (by omega)
    · exact (s.raiseNoise_sent .up ha).grows (Live.raiseNoise_up _ _)
    · intro list a again ha
      refine Live.raiseNoise_sent _ .down ?_
      rw [Live.raiseNoise_faults]
      simpa only [list, if_pos hup] using ha
  · have heq : s.rejudgeNoise T before.settings.badLimit = s.raiseNoise T .up := by
      simp only [Live.rejudgeNoise, if_neg hsame, if_pos hup, if_neg hdown]
    rw [heq]
    refine ⟨fun _ _ => ⟨Live.raiseNoise_noise _ _, fun e he _ => ?_⟩, fun hu => ?_, fun _ _ a again ha => s.raiseNoise_sent .up ha,
      fun _ hr => absurd hr hdown⟩
    · rw [Live.raiseNoise_faults]; exact he
    · exact absurd hu (by omega)
  · have heq : s.rejudgeNoise T before.settings.badLimit = s.raiseNoise T .down := by
      simp only [Live.rejudgeNoise, if_neg hsame, if_neg hup, if_pos hdown]
    rw [heq]
    refine ⟨fun _ _ => ⟨Live.raiseNoise_noise _ _, fun e he _ => ?_⟩, fun hu => ?_, fun _ hr => absurd hr hup, fun _ _ => ?_⟩
    · rw [Live.raiseNoise_faults]; exact he
    · exact absurd hu (by omega)
    · intro list a again ha
      refine Live.raiseNoise_sent _ .down ?_
      simpa only [list, if_neg hup] using ha
  · have heq : s.rejudgeNoise T before.settings.badLimit = s := by
      simp only [Live.rejudgeNoise, if_neg hsame, if_neg hup, if_neg hdown]
    rw [heq]
    exact ⟨fun _ hr => absurd hr (by omega), fun _ => rfl, fun _ hr => absurd hr hup, fun _ hr => absurd hr hdown⟩

/-- Freed places that are offered change the up queue, the pending RESULT frames, and a REPLY that waits. -/
theorem Live.offerFreedUp_eq (s : Live) : ∃ q w p, s.offerFreedUp = { s with
    chain := { s.chain with up := q }
    mgmt := { s.mgmt with reply := w }
    records := { s.records with pendingResults := p } } := by
  unfold Live.offerFreedUp
  split
  · exact ⟨_, s.mgmt.reply, _, rfl⟩
  · split
    · exact ⟨_, none, _, rfl⟩
    · exact ⟨s.chain.up, s.mgmt.reply, s.records.pendingResults, rfl⟩

theorem Live.trimmed_eq (s : Live) : ∃ q w p, s.trimmed T = { s with
    chain := { s.chain with up := q }
    mgmt := { s.mgmt with reply := w }
    records := { s.records with pendingResults := p } } := by
  unfold Live.trimmed
  split
  · exact Live.offerFreedUp_eq (s.setUp _)
  · exact ⟨s.chain.up, s.mgmt.reply, s.records.pendingResults, rfl⟩

/-- The chain interface's re-reading raises LINK_NOISE as `LimitReread` says. -/
theorem Live.rereadChain_reread (s : Live) : LimitReread before T s (s.rereadChain T before.settings.badLimit) := by
  obtain ⟨q, w, p, heq⟩ := s.trimmed_eq (T := T)
  rw [Live.rereadChain_eq]
  refine (Live.rejudgeNoise_reread _).congr ?_ ?_ ?_ ?_ <;> rw [heq]

theorem Live.rejudgeNoise_tableCursor (s : Live) (limit : Nat) :
    (s.rejudgeNoise T limit).mgmt.tableCursor = s.mgmt.tableCursor := by
  have hraise (x : Live) (port : Port) : (x.raiseNoise T port).mgmt.tableCursor = x.mgmt.tableCursor :=
    (x.raiseNoise_raised port).frame.tableCursor
  simp only [Live.rejudgeNoise]
  split
  · rfl
  · split <;> split <;> simp only [hraise]

theorem Live.rereadChain_tableCursor (s : Live) (limit : Nat) :
    (s.rereadChain T limit).mgmt.tableCursor = s.mgmt.tableCursor := by
  obtain ⟨q, w, p, heq⟩ := s.trimmed_eq (T := T)
  rw [Live.rereadChain_eq, Live.rejudgeNoise_tableCursor, heq]

/-! ### LANE leaves VALID (R19, R53, R55, R70) -/

theorem Live.dropDriveFault_noiseStays (s : Live) (r : Roller) : NoiseStays s (s.dropDriveFault r) := by
  unfold Live.dropDriveFault
  split
  · exact (Live.setRoller_quiet (.refl s) r _).noiseStays.trans (Live.endCondition_noiseStays _ (by decide) _)
  · exact .refl s

theorem Live.stationsUnsteered_noiseStays (s : Live) : NoiseStays s (s.stationsUnsteered T) :=
  (s.setSteer_noiseStays _).trans (NoiseStays.foldl
    (fun x st => (x.endCondition_noiseStays (by decide) _).trans (Live.endCondition_noiseStays _ (by decide) _)) stations _)

/-- What follows the re-reading when LANE leaves VALID. -/
theorem Live.laneLeaves_noiseStays (s : Live) (limit : Nat) : NoiseStays (s.rereadChain T limit) (s.laneLeaves T limit) := by
  have hoffline := NoiseStays.foldl (f := fun x st => x.enterOffline T st)
    (fun x st => (Live.enterOffline_quiet (.refl x) st).noiseStays) stations (s.rereadChain T limit)
  have hdrives := NoiseStays.foldl (f := Live.dropDriveFault) Live.dropDriveFault_noiseStays [.ra, .rb]
    (stations.foldl (fun x st => x.enterOffline T st) (s.rereadChain T limit))
  exact ((hoffline.trans hdrives).trans (Live.stationsUnsteered_noiseStays _)).trans
    (Live.setGuide_quiet (.refl _) _).noiseStays

theorem Live.dropDriveFault_stationState (s : Live) (r : Roller) (p : Station) :
    (s.dropDriveFault r).stationState p = s.stationState p := by
  unfold Live.dropDriveFault
  split
  · exact s.setRoller_stationState r (by rfl) p
  · rfl

theorem Live.dropDriveFault_driveFault (s : Live) (r q : Roller) :
    ((s.dropDriveFault r).roller q).driveFault = if q = r then false else (s.roller q).driveFault := by
  unfold Live.dropDriveFault
  split
  · next h => cases r <;> cases q <;> rfl
  · next h =>
    split
    · next hq => subst hq; simpa using h
    · rfl

theorem Live.setSteer_still (s : Live) (x : Steering) : Still s (s.setSteer x) := ⟨rfl, rfl, rfl⟩

/-- The end of conditions leaves the stations. -/
theorem Live.stationsUnsteered_still (s : Live) : Still s (s.stationsUnsteered T) := by
  refine Still.foldl (f := fun x st =>
    (x.endCondition .channelWindow (.station st)).endCondition .headSilent (.station st)) (fun x st hx => ?_) stations
    (s.setSteer_still _)
  exact ⟨hx.ps, hx.ra, hx.rb⟩

theorem Live.laneLeaves_offline (s : Live) (limit : Nat) (st : Station) : (s.laneLeaves T limit).stationState st = .offline := by
  change ((((stations.foldl (fun x st => x.enterOffline T st) (s.rereadChain T limit)).dropDriveFault .ra).dropDriveFault
    .rb).stationsUnsteered T).stationState st = .offline
  rw [(Live.stationsUnsteered_still _).stationState, Live.dropDriveFault_stationState, Live.dropDriveFault_stationState]
  simp only [stations, List.foldl_cons, List.foldl_nil, Live.enterOffline_stationState]
  cases st <;> rfl

theorem Live.laneLeaves_driveFault (s : Live) (limit : Nat) (r : Roller) :
    ((s.laneLeaves T limit).roller r).driveFault = false := by
  change (((((stations.foldl (fun x st => x.enterOffline T st) (s.rereadChain T limit)).dropDriveFault .ra).dropDriveFault
    .rb).stationsUnsteered T).roller r).driveFault = false
  rw [(Live.stationsUnsteered_still _).roller, Live.dropDriveFault_driveFault, Live.dropDriveFault_driveFault]
  cases r <;> rfl

/-! ### CHANNELS or SEGMENTS leaves VALID (R53) -/

/-- The conditions of both sources ended for a list of scopes. -/
theorem endSteeringConditions (l : List Scope) : ∀ s : Live,
    l.foldl (fun x sc => (x.endCondition .channelWindow sc).endCondition .headSilent sc) s = { s with
      faults := s.faults.map fun e =>
        if (e.source = .channelWindow ∨ e.source = .headSilent) ∧ e.scope ∈ l then { e with present := false } else e } := by
  induction l with
  | nil => intro s; simp
  | cons sc l ih =>
    intro s
    rw [List.foldl_cons, ih]
    simp only [Live.endCondition, List.map_map]
    congr 1
    refine List.map_congr_left fun e _ => ?_
    obtain ⟨source, scope, action, present, prompt⟩ := e
    by_cases hw : source = .channelWindow
    · by_cases hsc : scope = sc <;> simp [Function.comp, FaultEntry.is, hw, hsc]
    · by_cases hh : source = .headSilent
      · by_cases hsc : scope = sc <;> simp [Function.comp, FaultEntry.is, hh, hsc]
      · simp [Function.comp, FaultEntry.is, hw, hh]

theorem Live.stopSteering_eq (s : Live) : s.stopSteering = { s with
    steer := { s.steer with channels := [] }
    ps := { s.ps with contactIn := false, contactOut := false }
    faults := s.faults.map fun e =>
      if e.source = .channelWindow ∨ e.source = .headSilent then { e with present := false } else e } := by
  have hall (sc : Scope) : sc ∈ scopes := by
    cases sc with
    | lane => decide
    | station st => cases st <;> decide
  simp only [Live.stopSteering, endSteeringConditions, hall, and_true]
  rfl

/-! ### TABLE_BEGIN (R30, R31, R36) -/

@[simp] theorem regionOfCode_regionCode (n : RegionName) : regionOfCode (rd [byte (regionCode n)] 0) = some n := by
  cases n <;> rfl

theorem rd16_be16 {x : Byte} {k : Nat} (h : k < 65536) : rd16 (x :: be16 k) 1 = k := by
  simp only [rd16, rd, be16, byte, List.getD_cons_succ, List.getD_cons_zero, BitVec.toNat_ofNat]
  omega

theorem Tables.loading_eq_false : T.loading = false ↔ ∀ m, (T.get m).state ≠ .loading := by
  simp only [Tables.loading, List.any_eq_false, beq_iff_eq]
  exact ⟨fun h m => h m (by cases m <;> decide), fun h m _ => h m⟩

theorem Live.stationsQuiet_iff : s.stationsQuiet = true ↔
    ∀ st, s.stationState st = .idle ∨ s.stationState st = .offline := by
  simp only [Live.stationsQuiet, List.all_eq_true, Bool.or_eq_true, beq_iff_eq]
  exact ⟨fun h st => h st (by cases st <;> decide), fun h st _ => h st⟩

theorem Live.classMet_iff (n : RegionName) : s.classMet n = true ↔ loadClass n s := by
  cases n <;> simp [Live.classMet, loadClass, Live.stationsQuiet_iff]

theorem cursorWithout_eq (n : RegionName) (s : Live) : { s with mgmt := { s.mgmt with
    tableCursor := match s.mgmt.tableCursor with
      | some (m, off) => if m = n then none else some (m, off)
      | none => none } } = cursorWithout n s := by
  unfold cursorWithout
  cases s.mgmt.tableCursor with
  | none => rfl
  | some c =>
    obtain ⟨m, off⟩ := c
    by_cases hm : m = n <;> simp [Option.filter, hm]

/-- What a region that leaves VALID does, by the region. -/
theorem Live.regionLeaves_eq (s : Live) (limit : Nat) (n : RegionName) : s.regionLeaves T limit n =
    match n with
    | .lane => (cursorWithout n s).laneLeaves T limit
    | .channels | .segments => (cursorWithout n s).stopSteering
    | .prompts => (cursorWithout n s).render T
    | _ => cursorWithout n s := by
  rw [← cursorWithout_eq]
  cases n <;> rfl

theorem tableBeginRequest_eq {n : RegionName} {total : Nat} (h : total < 65536) :
    tableBeginRequest T (byte (regionCode n) :: be16 total) s =
      if 1 ≤ total ∧ total ≤ regionMax n then beginRegion T n total s else refuse T s .arg := by
  have hregion : regionOfCode (rd (byte (regionCode n) :: be16 total) 0) = some n := regionOfCode_regionCode n
  have hlen : (byte (regionCode n) :: be16 total).length = 3 := rfl
  simp only [tableBeginRequest, hregion, rd16_be16 h, hlen, true_and]

/-- A begin that is accepted. -/
theorem beginRegion_accepted {n : RegionName} (total : Nat) (hidle : T.loading = false) (hclass : s.classMet n = true) :
    beginRegion T n total s = {
      tables := T.begin n total
      live := if T.valid n then s.regionLeaves (T.begin n total) T.settings.badLimit n else s
      status := .ok
      data := [] } := by
  rw [beginRegion, hidle, if_neg Bool.false_ne_true, if_pos hclass]

/-- Settles O25: the checks in their order, and what the region's users see when it leaves VALID. -/
theorem tableBeginStartsALoad : Obligations.TableBeginStartsALoad := by
  intro s n total hasks htotal
  have hexec : exec .tableBegin s = .next (s.answered 4
      (tableBeginRequest s.tables (byte (regionCode n) :: be16 total) s.taking).tables
      (tableBeginRequest s.tables (byte (regionCode n) :: be16 total) s.taking).live
      (tableBeginRequest s.tables (byte (regionCode n) :: be16 total) s.taking).status
      (tableBeginRequest s.tables (byte (regionCode n) :: be16 total) s.taking).data) :=
    congrArg Host.Outcome.next (takeRequest_of_asks hasks rfl)
  rw [hexec, tableBeginRequest_eq htotal]
  refine ⟨fun hout => ?_, fun h1 h2 hbusy => ?_, fun h1 h2 hidle hclass => ?_, fun h1 h2 hidle hclass => ?_⟩
  · rw [if_neg (by omega)]; rfl
  · have hload : s.tables.loading = true := by
      by_contra hno
      exact hbusy (Tables.loading_eq_false.1 (by simpa using hno))
    rw [if_pos ⟨h1, h2⟩, beginRegion, if_pos hload]; rfl
  · have hmet : ¬ s.taking.classMet n = true := fun hm => hclass ((Live.classMet_iff n).1 hm)
    rw [if_pos ⟨h1, h2⟩, beginRegion, Tables.loading_eq_false.2 hidle, if_neg Bool.false_ne_true, if_neg hmet]; rfl
  · have hmet : s.taking.classMet n = true := (Live.classMet_iff n).2 hclass
    rw [if_pos ⟨h1, h2⟩, beginRegion_accepted total (Tables.loading_eq_false.2 hidle) hmet]
    refine ⟨s.tables.begin n total, _, rfl,
      ⟨Tables.get_begin_self _ _ _, fun m hm => Tables.get_begin_of_ne _ _ hm, rfl⟩, fun hv => ?_, fun hv hn => ?_, fun hv hn => ?_,
      fun hv hn => ?_⟩
    · simp [hv]
    · rw [if_pos hv, Live.regionLeaves_eq]
      rcases hn with rfl | rfl | rfl | rfl | rfl <;> rfl
    · rw [if_pos hv, Live.regionLeaves_eq]
      rcases hn with rfl | rfl <;> exact Live.stopSteering_eq _
    · subst hn
      rw [if_pos hv, Live.regionLeaves_eq]
      refine ⟨Live.laneLeaves_offline _ _, Live.laneLeaves_driveFault _ _, rfl, ?_, ?_⟩
      · rw [(Live.laneLeaves_noiseStays _ _).cursor, Live.rereadChain_tableCursor]
      · exact ((Live.rereadChain_reread _).stays (Live.laneLeaves_noiseStays _ _)).congr rfl rfl rfl rfl

end
end Sys2Proof.Machine
end

section
/-! ## A load that ends (R33, R34; O27) -/

namespace Sys2Proof.Machine

section
variable {T before : Tables} {old s t : Live}

/-! ### The load context -/

theorem Tables.loadOf_of_context {n : RegionName} {c : LoadContext} (h : T.load = some c) (hn : c.region = n) :
    T.loadOf n = some c := by
  simp [Tables.loadOf, h, hn]

/-- A region that is not LOADING has no load context. -/
theorem Tables.loadOf_of_not_loading {n : RegionName} (hlaw : T.law) (h : (T.get n).state ≠ .loading) : T.loadOf n = none := by
  cases hload : T.loadOf n with
  | none => rfl
  | some c =>
    obtain ⟨hc, rfl⟩ := Tables.loadOf_some hload
    have hlaw' := hlaw.1
    simp only [Tables.loadLaw, hc] at hlaw'
    exact absurd hlaw'.1 h

theorem Tables.finish_loadStep (T : Tables) (n : RegionName) (x : Region) : LoadStep T n x none (T.finish n x) :=
  ⟨T.get_finish_self n x, fun _ hm => T.get_finish_of_ne x hm, rfl⟩

/-! ### The board when LANE becomes VALID (R171) -/

/-- Of the guidance unit only the board has changed. -/
def BoardOnly (old s : Live) : Prop := ∃ b, s.guide = { old.guide with board := b }

theorem BoardOnly.refl (s : Live) : BoardOnly s s := ⟨s.guide.board, rfl⟩

theorem BoardOnly.trans (h : BoardOnly old s) (k : BoardOnly s t) : BoardOnly old t := by
  obtain ⟨b, hb⟩ := h
  obtain ⟨c, hc⟩ := k
  exact ⟨c, by rw [hc, hb]⟩

theorem BoardOnly.foldl {α : Type} {f : Live → α → Live} (hf : ∀ x a, BoardOnly x (f x a)) :
    ∀ (l : List α) (s : Live), BoardOnly s (l.foldl f s)
  | [], s => .refl s
  | a :: l, s => (hf s a).trans (BoardOnly.foldl hf l (f s a))

theorem Live.markLine_boardOnly (s : Live) (i : Fin 4) : BoardOnly s (s.markLine T i) := by
  simp only [Live.markLine]
  split
  · exact .refl s
  · exact ⟨_, rfl⟩

theorem Live.offerLine_boardOnly (s : Live) (i : Fin 4) : BoardOnly s (s.offerLine T i) := by
  simp only [Live.offerLine]
  split
  · split
    · next x hx => exact ⟨_, by rw [← Live.admitDown?_guide hx]; rfl⟩
    · exact .refl s
  · exact .refl s

theorem Live.render_boardOnly (s : Live) : BoardOnly s (s.render T) := by
  have hmark := BoardOnly.foldl (f := fun x i => x.markLine T i) (fun x i => x.markLine_boardOnly i) fourIndices s
  unfold Live.render
  split
  · exact hmark.trans (BoardOnly.foldl (f := fun x i => x.offerLine T i) (fun x i => x.offerLine_boardOnly i) fourIndices _)
  · exact hmark

/-- The board is driven anew: nothing waits to be resent, and every line is marked and offered. -/
def Live.boardDriven (T : Tables) (s : Live) : Live :=
  ((s.setGuide { s.guide with refreshTimer := some 0, resend := 0 }).allDirty).render T

theorem Live.boardDriven_boardOnly (s : Live) :
    BoardOnly (s.setGuide { s.guide with refreshTimer := some 0, resend := 0 }) (s.boardDriven T) :=
  BoardOnly.trans (s := (s.setGuide { s.guide with refreshTimer := some 0, resend := 0 }).allDirty) ⟨_, rfl⟩
    (Live.render_boardOnly _)

theorem Live.boardDriven_quiet (s : Live) : Quiet s (s.boardDriven T) :=
  Live.render_quiet (Live.allDirty_quiet (Live.setGuide_quiet (.refl s) _))

theorem Live.boardDriven_still (s : Live) : Still s (s.boardDriven T) :=
  Live.render_still (Live.allDirty_still (Live.setGuide_still (.refl s) _))

theorem Live.laneBecomes_eq (s : Live) (limit : Nat) : s.laneBecomes T limit =
    ((stations.foldl (Live.presentTare T) (if (s.rereadChain T limit).mode = .service then s.rereadChain T limit
      else stations.foldl (Live.bringUp T) (s.rereadChain T limit))).stationsSteered T).boardDriven T := rfl

/-! ### What the chain re-reading leaves when LANE becomes VALID -/

theorem Live.presentTare_noiseStays (s : Live) (st : Station) : NoiseStays s (s.presentTare T st) := by
  have hset (x : Tare) : NoiseStays s (s.setTare st x) := (Live.setTare_quiet (.refl s) st x).noiseStays
  have hraise (x : Live) : NoiseStays x (x.raise T .tareStale (.station st) 0) := x.raise_noiseStays (by decide) _ _
  simp only [Live.presentTare]
  split
  · split
    · exact (hset _).trans (hraise _)
    · exact hset _
  · split
    · exact hraise _
    · exact .refl s

theorem Live.laneBecomes_noiseStays (s : Live) (limit : Nat) : NoiseStays (s.rereadChain T limit) (s.laneBecomes T limit) := by
  have hup : NoiseStays (s.rereadChain T limit) (if (s.rereadChain T limit).mode = .service then s.rereadChain T limit
      else stations.foldl (Live.bringUp T) (s.rereadChain T limit)) := by
    split
    · exact .refl _
    · exact NoiseStays.foldl (fun x st => (Live.bringUp_quiet (.refl x) st).noiseStays) stations _
  rw [Live.laneBecomes_eq]
  exact ((hup.trans (NoiseStays.foldl Live.presentTare_noiseStays stations _)).trans
    (Live.setSteer_noiseStays _ _)).trans (Live.boardDriven_quiet _).noiseStays

/-! ### The stations when LANE becomes VALID (R55, R157) -/

/-- The stations, the mode, and what the fault entries cover are as they were. -/
structure UnderCover (T : Tables) (old s : Live) : Prop where
  still : Still old s
  mode : s.mode = old.mode
  covered : ∀ st, s.covered T st = old.covered T st

theorem UnderCover.refl (s : Live) : UnderCover T s s := ⟨.refl s, rfl, fun _ => rfl⟩

theorem UnderCover.trans (h : UnderCover T old s) (k : UnderCover T s t) : UnderCover T old t :=
  ⟨⟨k.still.ps.trans h.still.ps, k.still.ra.trans h.still.ra, k.still.rb.trans h.still.rb⟩, k.mode.trans h.mode,
    fun st => (k.covered st).trans (h.covered st)⟩

theorem Quiet.covered (h : Quiet old s) (st : Station) : s.covered T st = old.covered T st := by
  simp [Live.covered, h.faults]

theorem Quiet.underCover (h : Quiet old s) (k : Still old s) : UnderCover T old s := ⟨k, h.mode, h.covered⟩

/-- A mark of presence on entries covers nothing more. -/
theorem covered_faultsAfter_unlisted {src : Source} {scope : Scope} (ha : T.actionFor src = .ignore ∨ T.actionFor src = .note)
    (l : List FaultEntry) (st : Station) : (faultsAfter T src scope l).any (·.covers T st) = l.any (·.covers T st) := by
  unfold faultsAfter
  split
  · rw [List.any_map]
    congr 1
    funext e
    simp only [Function.comp]
    split <;> rfl
  · rcases ha with ha | ha <;> rw [ha]

/-- A raise whose action is IGNORE or NOTE. -/
theorem Live.raise_underCover (s : Live) {src : Source} (ha : T.actionFor src = .ignore ∨ T.actionFor src = .note)
    (scope : Scope) (detail : Nat) : UnderCover T s (s.raise T src scope detail) := by
  have hraised := Live.raiseWith_raised T s src scope (s.scopeAxle scope) detail
  change UnderCover T s (s.raiseWith T src scope (s.scopeAxle scope) detail)
  obtain ⟨hstill, -⟩ := hraised.noEntry (by
    rw [hraised.frame.faults]
    exact faultsAfter_length fun a hmakes => by rw [← hmakes.2]; exact ha)
  refine ⟨hstill, hraised.frame.mode, fun st => ?_⟩
  rw [hraised.frame.covered]
  exact covered_faultsAfter_unlisted ha s.faults st

theorem Live.raiseNoise_underCover (s : Live) (ha : T.actionFor .linkNoise = .ignore ∨ T.actionFor .linkNoise = .note)
    (port : Port) : UnderCover T s (s.raiseNoise T port) :=
  UnderCover.trans (s := { s with chain := { s.chain with noise := true } }) ⟨⟨rfl, rfl, rfl⟩, rfl, fun _ => rfl⟩
    (Live.raise_underCover _ ha _ _)

theorem Live.rejudgeNoise_underCover (s : Live) (ha : T.actionFor .linkNoise = .ignore ∨ T.actionFor .linkNoise = .note)
    (limit : Nat) : UnderCover T s (s.rejudgeNoise T limit) := by
  simp only [Live.rejudgeNoise]
  split
  · exact .refl s
  · split
    · split
      · exact (s.raiseNoise_underCover ha _).trans (Live.raiseNoise_underCover _ ha _)
      · exact s.raiseNoise_underCover ha _
    · split
      · exact s.raiseNoise_underCover ha _
      · exact .refl s

theorem Live.rereadChain_underCover (s : Live) (ha : T.actionFor .linkNoise = .ignore ∨ T.actionFor .linkNoise = .note)
    (limit : Nat) : UnderCover T s (s.rereadChain T limit) := by
  obtain ⟨q, w, p, heq⟩ := s.trimmed_eq (T := T)
  have htrim : UnderCover T s (s.trimmed T) := by
    rw [heq]; exact ⟨⟨rfl, rfl, rfl⟩, rfl, fun _ => rfl⟩
  rw [Live.rereadChain_eq]
  exact htrim.trans (Live.rejudgeNoise_underCover _ ha _)

theorem Live.presentTare_stationState (s : Live) (ha : T.actionFor .tareStale = .ignore ∨ T.actionFor .tareStale = .note)
    (st p : Station) : (s.presentTare T st).stationState p = s.stationState p := by
  have hraise (x : Live) : (x.raise T .tareStale (.station st) 0).stationState p = x.stationState p :=
    (x.raise_underCover ha _ _).still.stationState p
  simp only [Live.presentTare]
  split <;> split <;> simp only [hraise, Live.setTare_stationState]

theorem Live.holdStation_of_idle (s : Live) {st : Station} (h : s.stationState st = .idle) (p : Station) :
    (s.holdStation T [st] st).stationState p = if p = st then .faulted else s.stationState p := by
  by_cases hp : p = st
  · subst hp
    rw [if_pos rfl, s.holdStation_self (by simp)]
  · rw [if_neg hp]
    unfold Live.holdStation
    cases st with
    | ps => simp only [stationRoller, h, Live.enter_stationState, if_neg hp]; cases p <;> rfl
    | ra => simp [stationRoller, h, Live.enterStill_stationState, stationOf, hp]
    | rb => simp [stationRoller, h, Live.enterStill_stationState, stationOf, hp]

/-- A present station that is OFFLINE comes up. -/
theorem Live.bringUp_stationState (s : Live) (st p : Station) : (s.bringUp T st).stationState p =
    if p = st ∧ T.present st = true ∧ s.stationState st = .offline then
      (if s.covered T st = true then .faulted else .idle)
    else s.stationState p := by
  by_cases hup : T.present st = true ∧ s.stationState st = .offline
  · have hcov : (s.enter T st .idle).covered T st = s.covered T st := (Live.enter_quiet (.refl s) st .idle).covered st
    have hidle : (s.enter T st .idle).stationState st = .idle := by simp
    rw [Live.bringUp, if_pos hup, Live.coverIdle, hcov]
    by_cases hc : s.covered T st = true
    · rw [if_pos ⟨hidle, hc⟩, Live.holdStation_of_idle _ hidle, Live.enter_stationState]
      by_cases hp : p = st <;> simp [hp, hup, hc]
    · rw [if_neg (fun h => hc h.2), Live.enter_stationState]
      by_cases hp : p = st <;> simp [hp, hup, hc]
  · rw [Live.bringUp, if_neg hup, if_neg (fun h => hup h.2)]

/-- The stations brought up one after the other. -/
theorem Live.bringUps_stationState (s : Live) (p : Station) : (stations.foldl (Live.bringUp T) s).stationState p =
    if T.present p = true ∧ s.stationState p = .offline then (if s.covered T p = true then .faulted else .idle)
    else s.stationState p := by
  have hcov (x : Live) (st q : Station) : (x.bringUp T st).covered T q = x.covered T q :=
    (Live.bringUp_quiet (.refl x) st).covered q
  simp only [stations, List.foldl_cons, List.foldl_nil, Live.bringUp_stationState, hcov]
  cases p <;> simp

theorem Live.laneBecomes_stationState (s : Live) (limit : Nat)
    (ha : ∀ x, x = Source.linkNoise ∨ x = .tareStale → T.actionFor x = .ignore ∨ T.actionFor x = .note) (st : Station) :
    (s.laneBecomes T limit).stationState st =
      if T.present st = true ∧ s.stationState st = .offline ∧ s.mode ≠ .service then
        (if s.covered T st = true then .faulted else .idle)
      else s.stationState st := by
  have hread := s.rereadChain_underCover (ha _ (.inl rfl)) limit
  have hstale := ha _ (.inr rfl)
  have hsteer (x : Live) : (x.stationsSteered T).stationState st = x.stationState st := (x.setSteer_still _).stationState st
  rw [Live.laneBecomes_eq, (Live.boardDriven_still _).stationState, hsteer]
  simp only [stations, List.foldl_cons, List.foldl_nil, Live.presentTare_stationState _ hstale]
  rw [hread.mode]
  split
  · next hm => rw [hread.still.stationState, if_neg (fun h => h.2.2 hm)]
  · next hm =>
    have hups := (s.rereadChain T limit).bringUps_stationState (T := T) st
    simp only [stations, List.foldl_cons, List.foldl_nil] at hups
    rw [hups, hread.still.stationState, hread.covered]
    simp [hm]

theorem Live.laneBecomes_guide (s : Live) (limit : Nat) :
    (s.laneBecomes T limit).guide.refreshTimer = some 0 ∧ (s.laneBecomes T limit).guide.resend = 0 := by
  rw [Live.laneBecomes_eq]
  generalize (stations.foldl (Live.presentTare T) _).stationsSteered T = x
  obtain ⟨b, hb⟩ := x.boardDriven_boardOnly (T := T)
  rw [hb]
  exact ⟨rfl, rfl⟩

/-! ### TABLE_END and TABLE_ABORT (R33, R34) -/

theorem tableEndRequest_eq {n : RegionName} {k : Nat} (h : k < 65536) :
    tableEndRequest T (byte (regionCode n) :: be16 k) s = endRegion T n k s := by
  have hregion : regionOfCode (rd (byte (regionCode n) :: be16 k) 0) = some n := regionOfCode_regionCode n
  have hlen : (byte (regionCode n) :: be16 k).length = 3 := rfl
  simp only [tableEndRequest, hregion, rd16_be16 h, hlen, if_true]

/-- Steering begins anew when CHANNELS or SEGMENTS becomes VALID and both are (R53). -/
theorem Live.regionBecomes_channels (s : Live) (limit : Nat) {n : RegionName} (hn : n = .channels ∨ n = .segments)
    (h : T.steering = true) : (s.regionBecomes T limit n).steer.channels = T.entries.map (startChannel T) := by
  rcases hn with rfl | rfl <;> simp only [Live.regionBecomes, if_pos h] <;> rfl

theorem Live.regionBecomes_inert (s : Live) (limit : Nat) {n : RegionName} (hn : n.inert) : s.regionBecomes T limit n = s := by
  rcases hn with rfl | rfl | rfl | rfl | rfl <;> rfl

/-- The judgement of a load at its end, in its order. -/
theorem endRegion_of_load {n : RegionName} {c : LoadContext} {k : Nat} (h : T.loadOf n = some c) : endRegion T n k s =
    if c.expected < c.total then { tables := T.finish n .empty, live := s, status := .check, data := be16 c.expected }
    else if (crc16 (T.get n).content).toNat ≠ k then
      { tables := T.finish n .empty, live := s, status := .check, data := be16 (crc16 (T.get n).content).toNat }
    else match structureCheck T n (T.get n).content with
      | some (j, i) => { tables := T.finish n .empty, live := s, status := .invalidTable, data := [byte j, byte i] }
      | none => { tables := T.finish n { state := .valid, content := (T.get n).content },
                  live := s.regionBecomes (T.finish n { state := .valid, content := (T.get n).content }) T.settings.badLimit n,
                  status := .ok, data := [] } := by
  simp only [endRegion, h] <;> rfl

/-- Settles O27: the judgements of TABLE_END in their order, and what the region's users see when it becomes VALID. -/
theorem aLoadEndsJudgedOrAborted : Obligations.ALoadEndsJudgedOrAborted := by
  intro s n c check hlaw content crc bad ends
  have hfinish := s.tables.finish_loadStep n
  refine ⟨fun hasks => ?_, fun hasks => ?_⟩
  · have hexec : exec .tableEnd s = .next (s.answered 6 (endRegion s.tables n check.toNat s.taking).tables
        (endRegion s.tables n check.toNat s.taking).live (endRegion s.tables n check.toNat s.taking).status
        (endRegion s.tables n check.toNat s.taking).data) := by
      rw [← tableEndRequest_eq check.isLt]
      exact congrArg Host.Outcome.next (takeRequest_of_asks hasks rfl)
    refine ⟨fun hstate => ?_, fun hload hregion => ?_⟩
    · rw [hexec, endRegion, Tables.loadOf_of_not_loading hlaw hstate]; rfl
    have hjudge := endRegion_of_load (s := s.taking) (k := check.toNat) (Tables.loadOf_of_context hload hregion)
    refine ⟨fun hshort => ?_, fun hfull hcrc => ?_, fun k i hfull hcrc hbad => ?_, fun hfull hcrc hgood => ?_⟩
    · rw [if_pos hshort] at hjudge
      rw [hjudge] at hexec
      exact ⟨_, hexec, hfinish _⟩
    · have hne : crc.toNat ≠ check.toNat := fun h => hcrc (BitVec.eq_of_toNat_eq h)
      rw [if_neg (by omega), if_pos hne] at hjudge
      rw [hjudge] at hexec
      exact ⟨_, hexec, hfinish _⟩
    · have heq : ¬ crc.toNat ≠ check.toNat := fun h => h (congrArg BitVec.toNat hcrc)
      rw [if_neg (by omega), if_neg heq, hbad] at hjudge
      rw [hjudge] at hexec
      exact ⟨_, hexec, hfinish _⟩
    · have heq : ¬ crc.toNat ≠ check.toNat := fun h => h (congrArg BitVec.toNat hcrc)
      rw [if_neg (by omega), if_neg heq, hgood] at hjudge
      rw [hjudge] at hexec
      refine ⟨_, _, hexec, hfinish _, fun hinert => Live.regionBecomes_inert _ _ hinert,
        fun hn hsteer => Live.regionBecomes_channels _ _ hn hsteer, fun hlane => ?_⟩
      subst hlane
      have hread : LimitReread s.tables (s.tables.finish .lane ⟨.valid, content⟩) s.live
          (s.taking.laneBecomes (s.tables.finish .lane ⟨.valid, content⟩) s.tables.settings.badLimit) :=
        ((Live.rereadChain_reread s.taking).stays (Live.laneBecomes_noiseStays _ _)).congr rfl rfl rfl rfl
      obtain ⟨htimer, hresend⟩ := s.taking.laneBecomes_guide (T := s.tables.finish .lane ⟨.valid, content⟩)
        s.tables.settings.badLimit
      exact ⟨htimer, hresend, hread, fun ha st => Live.laneBecomes_stationState s.taking _ ha st⟩
  · have hexec : exec .tableAbort s = .next (s.answered 7
        (tableAbortRequest s.tables [byte (regionCode n)] s.taking).tables
        (tableAbortRequest s.tables [byte (regionCode n)] s.taking).live
        (tableAbortRequest s.tables [byte (regionCode n)] s.taking).status
        (tableAbortRequest s.tables [byte (regionCode n)] s.taking).data) :=
      congrArg Host.Outcome.next (takeRequest_of_asks hasks rfl)
    simp only [tableAbortRequest, regionOfCode_regionCode, List.length_singleton, ne_eq, not_true, if_false] at hexec
    refine ⟨fun hstate => ?_, fun hload hregion => ?_⟩
    · rw [Tables.loadOf_of_not_loading hlaw hstate] at hexec
      exact hexec
    · rw [Tables.loadOf_of_context hload hregion] at hexec
      exact ⟨_, hexec, hfinish _⟩

end
end Sys2Proof.Machine
end

section
/-! ## The law of the table store, through every step (R29, R31 to R34, R41; O7) -/

namespace Sys2Proof.Machine

/-- What one command can do to the table store: nothing, a load begun, continued or ended, or the loss of everything. -/
inductive TableStep (t : Tables) : Tables → Prop
  | same : TableStep t t
  | begun {n : RegionName} {total : Nat} (hidle : t.loading = false) (hsize : total ≤ regionMax n) :
      TableStep t (t.begin n total)
  | appended {c : LoadContext} {d : List Byte} (hload : t.load = some c) (hroom : c.expected + d.length ≤ c.total) :
      TableStep t (t.append c d)
  | emptied {c : LoadContext} (hload : t.load = some c) : TableStep t (t.finish c.region .empty)
  | accepted {c : LoadContext} (hload : t.load = some c)
      (hcheck : structureCheck t c.region (t.get c.region).content = none) :
      TableStep t (t.finish c.region { state := .valid, content := (t.get c.region).content })
  | lost : TableStep t .reset

section
variable {T U : Tables} {s t : State}

/-- Each change of the table store keeps its law. -/
theorem TableStep.law (h : TableStep T U) (hT : T.law) : U.law := by
  cases h with
  | same => exact hT
  | begun hidle hsize => exact Tables.begin_law hT hidle hsize
  | appended hload hroom => exact Tables.append_law hT hload hroom
  | emptied hload => exact Tables.finish_empty_law hT hload
  | accepted hload hcheck => exact Tables.finish_valid_law hT hload hcheck
  | lost => exact Tables.reset_law

theorem TableStep.of_eq (h : U = T) : TableStep T U := h ▸ .same

theorem Tables.abandon_tableStep (T : Tables) : TableStep T T.abandon := by
  unfold Tables.abandon
  split
  · next hload => exact .emptied hload
  · exact .same

/-! ### The load protocol (R31 to R34) -/

theorem finish_empty_tableStep {n : RegionName} {c : LoadContext} (h : T.loadOf n = some c) :
    TableStep T (T.finish n .empty) := by
  obtain ⟨hload, rfl⟩ := Tables.loadOf_some h
  exact .emptied hload

theorem tableBeginRequest_tableStep (T : Tables) (a : List Byte) (l : Live) :
    TableStep T (tableBeginRequest T a l).tables := by
  unfold tableBeginRequest
  split
  case h_2 => exact .same
  case h_1 n _ =>
    split
    case isFalse => exact .same
    case isTrue hrange =>
      obtain ⟨-, -, hsize⟩ := hrange
      unfold beginRegion
      split
      case isTrue => exact .same
      case isFalse hidle =>
        split
        · exact .begun (by simpa using hidle) hsize
        · exact .same

theorem tableDataRequest_tableStep (T : Tables) (a : List Byte) (l : Live) :
    TableStep T (tableDataRequest T a l).tables := by
  unfold tableDataRequest
  split
  case h_2 => exact .same
  case h_1 n _ =>
    split
    case isFalse => exact .same
    case isTrue =>
      unfold dataRegion
      split
      case h_1 => exact .same
      case h_2 c hc =>
        split
        case isTrue => exact .same
        case isFalse hoffset =>
          split
          · exact .same
          · exact .appended (Tables.loadOf_some hc).1 (by omega)

/-- TABLE_END: each of its refusals of the content empties the region; content that passes them all is accepted. -/
theorem endRegion_tableStep (T : Tables) (n : RegionName) (check : Nat) (l : Live) :
    TableStep T (endRegion T n check l).tables := by
  cases hload : T.loadOf n with
  | none =>
    rw [endRegion, hload]
    exact .same
  | some c =>
    rw [endRegion_of_load hload]
    split
    · exact finish_empty_tableStep hload
    · split
      · exact finish_empty_tableStep hload
      · split
        · exact finish_empty_tableStep hload
        · next hcheck =>
          obtain ⟨hc, rfl⟩ := Tables.loadOf_some hload
          exact .accepted hc hcheck

theorem tableEndRequest_tableStep (T : Tables) (a : List Byte) (l : Live) :
    TableStep T (tableEndRequest T a l).tables := by
  unfold tableEndRequest
  split
  · split
    · exact endRegion_tableStep T _ _ l
    · exact .same
  · exact .same

theorem tableAbortRequest_tableStep (T : Tables) (a : List Byte) (l : Live) :
    TableStep T (tableAbortRequest T a l).tables := by
  unfold tableAbortRequest
  split
  · split
    · exact .same
    · split
      · next hload => exact finish_empty_tableStep hload
      · exact .same
  · exact .same

theorem laneResetRequest_tableStep (T : Tables) (a : List Byte) (l : Live) :
    TableStep T (laneResetRequest T a l).tables := by
  unfold laneResetRequest
  split
  · exact T.abandon_tableStep
  · exact .same

/-! ### The keepalive monitor (R28, R34) -/

theorem linkWindow_tableStep (T : Tables) (l : Live) : TableStep T (linkWindow T l).1 := by
  unfold linkWindow
  split
  · exact T.abandon_tableStep
  · exact .same

/-- A frame at the upstream port: only a KEEPALIVE reaches the table store. -/
theorem takeUp_tableStep (f : Frame) (T : Tables) (l : Live) : TableStep T (takeUp f T l).1 := by
  unfold takeUp
  split
  · exact .same
  · split
    · split
      · exact .same
      · unfold takeKeepalive
        dsimp only
        split
        · exact linkWindow_tableStep T _
        · exact .same
    · split <;> exact .same

/-! ### The frames of the commands -/

theorem State.onLive_tables (f : Tables → Live → Live) (s : State) : (s.onLive f).tables = s.tables := by
  unfold State.onLive
  split <;> rfl

theorem State.onLines_tables (g : InputLines → InputLines) (f : Tables → Live → Live) (s : State) :
    (s.onLines g f).tables = s.tables := rfl

theorem State.onBoth_tableStep {f : Tables → Live → Tables × Live} (hf : ∀ T l, TableStep T (f T l).1) (s : State) :
    TableStep s.tables (s.onBoth f).tables := by
  unfold State.onBoth
  split
  · exact .same
  · exact hf _ _

theorem takeRequest_tableStep {f : Tables → List Byte → Live → Answered} (hf : ∀ T a l, TableStep T (f T a l).tables)
    (row : Instr) (s : State) : TableStep s.tables (takeRequest row f s).tables := by
  unfold takeRequest
  split
  · exact hf _ _ _
  · exact .same

theorem LeavesTables.tableStep {f : Tables → List Byte → Live → Answered} (hf : LeavesTables f) (row : Instr) (s : State) :
    TableStep s.tables (takeRequest row f s).tables :=
  takeRequest_tableStep (fun T a l => .of_eq (hf T a l)) row s

/-- A change of a line that acts only where the line's level is another. -/
theorem tableStep_of_edge {c : Prop} [Decidable c] {x y : State} (hx : x.tables = s.tables) (hy : y.tables = s.tables)
    (ht : (if c then Host.Outcome.next x else .next y : Out) = .next t) : TableStep s.tables t.tables := by
  split at ht <;> cases ht
  · exact .of_eq hx
  · exact .of_eq hy

/-! ### Every command -/

/-- A command changes the table store in one of the ways of `TableStep`: those that reach it are the table load protocol,
LANE_RESET, the two commands of the keepalive monitor, and RESET. -/
theorem exec_tableStep (i : Instr) (ht : exec i s = .next t) : TableStep s.tables t.tables := by
  cases i
  case keepalive | mgmtFrame | hostPassThrough => cases ht; exact State.onBoth_tableStep (takeUp_tableStep _) s
  case keepaliveUpperExpiry =>
    cases ht
    refine State.onBoth_tableStep (fun T l => ?_) s
    split
    · exact linkWindow_tableStep T _
    · exact .same
  case tableBegin => cases ht; exact takeRequest_tableStep tableBeginRequest_tableStep _ s
  case tableData => cases ht; exact takeRequest_tableStep tableDataRequest_tableStep _ s
  case tableEnd => cases ht; exact takeRequest_tableStep tableEndRequest_tableStep _ s
  case tableAbort => cases ht; exact takeRequest_tableStep tableAbortRequest_tableStep _ s
  case laneReset => cases ht; exact takeRequest_tableStep laneResetRequest_tableStep _ s
  case mgmtUnknownRequest => cases ht; exact unknownRequest_tables.tableStep _ s
  case status => cases ht; exact statusRequest_tables.tableStep _ s
  case laneMode => cases ht; exact laneModeRequest_tables.tableStep _ s
  case window => cases ht; exact windowRequest_tables.tableStep _ s
  case tableRead => cases ht; exact tableReadRequest_tables.tableStep _ s
  case recordRead => cases ht; exact recordReadRequest_tables.tableStep _ s
  case upFlush => cases ht; exact upFlushRequest_tables.tableStep _ s
  case vehicleBegin => cases ht; exact vehicleBeginRequest_tables.tableStep _ s
  case vehicleClose => cases ht; exact vehicleCloseRequest_tables.tableStep _ s
  case vehicleAbort => cases ht; exact vehicleAbortRequest_tables.tableStep _ s
  case recordRelease => cases ht; exact recordReleaseRequest_tables.tableStep _ s
  case stationSpin => cases ht; exact stationSpinRequest_tables.tableStep _ s
  case stationCapture => cases ht; exact stationCaptureRequest_tables.tableStep _ s
  case stationRelease => cases ht; exact stationReleaseRequest_tables.tableStep _ s
  case stationTare => cases ht; exact stationTareRequest_tables.tableStep _ s
  case clearFault => cases ht; exact clearFaultRequest_tables.tableStep _ s
  case resume => cases ht; exact resumeRequest_tables.tableStep _ s
  case clearLockout => cases ht; exact clearLockoutRequest_tables.tableStep _ s
  case promptPost => cases ht; exact promptPostRequest_tables.tableStep _ s
  case promptClear => cases ht; exact promptClearRequest_tables.tableStep _ s
  case print => cases ht; exact printRequest_tables.tableStep _ s
  case printCancel => cases ht; exact printCancelRequest_tables.tableStep _ s
  case bandAckRise | paperOutAsserted | headHotAsserted | estopAsserted =>
    exact tableStep_of_edge rfl (State.onLines_tables _ _ s) ht
  case bandAckFall | estopReleased => exact tableStep_of_edge (State.onLines_tables _ _ s) rfl ht
  case printerReady => cases ht; exact .of_eq (State.onLines_tables _ _ s)
  case resetAssert =>
    change execResetAssert s = _ at ht
    unfold execResetAssert at ht
    split at ht <;> cases ht
    · exact .same
    · exact .lost
  case resetRelease lines =>
    change execResetRelease lines s = _ at ht
    unfold execResetRelease at ht
    split at ht <;> cases ht
    · exact .lost
    · exact .same
  all_goals cases ht; exact .of_eq (State.onLive_tables _ s)

theorem idleStep_tableStep (ht : idleStep s = .next t) : TableStep s.tables t.tables := by
  unfold idleStep at ht
  split at ht
  · cases ht; exact .same
  · split at ht
    · exact exec_tableStep (s := s.dueTaken) _ ht
    · cases ht; exact .same

theorem step_tableStep (ht : step s = .next t) : TableStep s.tables t.tables := by
  unfold step at ht
  split at ht
  · next c rest _ => exact exec_tableStep (s := { s with pending := rest }) c ht
  · exact idleStep_tableStep ht

/-- Settles O7: a step changes the table store by one of few changes, each of which keeps its law. -/
theorem everyStepKeepsTheTableLaw : Obligations.EveryStepKeepsTheTableLaw :=
  fun _ _ hlaw ht => (step_tableStep ht).law hlaw

end
end Sys2Proof.Machine
end

section
/-! ## The keepalive monitor (R27, R28, R34; O9) -/

namespace Sys2Proof.Machine

section
variable {T : Tables} {s : State} {l : Live} {m : Mgmt} {n : Nat}

/-! ### The monitor's states (R27) -/

theorem Mgmt.keepalive_of_disabled (h : m.keepState = .disabled) : m.keepalive = (m, false) := by
  simp [Mgmt.keepalive, h]

theorem Mgmt.keepalive_of_first_or_lapsed (h : m.keepState = .first ∨ m.keepState = .lapsed) :
    m.keepalive = ({ m with keepState := .timing, keepTimer := some 0 }, false) := by
  rcases h with h | h <;> simp [Mgmt.keepalive, h]

theorem Mgmt.keepalive_of_timing (h : m.keepState = .timing) (ht : m.keepTimer = some n) :
    m.keepalive = ({ m with keepTimer := some 0 }, decide (n < m.lower)) := by
  simp [Mgmt.keepalive, h, ht]

/-! ### A KEEPALIVE frame -/

theorem takeUp_keepalive (T : Tables) (l : Live) : takeUp (hostToController kindKeepalive []) T l = takeKeepalive T l := by
  have hgood : frameBad .up (hostToController kindKeepalive []) = false :=
    Laws.GoodFrames.keepalive rfl (.up, _) (List.mem_singleton.2 rfl)
  have hdest : (hostToController kindKeepalive []).dest = 0 := rfl
  have hkind : (hostToController kindKeepalive []).kind ≠ kindMgmt := by decide
  simp only [takeUp, hgood, if_pos hdest, if_neg hkind, Bool.false_eq_true, if_false]

theorem execKeepalive_of_awake (h : s.awake) : exec .keepalive s =
    .next { s with tables := (takeKeepalive s.tables s.live).1, live := (takeKeepalive s.tables s.live).2 } := by
  change Host.Outcome.next (s.onBoth (takeUp _)) = _
  rw [State.onBoth_awake _ h, takeUp_keepalive]

/-- A KEEPALIVE that raises nothing changes the monitor alone. -/
theorem execKeepalive_silent (h : s.awake) (hm : s.live.mgmt.keepalive = (m, false)) :
    exec .keepalive s = .next (s.withLive { s.live with mgmt := m }) := by
  rw [execKeepalive_of_awake h]
  simp only [takeKeepalive, hm, Bool.false_eq_true, if_false]
  rfl

/-- A KEEPALIVE that comes too early raises LINK_WINDOW. -/
theorem execKeepalive_raising (h : s.awake) (hm : s.live.mgmt.keepalive = (m, true)) :
    exec .keepalive s = .next { s with
      tables := (linkWindow s.tables { s.live with mgmt := m }).1
      live := (linkWindow s.tables { s.live with mgmt := m }).2 } := by
  rw [execKeepalive_of_awake h]
  simp only [takeKeepalive, hm, if_true]

/-! ### The upper limit (R28) -/

theorem Live.upperDue_iff : l.upperDue = true ↔
    (l.mgmt.keepState = .first ∨ l.mgmt.keepState = .timing) ∧ reached l.mgmt.keepTimer l.mgmt.upper = true := by
  simp [Live.upperDue]

theorem reached_some (n limit : Nat) : reached (some n) limit = true ↔ limit ≤ n := by simp [reached]

theorem execKeepaliveUpperExpiry_of_due (h : s.awake) (hdue : s.live.upperDue = true) :
    exec .keepaliveUpperExpiry s = .next { s with
      tables := (linkWindow s.tables { s.live with mgmt := { s.live.mgmt with keepState := .lapsed, keepTimer := none } }).1
      live := (linkWindow s.tables { s.live with mgmt := { s.live.mgmt with keepState := .lapsed, keepTimer := none } }).2 } := by
  change Host.Outcome.next (s.onBoth _) = _
  rw [State.onBoth_awake _ h]
  simp only [hdue, if_true]

theorem execKeepaliveUpperExpiry_of_not_due (h : s.awake) (hdue : ¬ s.live.upperDue = true) :
    exec .keepaliveUpperExpiry s = .next s := by
  change Host.Outcome.next (s.onBoth _) = _
  rw [State.onBoth_awake _ h]
  simp only [if_neg hdue]

/-! ### The raise of LINK_WINDOW (R28, R34) -/

/-- A raise of LINK_WINDOW is a raise of the fault action unit, after which a load in progress is abandoned. -/
theorem linkWindow_raised (s : State) (l : Live) :
    LinkWindowRaised s l { s with tables := (linkWindow s.tables l).1, live := (linkWindow s.tables l).2 } := by
  refine ⟨l.raise s.tables .linkWindow .lane 0, Live.raise_lane_raised _ _ _ _, ?_⟩
  cases hload : s.tables.load <;> simp [linkWindow, Tables.abandon, hload]

/-- Settles O9: a KEEPALIVE by the monitor's state and the interval, its expiry by whether the upper limit has been reached. -/
theorem keepaliveMonitorJudgesTheInterval : Obligations.KeepaliveMonitorJudgesTheInterval := by
  intro s n hawake
  refine ⟨fun hstate => ?_, fun hstate => ?_, fun hstate htimer hin => ?_, fun hstate htimer hearly => ?_,
    fun hstate htimer hover => ?_, fun hidle => ?_⟩
  · exact execKeepalive_silent hawake (Mgmt.keepalive_of_disabled hstate)
  · exact execKeepalive_silent hawake (Mgmt.keepalive_of_first_or_lapsed hstate)
  · refine execKeepalive_silent hawake ((Mgmt.keepalive_of_timing hstate htimer).trans ?_)
    rw [decide_eq_false (by omega)]
  · refine ⟨_, execKeepalive_raising hawake ((Mgmt.keepalive_of_timing hstate htimer).trans ?_), linkWindow_raised s _⟩
    rw [decide_eq_true hearly]
  · have hdue : s.live.upperDue = true := Live.upperDue_iff.2 ⟨hstate, by rw [htimer, reached_some]; exact hover⟩
    exact ⟨_, execKeepaliveUpperExpiry_of_due hawake hdue, linkWindow_raised s _⟩
  · refine execKeepaliveUpperExpiry_of_not_due hawake fun hdue => ?_
    obtain ⟨hrunning, hreached⟩ := Live.upperDue_iff.1 hdue
    rcases hidle with hstate | hstate | ⟨htimer, hbelow⟩
    · simp [hstate] at hrunning
    · simp [hstate] at hrunning
    · rw [htimer, reached_some] at hreached
      omega

end
end Sys2Proof.Machine
end

section
/-! ## The requests of the management unit (R22 to R26, R32; O22, O24, O26) -/

namespace Sys2Proof.Machine

section
variable {T : Tables} {l : Live} {s : State}

/-! ### A request and its answer (R7, R20) -/

/-- A request that can be taken is answered as its meaning says. -/
theorem exec_answered {row : Instr} {f : Tables → List Byte → Live → Answered} {code : Byte} {a : List Byte} {x : Answered}
    (hasks : s.asks (code :: a)) (hrow : requestRow (code :: a) = row)
    (hexec : exec row s = .next (takeRequest row f s)) (hx : f s.tables a s.taking = x) :
    exec row s = .next (s.answered code x.tables x.live x.status x.data) := by
  rw [hexec, takeRequest_of_asks hasks hrow, hx]

/-! ### Arguments (R189, R191) -/

theorem rd_byte {p q : List Byte} {k i : Nat} (hi : i = p.length) (h : k < 256) : rd (p ++ byte k :: q) i = k := by
  subst hi
  simp [rd, byte, Nat.mod_eq_of_lt h]

/-- A 16-bit argument read where it stands. -/
theorem rd16_append_be16 {p q : List Byte} {k i : Nat} (hi : i = p.length) (h : k < 65536) :
    rd16 (p ++ (be16 k ++ q)) i = k := by
  subst hi
  simp [rd16, rd, be16, byte, List.getD_eq_getElem?_getD]
  omega

theorem byte_rd (a : List Byte) (i : Nat) : byte (rd a i) = a.getD i 0 := BitVec.ofNat_toNat _ _

theorem rd_lt (a : List Byte) (i : Nat) : rd a i < 256 := BitVec.isLt _

/-- The bytes of a 16-bit argument, from its number. -/
theorem be16_rd16 (a : List Byte) (i : Nat) : be16 (rd16 a i) = [a.getD i 0, a.getD (i + 1) 0] := by
  have hlow := rd_lt a (i + 1)
  have hhigh : byte (rd16 a i / 256) = byte (rd a i) := by
    congr 1
    simp only [rd16]
    omega
  have hbyte : byte (rd16 a i) = byte (rd a (i + 1)) := by
    apply BitVec.eq_of_toNat_eq
    simp only [byte, BitVec.toNat_ofNat, rd16]
    omega
  rw [be16, hhigh, hbyte, byte_rd, byte_rd]

/-! ### STATUS (R22, R23) -/

theorem statusRequest_nil : statusRequest T [] l = accept T (l.setSticky .clear) (l.statusData T) := rfl

theorem statusRequest_of_ne_nil {a : List Byte} (h : a ≠ []) : statusRequest T a l = refuse T l .arg := by
  rw [statusRequest, if_neg (by simpa using h)]

/-- Settles O22: STATUS without arguments answers its data and clears the indicators, and any argument is refused. -/
theorem statusReportsAndClearsTheIndicators : Obligations.StatusReportsAndClearsTheIndicators := by
  intro s a hasks
  refine ⟨fun hnone => ?_, fun hsome => ?_⟩
  · subst hnone
    exact exec_answered hasks rfl rfl statusRequest_nil
  · exact exec_answered hasks rfl rfl (statusRequest_of_ne_nil hsome)

/-! ### WINDOW (R26) -/

/-- The limits that WINDOW accepts. -/
def windowFits (lower upper : Nat) : Prop :=
  lower ∈ [0, 50, 100, 250] ∧ upper ∈ [250, 500, 1000, 2000, 5000] ∧ lower < upper

/-- The argument bytes of WINDOW. -/
def windowBytes (enabled : Bool) (lower upper : Nat) : List Byte :=
  (if enabled then 1 else 0) :: (be16 lower ++ be16 upper)

theorem windowFits.bounds {lower upper : Nat} (h : windowFits lower upper) : lower < 65536 ∧ upper < 65536 := by
  obtain ⟨-, hupper, hless⟩ := h
  simp only [List.mem_cons, List.not_mem_nil, or_false] at hupper
  omega

theorem rd16_windowBytes {e : Bool} {lower upper : Nat} (h : windowFits lower upper) :
    rd16 (windowBytes e lower upper) 1 = lower ∧ rd16 (windowBytes e lower upper) 3 = upper := by
  obtain ⟨hlower, hupper⟩ := h.bounds
  constructor
  · exact rd16_append_be16 (p := [if e then 1 else 0]) rfl hlower
  · have happ : windowBytes e lower upper = ((if e then 1 else 0) :: be16 lower) ++ (be16 upper ++ []) := by
      simp [windowBytes]
    rw [happ]
    exact rd16_append_be16 rfl hupper

theorem windowArgs_iff (a : List Byte) : windowArgs a = true ↔
    a.length = 5 ∧ rd a 0 ≤ 1 ∧ rd16 a 1 ∈ [0, 50, 100, 250] ∧ rd16 a 3 ∈ [250, 500, 1000, 2000, 5000] := by
  simp only [windowArgs, Bool.and_eq_true, List.contains_iff_mem, decide_eq_true_eq, beq_iff_eq, and_assoc]

/-- WINDOW with limits that fit. -/
theorem windowRequest_of_fits {e : Bool} {lower upper : Nat} (h : windowFits lower upper) :
    windowRequest T (windowBytes e lower upper) l = accept T { l with mgmt := { l.mgmt with
      lower := lower, upper := upper, keepState := if e then .first else .disabled,
      keepTimer := if e then some 0 else none } } [] := by
  obtain ⟨hrdlower, hrdupper⟩ := rd16_windowBytes (e := e) h
  have hflag : rd (windowBytes e lower upper) 0 = if e then 1 else 0 := by cases e <;> rfl
  have hargs : windowArgs (windowBytes e lower upper) = true := by
    obtain ⟨hlower, hupper, -⟩ := h
    rw [windowArgs_iff, hrdlower, hrdupper, hflag]
    exact ⟨rfl, by cases e <;> decide, hlower, hupper⟩
  simp only [windowRequest, hargs, hrdlower, hrdupper, hflag, h.2.2, decide_true, Bool.and_true, if_true]
  cases e <;> rfl

/-- Five bytes that begin with a flag are the bytes of the numbers read from them. -/
theorem windowBytes_rd : ∀ {a : List Byte}, a.length = 5 → rd a 0 ≤ 1 →
    windowBytes (rd a 0 == 1) (rd16 a 1) (rd16 a 3) = a
  | [x, b, c, d, e], _, hflag => by
    have hx : (if rd [x, b, c, d, e] 0 == 1 then (1 : Byte) else 0) = x := by
      have hcases : x.toNat = 0 ∨ x.toNat = 1 := by
        change x.toNat ≤ 1 at hflag
        omega
      rcases hcases with h | h <;> exact BitVec.eq_of_toNat_eq (by simp [rd, h])
    rw [windowBytes, be16_rd16, be16_rd16, hx]
    rfl

theorem windowRequest_of_not_fits {a : List Byte} (h : ∀ e lower upper, windowFits lower upper → a ≠ windowBytes e lower upper) :
    windowRequest T a l = refuse T l .arg := by
  have hbad : ¬ (windowArgs a && decide (rd16 a 1 < rd16 a 3)) = true := fun hgood => by
    simp only [Bool.and_eq_true, decide_eq_true_eq] at hgood
    obtain ⟨hargs, hless⟩ := hgood
    obtain ⟨hlen, hflag, hlower, hupper⟩ := (windowArgs_iff a).1 hargs
    exact h _ _ _ ⟨hlower, hupper, hless⟩ (windowBytes_rd hlen hflag).symm
  rw [windowRequest, if_neg hbad]

/-- Settles O24: limits that fit are read back from their bytes; no other argument is in range. -/
theorem windowSetsTheMonitor : Obligations.WindowSetsTheMonitor := by
  intro s a hasks
  refine ⟨fun e lower upper hfits => ?_, fun hnone => ?_⟩
  · obtain ⟨hlower, hupper, hless, rfl⟩ := hfits
    exact exec_answered hasks rfl rfl (windowRequest_of_fits ⟨hlower, hupper, hless⟩)
  · refine exec_answered hasks rfl rfl (windowRequest_of_not_fits fun e lower upper hfits hbytes => ?_)
    exact hnone e lower upper ⟨hfits.1, hfits.2.1, hfits.2.2, hbytes⟩

/-! ### TABLE_DATA (R32) -/

/-- The region, the offset and the bytes that TABLE_DATA carries. -/
theorem tableDataRequest_eq {n : RegionName} {offset : Nat} {data : List Byte} (hoffset : offset ≤ 8191)
    (hmin : 1 ≤ data.length) (hmax : data.length ≤ 44) :
    tableDataRequest T (byte (regionCode n) :: (be16 offset ++ data)) l = dataRegion T n offset data l := by
  have hregion : regionOfCode (rd (byte (regionCode n) :: (be16 offset ++ data)) 0) = some n := regionOfCode_regionCode n
  have hread : rd16 (byte (regionCode n) :: (be16 offset ++ data)) 1 = offset :=
    rd16_append_be16 (p := [byte (regionCode n)]) rfl (by omega)
  have hlen : (byte (regionCode n) :: (be16 offset ++ data)).length = data.length + 3 := by simp [be16]
  have hdrop : (byte (regionCode n) :: (be16 offset ++ data)).drop 3 = data := rfl
  simp only [tableDataRequest, hregion, hread, hlen, hdrop]
  exact if_pos ⟨by omega, by omega, hoffset⟩

theorem dataRegion_of_no_load {n : RegionName} {offset : Nat} {data : List Byte} (h : T.loadOf n = none) :
    dataRegion T n offset data l = refuse T l .state := by
  rw [dataRegion, h]

/-- TABLE_DATA for the region of the load in progress, by its checks in their order. -/
theorem dataRegion_of_load {n : RegionName} {c : LoadContext} {offset : Nat} {data : List Byte} (h : T.loadOf n = some c) :
    dataRegion T n offset data l =
      if offset ≠ c.expected then { refuse T l .order with data := be16 c.expected }
      else if c.total < offset + data.length then refuse T l .arg
      else { tables := T.append c data, live := l, status := .ok, data := be16 (c.expected + data.length) } := by
  rw [dataRegion, h]

/-- The load context of a LOADING region (R31, R32). -/
theorem Tables.law.context_of_loading {n : RegionName} (hlaw : T.law) (h : (T.get n).state = .loading) :
    ∃ c, T.load = some c ∧ c.region = n ∧ (T.get n).content.length = c.expected := by
  have hload := hlaw.1
  unfold Tables.loadLaw at hload
  split at hload
  · exact absurd h (hload n)
  · next c hc =>
    obtain ⟨-, hlength, -, -, honly⟩ := hload
    obtain rfl := honly n h
    exact ⟨c, hc, rfl, hlength⟩

theorem Tables.append_loadStep (T : Tables) (c : LoadContext) (data : List Byte) :
    LoadStep T c.region { state := .loading, content := (T.get c.region).content ++ data }
      (some { c with expected := c.expected + data.length }) (T.append c data) :=
  ⟨T.get_append_self c data, fun _ hm => T.get_append_of_ne data hm, rfl⟩

/-- Settles O26: the load context of the LOADING region judges the offset, then the room, and then takes the bytes. -/
theorem tableDataStoresInOrder : Obligations.TableDataStoresInOrder := by
  intro s n offset data hlaw hasks hoffset hmin hmax
  have hexec {x : Answered} (hx : dataRegion s.tables n offset data s.taking = x) :
      exec .tableData s = .next (s.answered 5 x.tables x.live x.status x.data) :=
    exec_answered hasks rfl rfl ((tableDataRequest_eq hoffset hmin hmax).trans hx)
  refine ⟨fun hstate => hexec (dataRegion_of_no_load (Tables.loadOf_of_not_loading hlaw hstate)), fun hstate => ?_⟩
  obtain ⟨c, hload, rfl, hlength⟩ := hlaw.context_of_loading hstate
  have hjudge := dataRegion_of_load (l := s.taking) (offset := offset) (data := data) (Tables.loadOf_of_context hload rfl)
  refine ⟨c, hload, rfl, hlength, fun horder => ?_, fun horder hbig => ?_, fun horder hroom => ?_⟩
  · rw [if_pos horder] at hjudge
    exact hexec hjudge
  · rw [if_neg (not_not.2 horder), if_pos hbig] at hjudge
    exact hexec hjudge
  · rw [if_neg (not_not.2 horder), if_neg (by omega)] at hjudge
    subst horder
    exact ⟨_, hexec hjudge, s.tables.append_loadStep c data⟩

end
end Sys2Proof.Machine
end

section
/-! ## Reading back (R36, R37; O28, O29) -/

namespace Sys2Proof.Machine

section
variable {T : Tables} {l : Live} {s : State}

/-! ### TABLE_READ (R36) -/

theorem readRegion_of_not_valid {n : RegionName} {offset count : Nat} (h : (T.get n).state ≠ .valid) :
    readRegion T n offset count l = refuse T l .state := by
  have hv : ¬ T.valid n = true := by simpa [Tables.valid] using h
  rw [readRegion, if_neg hv]

theorem readRegion_of_end {n : RegionName} {offset count : Nat} (h : (T.get n).state = .valid)
    (hend : (T.get n).content.length ≤ offset) : readRegion T n offset count l = refuse T l .notFound := by
  have hv : T.valid n = true := by simpa [Tables.valid] using h
  rw [readRegion, if_pos hv]
  exact if_neg (by omega)

theorem readRegion_of_content {n : RegionName} {offset count : Nat} (h : (T.get n).state = .valid)
    (hin : offset < (T.get n).content.length) : readRegion T n offset count l =
      accept T { l with mgmt := { l.mgmt with
          tableCursor := some (n, offset + (((T.get n).content.drop offset).take count).length) } }
        (byte (regionCode n) :: (be16 offset ++ byte (((T.get n).content.drop offset).take count).length
          :: ((T.get n).content.drop offset).take count)) := by
  have hv : T.valid n = true := by simpa [Tables.valid] using h
  rw [readRegion, if_pos hv]
  exact if_pos hin

/-- The last two arguments of TABLE_READ, whatever stands before them. -/
theorem rd_readArgs {x : List Byte} {count : Nat} {continues : Byte} (hx : x.length = 3) (h : count < 256) :
    rd (x ++ [byte count, continues]) 3 = count ∧ rd (x ++ [byte count, continues]) 4 = continues.toNat
      ∧ (x ++ [byte count, continues]).length = 5 := by
  refine ⟨rd_byte hx.symm h, ?_, by simp [hx]⟩
  simp [rd, hx]

/-- A read with continue set goes on at the cursor; what stands for region and offset is not looked at. -/
theorem tableReadRequest_of_cursor {x : List Byte} {count : Nat} {n : RegionName} {offset : Nat} (hx : x.length = 3)
    (hmin : 1 ≤ count) (hmax : count ≤ 40) (hcursor : l.mgmt.tableCursor = some (n, offset)) :
    tableReadRequest T (x ++ [byte count, 1]) l = readRegion T n offset count l := by
  obtain ⟨hcount, hflag, hlen⟩ := rd_readArgs (continues := 1) hx (show count < 256 by omega)
  rw [tableReadRequest, hcount, hflag, if_pos ⟨hlen, hmin, hmax, by decide⟩, if_pos (by decide), hcursor]

theorem tableReadRequest_of_no_cursor {x : List Byte} {count : Nat} (hx : x.length = 3)
    (hmin : 1 ≤ count) (hmax : count ≤ 40) (hcursor : l.mgmt.tableCursor = none) :
    tableReadRequest T (x ++ [byte count, 1]) l = refuse T l .state := by
  obtain ⟨hcount, hflag, hlen⟩ := rd_readArgs (continues := 1) hx (show count < 256 by omega)
  rw [tableReadRequest, hcount, hflag, if_pos ⟨hlen, hmin, hmax, by decide⟩, if_pos (by decide), hcursor]

/-- A read with continue clear is of the region and the offset it names. -/
theorem tableReadRequest_of_named {n : RegionName} {offset count : Nat} (hmin : 1 ≤ count) (hmax : count ≤ 40)
    (hoffset : offset ≤ 8191) :
    tableReadRequest T [byte (regionCode n), byte (offset / 256), byte offset, byte count, 0] l
      = readRegion T n offset count l := by
  have hargs : [byte (regionCode n), byte (offset / 256), byte offset, byte count, 0]
      = (byte (regionCode n) :: be16 offset) ++ [byte count, 0] := rfl
  have hregion : regionOfCode (rd ((byte (regionCode n) :: be16 offset) ++ [byte count, 0]) 0) = some n :=
    regionOfCode_regionCode n
  have hread : rd16 ((byte (regionCode n) :: be16 offset) ++ [byte count, 0]) 1 = offset :=
    rd16_append_be16 (p := [byte (regionCode n)]) (q := [byte count, 0]) rfl (by omega)
  obtain ⟨hcount, hflag, hlen⟩ := rd_readArgs (x := byte (regionCode n) :: be16 offset) (continues := 0) rfl
    (show count < 256 by omega)
  rw [hargs, tableReadRequest, hcount, hflag, if_pos ⟨hlen, hmin, hmax, by decide⟩, if_neg (by decide), hregion, hread]
  exact if_pos hoffset

/-- Settles O28: where a read begins, by its continue argument; then the region judges it. -/
theorem tableReadReturnsContent : Obligations.TableReadReturnsContent := by
  refine ⟨fun s count x hmin hmax hx hasks hcursor => ?_, fun s n offset count x hmin hmax hoffset hasks => ?_⟩
  · exact exec_answered hasks rfl rfl (tableReadRequest_of_no_cursor hx hmin hmax hcursor)
  · have hexec {y : Answered} (hy : readRegion s.tables n offset count s.taking = y) :
        exec .tableRead s = .next (s.answered 8 y.tables y.live y.status y.data) := by
      rcases hasks with hnamed | ⟨hgoesOn, hx, hcursor⟩
      · exact exec_answered hnamed rfl rfl ((tableReadRequest_of_named hmin hmax hoffset).trans hy)
      · exact exec_answered hgoesOn rfl rfl ((tableReadRequest_of_cursor (l := s.taking) hx hmin hmax hcursor).trans hy)
    exact ⟨fun hstate => hexec (readRegion_of_not_valid hstate),
      fun hstate hend => hexec (readRegion_of_end hstate hend),
      fun hstate hin => hexec (readRegion_of_content hstate hin)⟩

/-! ### RECORD_READ (R37) -/

theorem slotOf_slotNumber (i : Fin 4) : slotOf (byte (i.val + 1)).toNat = some i := by fin_cases i <;> rfl

/-- With next set the item argument is not looked at. -/
theorem readItem_next (i : Fin 4) (item other : Nat) : readItem T i item true l = readItem T i other true l := rfl

/-- The slot, the item and the next argument that RECORD_READ carries. -/
theorem recordReadRequest_eq {i : Fin 4} {item : Nat} {next : Bool} (h : item ≤ 11 ∨ next = true) :
    recordReadRequest T [byte (i.val + 1), byte item, if next then 1 else 0] l = readItem T i item next l := by
  have hslot : slotOf (rd [byte (i.val + 1), byte item, if next then 1 else 0] 0) = some i := slotOf_slotNumber i
  have hitem : rd [byte (i.val + 1), byte item, if next then 1 else 0] 1 = item % 256 := BitVec.toNat_ofNat _ _
  have hnext : rd [byte (i.val + 1), byte item, if next then 1 else 0] 2 = if next then 1 else 0 := by cases next <;> rfl
  rw [recordReadRequest, hslot, hitem, hnext]
  cases next with
  | true => exact readItem_next i _ _
  | false =>
    have hsmall : item ≤ 11 := by simpa using h
    rw [Nat.mod_eq_of_lt (show item < 256 by omega)]
    exact if_pos ⟨rfl, by decide, .inr hsmall⟩

/-- The item a read of a slot asks for, if there is one. -/
def askedItem (r : VehicleRecord) (cursor : Option Nat) (item : Nat) (next : Bool) : Option Nat :=
  if next then nextItem r.axles.length cursor else some item

theorem readItem_of_free {i : Fin 4} {item : Nat} {next : Bool} (h : (l.records.slots.get i).record = none) :
    readItem T i item next l = refuse T l .state := by
  rw [readItem, h]

section
variable {i : Fin 4} {item : Nat} {next : Bool} {r : VehicleRecord}
  (hrecord : (l.records.slots.get i).record = some r) (hstate : (l.records.slots.get i).state ≠ .free)
include hrecord hstate

/-- An item that the record has is returned, and the cursor records it. -/
theorem readItem_of_content {k : Nat} {c : List Byte} (hk : askedItem r (l.mgmt.recordCursor.get i) item next = some k)
    (hc : itemContent (l.records.slots.get i).state r k = some c) :
    readItem T i item next l =
      accept T { l with mgmt := { l.mgmt with recordCursor := l.mgmt.recordCursor.set i (some k) } }
        (byte (i.val + 1) :: byte k :: c) := by
  simp only [askedItem] at hk
  simp only [readItem, hrecord, if_neg hstate, hk, hc]
  rfl

theorem readItem_of_no_item (hk : askedItem r (l.mgmt.recordCursor.get i) item next = none) :
    readItem T i item next l = refuse T l .notFound := by
  simp only [askedItem] at hk
  simp only [readItem, hrecord, if_neg hstate, hk]

theorem readItem_of_no_content {k : Nat} (hk : askedItem r (l.mgmt.recordCursor.get i) item next = some k)
    (hc : itemContent (l.records.slots.get i).state r k = none) :
    readItem T i item next l = refuse T l .notFound := by
  simp only [askedItem] at hk
  simp only [readItem, hrecord, if_neg hstate, hk, hc]

end

/-! ### Items (R37, R192) -/

theorem nextItem_axle {axles k : Nat} (h : k < axles) (htotals : k ≠ 11) : nextItem axles (some k) = some (k + 1) := by
  simp [nextItem, itemTotals, h, htotals]

theorem nextItem_totals {axles k : Nat} (h : axles ≤ k) (htotals : k ≠ 11) : nextItem axles (some k) = some 11 := by
  simp [nextItem, itemTotals, htotals, Nat.not_lt.2 h]

theorem nextItem_end (axles : Nat) : nextItem axles (some 11) = none := rfl

theorem itemContent_axle (x : SlotState) (r : VehicleRecord) {k : Nat} (hmin : 1 ≤ k) (hmax : k ≤ 10) :
    itemContent x r k = (r.axle? k).map axleItem := by
  rw [itemContent, if_neg (by omega), if_neg (by rw [itemTotals]; omega)]

/-- Settles O29: the item asked for, named or next to the cursor, and whether the record has it. -/
theorem recordReadReturnsAnItem : Obligations.RecordReadReturnsAnItem := by
  intro s i item next hasks hitem hlaw
  have hexec {y : Answered} (hy : readItem s.tables i item next s.taking = y) :
      exec .recordRead s = .next (s.answered 9 y.tables y.live y.status y.data) :=
    exec_answered hasks rfl rfl ((recordReadRequest_eq hitem).trans hy)
  obtain ⟨⟨-, hfree⟩, -⟩ := hlaw
  refine ⟨fun hstate => hexec (readItem_of_free ((hfree i).1 hstate)), fun r hheld => ?_⟩
  have hrecord : (s.taking.records.slots.get i).record = some r := hheld
  have hstate : (s.taking.records.slots.get i).state ≠ .free := fun h => by
    have hnone := (hfree i).1 h
    rw [hheld] at hnone
    cases hnone
  refine ⟨fun k hask => ?_, fun k a hask hmin hmax haxle => ?_, fun hask => ?_, fun hask => ?_⟩
  · obtain rfl : k = 0 := by cases next <;> exact hask.2
    have hk : askedItem r (s.taking.mgmt.recordCursor.get i) item next = some 0 := by
      cases next with
      | true => exact congrArg (nextItem _) hask.1
      | false => exact congrArg some hask.1
    exact hexec (readItem_of_content hrecord hstate hk rfl)
  · have hk : askedItem r (s.taking.mgmt.recordCursor.get i) item next = some k := by
      cases next with
      | true =>
        obtain ⟨hcursor, -, hle⟩ := hask
        have hnext := nextItem_axle (show k - 1 < r.axles.length by omega) (by omega)
        rw [Nat.sub_add_cancel hmin] at hnext
        exact (congrArg (nextItem _) hcursor).trans hnext
      | false => exact congrArg some hask
    refine hexec (readItem_of_content hrecord hstate hk ?_)
    rw [itemContent_axle _ _ hmin hmax, haxle]
    rfl
  · have hk : askedItem r (s.taking.mgmt.recordCursor.get i) item next = some 11 := by
      cases next with
      | true =>
        obtain ⟨k, hcursor, hle, hmax⟩ := hask
        exact (congrArg (nextItem _) hcursor).trans (nextItem_totals hle (by omega))
      | false => exact congrArg some hask
    exact hexec (readItem_of_content hrecord hstate hk rfl)
  · cases next with
    | true => exact hexec (readItem_of_no_item hrecord hstate ((congrArg (nextItem _) hask).trans (nextItem_end _)))
    | false =>
      obtain ⟨hmin, hmax, hnone⟩ := hask
      refine hexec (readItem_of_no_content hrecord hstate (k := item) rfl ?_)
      rw [itemContent_axle _ _ hmin hmax, hnone]
      rfl

end
end Sys2Proof.Machine
end

section
/-! ## Requests of a slot (R121, R179, R180, R187; O36) -/

namespace Sys2Proof.Machine

section
variable {T : Tables} {l : Live} {s : State} {i : Fin 4}

theorem slotArg_slotNumber (i : Fin 4) : slotArg [byte (i.val + 1)] = some i := by fin_cases i <;> rfl

theorem Live.printQueued_iff : l.printQueued i = true ↔ inPrintQueue l i := by
  simp [Live.printQueued, inPrintQueue]

theorem Live.resultPending_iff : l.resultPending i = true ↔ resultWaits l i := by
  simp [Live.resultPending, resultWaits]

theorem Live.printHead_iff : l.printHead i = true ↔ l.printer.queue.head?.map (·.slot) = some i := by
  simp [Live.printHead]

theorem Printer.underWay_iff {p : Printer} : p.underWay = true ↔ p.composer = .composing ∨ p.composer = .draining := by
  simp [Printer.underWay]

/-- The head of the print queue stands in it. -/
theorem inPrintQueue_of_head (h : l.printer.queue.head?.map (·.slot) = some i) : inPrintQueue l i := by
  obtain ⟨e, he, hslot⟩ := Option.map_eq_some_iff.1 h
  exact ⟨e, List.mem_of_mem_head? he, hslot⟩

/-! ### RECORD_RELEASE (R121) -/

theorem recordReleaseRequest_of_busy (h : inPrintQueue l i ∨ resultWaits l i) :
    recordReleaseRequest T [byte (i.val + 1)] l = refuse T l .busy := by
  have hbusy : (l.printQueued i || l.resultPending i) = true := by
    rw [Bool.or_eq_true, Live.printQueued_iff, Live.resultPending_iff]
    exact h
  simp only [recordReleaseRequest, slotArg_slotNumber, if_pos hbusy]

theorem recordReleaseRequest_of_idle (hqueue : ¬ inPrintQueue l i) (hresult : ¬ resultWaits l i) :
    recordReleaseRequest T [byte (i.val + 1)] l =
      if l.slotState i = .free ∨ l.slotState i = .opened then refuse T l .state
      else accept T (l.freeTheSlot i) [byte (i.val + 1)] := by
  have hidle : ¬ (l.printQueued i || l.resultPending i) = true := by
    rw [Bool.or_eq_true, Live.printQueued_iff, Live.resultPending_iff]
    exact not_or.2 ⟨hqueue, hresult⟩
  simp only [recordReleaseRequest, slotArg_slotNumber, if_neg hidle]
  rfl

/-! ### PRINT (R180) -/

theorem printRequest_of_unfit (hclosed : l.slotState i ≠ .closed) (hissued : l.slotState i ≠ .issued) :
    printRequest T [byte (i.val + 1)] l = refuse T l .state := by
  simp only [printRequest, slotArg_slotNumber]
  exact if_pos ⟨hclosed, hissued⟩

theorem printRequest_of_fit (h : l.slotState i = .closed ∨ l.slotState i = .issued) :
    printRequest T [byte (i.val + 1)] l =
      if l.printQueued i then refuse T l .busy else accept T (l.appendPrint i) [byte (l.printer.queue.length + 1)] := by
  simp only [printRequest, slotArg_slotNumber]
  exact if_neg (by rw [not_and_or, not_not, not_not]; exact h)

/-! ### PRINT_CANCEL (R187) -/

theorem printCancelRequest_of_queued (h : inPrintQueue l i) :
    printCancelRequest T [byte (i.val + 1)] l = accept T (l.cancelPrint i) [] := by
  simp only [printCancelRequest, slotArg_slotNumber, if_pos (Live.printQueued_iff.2 h)]

theorem printCancelRequest_of_not_queued (h : ¬ inPrintQueue l i) :
    printCancelRequest T [byte (i.val + 1)] l = refuse T l .notFound := by
  simp only [printCancelRequest, slotArg_slotNumber, if_neg (Live.printQueued_iff.not.2 h)]

/-- An entry that leaves the print queue sets COMPOSER_FREE when it leaves it empty (R23, R179). -/
theorem Live.setPrintQueue_eq (l : Live) (q : List PrintEntry) : l.setPrintQueue q = { l with
    printer := { l.printer with queue := q }
    mgmt := { l.mgmt with sticky := { l.mgmt.sticky with
      composerFree := l.mgmt.sticky.composerFree || q.isEmpty } } } := by
  cases q with
  | nil => simp [Live.setPrintQueue, Live.setSticky, Live.setPrinter]
  | cons e q => simp [Live.setPrintQueue, Live.setPrinter]

/-- The entry of a slot without a job under way. -/
theorem Live.cancelPrint_of_waiting
    (h : l.printer.queue.head?.map (·.slot) ≠ some i ∨ (l.printer.composer ≠ .composing ∧ l.printer.composer ≠ .draining)) :
    l.cancelPrint i = l.setPrintQueue (l.printer.queue.filter fun e => e.slot != i) := by
  have hno : ¬ (l.printHead i && l.printer.underWay) = true := by
    rw [Bool.and_eq_true, Live.printHead_iff, Printer.underWay_iff, not_and_or, not_or]
    exact h
  simp only [Live.cancelPrint, if_neg hno]

/-- The entry of the slot whose job is under way: the job is abandoned. -/
theorem Live.cancelPrint_of_job (hhead : l.printer.queue.head?.map (·.slot) = some i)
    (hway : l.printer.composer = .composing ∨ l.printer.composer = .draining) :
    l.cancelPrint i = (l.setPrintQueue (l.printer.queue.filter fun e => e.slot != i)).setPrinter
      { ({ l.printer with queue := l.printer.queue.filter fun e => e.slot != i }).abandon l.lines.bandAck with
        composer := .idle } := by
  have hjob : (l.printHead i && l.printer.underWay) = true := by
    rw [Bool.and_eq_true, Live.printHead_iff, Printer.underWay_iff]
    exact ⟨hhead, hway⟩
  simp only [Live.cancelPrint, if_pos hjob, Live.setPrintQueue_eq]

/-- Settles O36: each request's refusals in their order, and what an accepted one does to the slot or to the print queue. -/
theorem slotRequestsAreJudged : Obligations.SlotRequestsAreJudged := by
  intro s i
  refine ⟨fun hasks => ?_, fun hasks => ?_, fun hasks => ?_⟩
  · refine ⟨fun hbusy => exec_answered hasks rfl rfl (recordReleaseRequest_of_busy hbusy),
      fun hqueue hresult hstate => ?_, fun hqueue hresult hfree hopen => ?_⟩
    · exact exec_answered hasks rfl rfl ((recordReleaseRequest_of_idle (l := s.taking) hqueue hresult).trans (if_pos hstate))
    · exact exec_answered hasks rfl rfl
        ((recordReleaseRequest_of_idle (l := s.taking) hqueue hresult).trans (if_neg (not_or.2 ⟨hfree, hopen⟩)))
  · refine ⟨fun hclosed hissued => exec_answered hasks rfl rfl (printRequest_of_unfit hclosed hissued),
      fun hstate hqueue => ?_, fun hstate hqueue => ?_⟩
    · exact exec_answered hasks rfl rfl ((printRequest_of_fit (l := s.taking) hstate).trans (if_pos (Live.printQueued_iff.2 hqueue)))
    · exact exec_answered hasks rfl rfl ((printRequest_of_fit (l := s.taking) hstate).trans (if_neg (Live.printQueued_iff.not.2 hqueue)))
  · have hexec (hqueue : inPrintQueue s.live i) {m : Live} (hm : s.taking.cancelPrint i = m) :
        exec .printCancel s = .next (s.answered 23 s.tables m .ok []) :=
      hm ▸ exec_answered hasks rfl rfl (printCancelRequest_of_queued hqueue)
    refine ⟨fun hqueue => exec_answered hasks rfl rfl (printCancelRequest_of_not_queued hqueue),
      fun hqueue hwaiting => ?_, fun hhead hway => ?_⟩
    · exact hexec hqueue ((Live.cancelPrint_of_waiting (l := s.taking) hwaiting).trans (Live.setPrintQueue_eq _ _))
    · refine hexec (inPrintQueue_of_head hhead) ((Live.cancelPrint_of_job (l := s.taking) hhead hway).trans ?_)
      rw [Live.setPrintQueue_eq]
      rfl

end
end Sys2Proof.Machine
end

section
/-! ## LANE_MODE (R24, R25, R157; O23) -/

namespace Sys2Proof.Machine

section
variable {T : Tables} {l old : Live} {s : State} {m : LaneMode}

/-! ### Arguments and conditions (R24) -/

theorem modeOfCode_modeCode (m : LaneMode) : modeOfCode (byte (modeCode m)).toNat = some m := by cases m <;> rfl

/-- A code that reads as a mode is the mode's code. -/
theorem eq_modeCode_of_modeOfCode {k : Nat} (h : modeOfCode k = some m) : k = modeCode m := by
  unfold modeOfCode at h
  split at h <;> cases h <;> rfl

theorem Live.modeFree_iff : l.modeFree T = true ↔ laneFree T l := by
  have hstation (st : Station) : (!T.present st || l.stationState st == .idle || l.stationState st == .seated
      || l.stationState st == .offline) = true ↔
      (T.present st = true → l.stationState st = .idle ∨ l.stationState st = .seated ∨ l.stationState st = .offline) := by
    simp only [Bool.or_eq_true, beq_iff_eq, Bool.not_eq_true']
    cases T.present st <;> simp [or_assoc]
  simp only [Live.modeFree, Bool.and_eq_true, Option.isNone_iff_eq_none, beq_iff_eq, List.all_eq_true, hstation, laneFree,
    and_assoc]
  exact and_congr_right fun _ => and_congr_right fun _ => ⟨fun h st => h st (by cases st <;> decide), fun h st _ => h st⟩

theorem laneModeRequest_of_bad {a : List Byte} (h : ∀ m : LaneMode, a ≠ [byte (modeCode m)]) :
    laneModeRequest T a l = refuse T l .arg := by
  unfold laneModeRequest
  split
  · next m hm =>
    refine if_pos fun hlen => h m ?_
    obtain ⟨x, rfl⟩ := List.length_eq_one_iff.1 hlen
    rw [← eq_modeCode_of_modeOfCode hm, byte_rd]
    rfl
  · rfl

/-- LANE_MODE with a mode's code: STATE unless the lane is free. -/
theorem laneModeRequest_eq (m : LaneMode) : laneModeRequest T [byte (modeCode m)] l =
    if l.modeFree T then accept T (if m = l.mode then l else l.changeMode T m) [byte (modeCode m)] else refuse T l .state := by
  have hmode : modeOfCode (rd [byte (modeCode m)] 0) = some m := modeOfCode_modeCode m
  rw [laneModeRequest, hmode]
  exact if_neg (by simp)

theorem laneModeRequest_of_not_free (h : ¬ laneFree T l) : laneModeRequest T [byte (modeCode m)] l = refuse T l .state := by
  rw [laneModeRequest_eq, if_neg (Live.modeFree_iff.not.2 h)]

theorem laneModeRequest_of_same (h : laneFree T l) (hm : m = l.mode) :
    laneModeRequest T [byte (modeCode m)] l = accept T l [byte (modeCode m)] := by
  rw [laneModeRequest_eq, if_pos (Live.modeFree_iff.2 h), if_pos hm]

theorem laneModeRequest_of_other (h : laneFree T l) (hm : m ≠ l.mode) :
    laneModeRequest T [byte (modeCode m)] l = accept T (l.changeMode T m) [byte (modeCode m)] := by
  rw [laneModeRequest_eq, if_pos (Live.modeFree_iff.2 h), if_neg hm]

theorem Live.changeMode_eq (T : Tables) (m : LaneMode) (l : Live) : l.changeMode T m =
    if m = .service then stations.foldl (fun x st => if T.present st then x.enterOffline T st else x) { l with mode := m }
    else if l.mode = .service then stations.foldl (Live.bringUp T) { l with mode := m }
    else { l with mode := m } := rfl

/-! ### Stations under a STANDBY sequencer, which sees no change of them (R128, R133) -/

theorem Live.enter_of_standby (h : l.seq.state = .standby) (st : Station) (x : StationState) :
    l.enter T st x = l.putState st x := by
  have hseq : (l.putState st x).seq = l.seq := by cases st <;> rfl
  rw [Live.enter, Live.seqSees, hseq, h]

/-- A station sent OFFLINE if it is present (R25, R55). -/
def Live.sentOffline (T : Tables) (l : Live) : Station → Live
  | .ps => { l with ps := if T.present .ps then { l.ps with state := .offline, crossing := none } else l.ps }
  | .ra => { l with ra := if T.present .ra then l.ra.putOffline else l.ra }
  | .rb => { l with rb := if T.present .rb then l.rb.putOffline else l.rb }

theorem Live.sentOffline_of_present (h : l.seq.state = .standby) {st : Station} (hst : T.present st = true) :
    l.enterOffline T st = l.sentOffline T st := by
  cases st with
  | ps =>
    simp only [Live.enterOffline, stationRoller, Live.sentOffline, if_pos hst]
    exact Live.enter_of_standby (by exact h) .ps .offline
  | ra =>
    simp only [Live.enterOffline, stationRoller, Live.sentOffline, if_pos hst]
    exact Live.enter_of_standby (by exact h) .ra .offline
  | rb =>
    simp only [Live.enterOffline, stationRoller, Live.sentOffline, if_pos hst]
    exact Live.enter_of_standby (by exact h) .rb .offline

theorem Live.sentOffline_of_absent {st : Station} (hst : T.present st = false) : l.sentOffline T st = l := by
  cases st <;> simp [Live.sentOffline, hst]

/-- The stations sent OFFLINE one after the other. -/
theorem Live.foldl_sentOffline (sts : List Station) (h : l.seq.state = .standby) :
    sts.foldl (fun x st => if T.present st then x.enterOffline T st else x) l = sts.foldl (Live.sentOffline T) l := by
  induction sts generalizing l with
  | nil => rfl
  | cons st sts ih =>
    have hstep : (if T.present st then l.enterOffline T st else l) = l.sentOffline T st := by
      cases hst : T.present st with
      | true => exact Live.sentOffline_of_present h hst
      | false => exact (Live.sentOffline_of_absent hst).symm
    have hseq : (l.sentOffline T st).seq.state = .standby := by cases st <;> exact h
    rw [List.foldl_cons, List.foldl_cons, hstep, ih hseq]

/-- SERVICE sends every present station OFFLINE, and nothing else changes (R25). -/
theorem Live.changeMode_service (h : l.seq.state = .standby) : l.changeMode T .service = { l with
    mode := .service
    ps := if T.present .ps then { l.ps with state := .offline, crossing := none } else l.ps
    ra := if T.present .ra then l.ra.putOffline else l.ra
    rb := if T.present .rb then l.rb.putOffline else l.rb } := by
  rw [Live.changeMode_eq, if_pos rfl]
  exact Live.foldl_sentOffline (l := { l with mode := .service }) stations h

/-! ### Stations that come up (R25, R55, R157) -/

/-- The sequencer, which is STANDBY, and the board are as they were. -/
def StandsBy (old l : Live) : Prop := old.seq.state = .standby ∧ l.seq = old.seq ∧ l.guide = old.guide

theorem StandsBy.standby (h : StandsBy old l) : l.seq.state = .standby := h.2.1 ▸ h.1

theorem StandsBy.enter (h : StandsBy old l) (st : Station) (x : StationState) : StandsBy old (l.enter T st x) := by
  obtain ⟨hold, hseq, hguide⟩ := h
  rw [Live.enter_of_standby (hseq ▸ hold)]
  cases st <;> exact ⟨hold, hseq, hguide⟩

theorem StandsBy.setRoller (h : StandsBy old l) (r : Roller) (x : RollerStation) : StandsBy old (l.setRoller r x) := by
  cases r <;> exact h

/-- A hold reaches a station that is IDLE. -/
theorem StandsBy.holdStation_of_idle (h : StandsBy old l) {st : Station} (hidle : l.stationState st = .idle)
    (held : List Station) : StandsBy old (l.holdStation T held st) := by
  unfold Live.holdStation
  rw [hidle]
  cases st with
  | ps => exact StandsBy.enter (l := { l with ps := { l.ps with crossing := none } }) h .ps .faulted
  | ra => exact (h.setRoller .ra _).enter .ra .faulted
  | rb => exact (h.setRoller .rb _).enter .rb .faulted

theorem StandsBy.bringUp (h : StandsBy old l) (st : Station) : StandsBy old (l.bringUp T st) := by
  unfold Live.bringUp
  split
  · unfold Live.coverIdle
    split
    · next hcovered => exact (h.enter st .idle).holdStation_of_idle hcovered.1 [st]
    · exact h.enter st .idle
  · exact h

theorem StandsBy.bringUps (h : StandsBy old l) (sts : List Station) : StandsBy old (sts.foldl (Live.bringUp T) l) := by
  induction sts generalizing l with
  | nil => exact h
  | cons st sts ih => exact ih (h.bringUp st)

/-- Settles O23: the refusals in their order, then the change by the mode that is entered or left. -/
theorem laneModeIsSetWhenTheLaneIsFree : Obligations.LaneModeIsSetWhenTheLaneIsFree := by
  intro s a hasks
  refine ⟨fun hbad => exec_answered hasks rfl rfl (laneModeRequest_of_bad hbad), fun m ha => ?_⟩
  subst ha
  have hchange (hfree : laneFree s.tables s.live) (hm : m ≠ s.live.mode) {l : Live} (hl : s.taking.changeMode s.tables m = l) :
      exec .laneMode s = .next (s.answered 2 s.tables l .ok [byte (modeCode m)]) :=
    hl ▸ exec_answered hasks rfl rfl (laneModeRequest_of_other (l := s.taking) hfree hm)
  refine ⟨fun hbusy => exec_answered hasks rfl rfl (laneModeRequest_of_not_free hbusy),
    fun hfree hm => exec_answered hasks rfl rfl (laneModeRequest_of_same (l := s.taking) hfree hm),
    fun hfree hm hto hfrom => ?_, fun hfree hm hto => ?_, fun hfree hm hfrom => ?_⟩
  · refine hchange hfree hm ?_
    rw [Live.changeMode_eq, if_neg hto]
    exact if_neg hfrom
  · subst hto
    exact hchange hfree hm (Live.changeMode_service (l := s.taking) hfree.2.1)
  · have hups : s.taking.changeMode s.tables m = stations.foldl (Live.bringUp s.tables) { s.taking with mode := m } := by
      rw [Live.changeMode_eq, if_neg (fun h => hm (h.trans hfrom.symm))]
      exact if_pos hfrom
    have hstands : StandsBy { s.taking with mode := m } { s.taking with mode := m } := ⟨hfree.2.1, rfl, rfl⟩
    obtain ⟨-, hseq, hguide⟩ := hstands.bringUps (T := s.tables) stations
    exact ⟨_, hchange hfree hm hups,
      Quiet.foldl (fun x st hx => Live.bringUp_quiet hx st) stations (.refl _), hseq, hguide,
      fun st => Live.bringUps_stationState _ st⟩

end
end Sys2Proof.Machine
end

section
/-! ## A SAMPLE frame steered to an entry (R42 to R49; O15, O16, O51)

Each operation of the steering unit is said once as an equation; `Sampled.exec_eq` puts them together for the samples whose window is
NEVER, so that what is left of a SAMPLE frame is the delivery of its value. -/

namespace Sys2Proof.Machine

section
variable {T : Tables} {l : Live} {s : State} {i : Nat} {e : ChannelEntry} {c : ChannelState}

/-! ### The entries of the channel map (R41, R42) -/

theorem indexOfFirst_some {α : Type} {p : α → Bool} : ∀ {as : List α} {n j : Nat}, indexOfFirst p as n = some j →
    n ≤ j ∧ ∃ a, as[j - n]? = some a ∧ p a = true
  | [], _, _, h => by cases h
  | a :: as, n, j, h => by
    unfold indexOfFirst at h
    split at h
    · rename_i ha
      cases h
      exact ⟨Nat.le_refl _, a, by simp, ha⟩
    · obtain ⟨hle, b, hb, hp⟩ := indexOfFirst_some h
      refine ⟨by omega, b, ?_, hp⟩
      rw [show j - n = (j - (n + 1)) + 1 by omega]
      exact hb

theorem Tables.enabled_of_entryOfHead {head channel : Nat} (h : T.entryOfHead head channel = some i)
    (he : T.entries[i]? = some e) : e.enabled = true := by
  obtain ⟨-, a, ha, hp⟩ := indexOfFirst_some h
  rw [Nat.sub_zero, he, Option.some.injEq] at ha
  subst ha
  simp only [Bool.and_eq_true] at hp
  exact hp.1.1

theorem Tables.role_of_entryOfRole {st : Option Station} {role : Role} (h : T.entryOfRole st role = some i)
    (he : T.entries[i]? = some e) : e.role = role := by
  obtain ⟨-, a, ha, hp⟩ := indexOfFirst_some h
  rw [Nat.sub_zero, he, Option.some.injEq] at ha
  subst ha
  simp only [Bool.and_eq_true, beq_iff_eq] at hp
  exact hp.2

/-! ### One entry's state (R42, R53) -/

/-- The state of one entry replaced. -/
def Live.putChannel (i : Nat) (y : ChannelState) (l : Live) : Live :=
  { l with steer := { l.steer with channels := l.steer.channels.set i y } }

theorem Live.updChannel_eq (h : l.steer.channels[i]? = some c) (f : ChannelState → ChannelState) :
    l.updChannel i f = l.putChannel i (f c) := by
  simp only [Live.updChannel, h]
  rfl

theorem Live.putChannel_self (h : l.steer.channels[i]? = some c) : l.putChannel i c = l := by
  obtain ⟨hi, rfl⟩ := List.getElem?_eq_some_iff.1 h
  simp [Live.putChannel]

@[simp] theorem Live.putChannel_putChannel (l : Live) (i : Nat) (x y : ChannelState) :
    (l.putChannel i x).putChannel i y = l.putChannel i y := by
  simp [Live.putChannel]

theorem Live.putChannel_channel (h : l.steer.channels[i]? = some c) (y : ChannelState) :
    (l.putChannel i y).steer.channels[i]? = some y := by
  obtain ⟨hi, -⟩ := List.getElem?_eq_some_iff.1 h
  simp [Live.putChannel, hi]

@[simp] theorem Live.putChannel_offset (l : Live) (i : Nat) (y : ChannelState) (e : ChannelEntry) :
    (l.putChannel i y).offset e = l.offset e := by
  unfold Live.offset
  cases e.station with
  | none => rfl
  | some st => cases st <;> rfl

theorem any_zip_eq_true {α β : Type} {as : List α} {bs : List β} {p : α × β → Bool} :
    (as.zip bs).any p = true ↔ ∃ (j : Nat) (a : α) (b : β), as[j]? = some a ∧ bs[j]? = some b ∧ p (a, b) = true := by
  simp only [List.any_eq_true, List.mem_iff_getElem?, List.getElem?_zip_eq_some]
  constructor
  · rintro ⟨⟨a, b⟩, ⟨j, ha, hb⟩, hp⟩
    exact ⟨j, a, b, ha, hb, hp⟩
  · rintro ⟨j, a, b, ha, hb, hp⟩
    exact ⟨(a, b), ⟨j, ha, hb⟩, hp⟩

theorem any_zip_zipIdx_eq_true {α β : Type} {as : List α} {bs : List β} {p : (α × β) × Nat → Bool} :
    (as.zip bs).zipIdx.any p = true ↔ ∃ (j : Nat) (a : α) (b : β), as[j]? = some a ∧ bs[j]? = some b ∧ p ((a, b), j) = true := by
  simp only [List.any_eq_true, List.mem_iff_getElem?, List.getElem?_zipIdx, Option.map_eq_some_iff,
    List.getElem?_zip_eq_some, Nat.zero_add]
  constructor
  · rintro ⟨_, ⟨j, ⟨a, b⟩, ⟨ha, hb⟩, rfl⟩, hp⟩
    exact ⟨j, a, b, ha, hb, hp⟩
  · rintro ⟨j, a, b, ha, hb, hp⟩
    exact ⟨_, ⟨j, (a, b), ⟨ha, hb⟩, rfl⟩, hp⟩

/-- Another entry of the station, or of none, has a flag set. -/
def Live.otherEntry (T : Tables) (i : Nat) (st : Option Station) (flag : ChannelState → Bool) (l : Live) : Bool :=
  (T.entries.zip l.steer.channels).zipIdx.any fun d => d.2 != i && d.1.1.station == st && flag d.1.2

theorem Live.otherEntry_eq_true (st : Option Station) (flag : ChannelState → Bool) : l.otherEntry T i st flag = true ↔
    ∃ (j : Nat) (a : ChannelEntry) (b : ChannelState), T.entries[j]? = some a ∧ l.steer.channels[j]? = some b
      ∧ (j != i && a.station == st && flag b) = true := any_zip_zipIdx_eq_true

@[simp] theorem Live.otherEntry_putChannel (l : Live) (st : Option Station) (y : ChannelState)
    (flag : ChannelState → Bool) : (l.putChannel i y).otherEntry T i st flag = l.otherEntry T i st flag := by
  rw [Bool.eq_iff_iff, Live.otherEntry_eq_true, Live.otherEntry_eq_true]
  refine exists_congr fun j => exists_congr fun a => exists_congr fun b => ?_
  by_cases hj : j = i
  · simp [hj]
  · simp [Live.putChannel, List.getElem?_set_ne (Ne.symm hj)]

/-- Once an entry has a flag clear, the flag is set where another entry has it set. -/
theorem Live.anyEntry_putChannel (hc : l.steer.channels[i]? = some c) (st : Option Station) {y : ChannelState}
    {flag : ChannelState → Bool} (hy : flag y = false) :
    (l.putChannel i y).anyEntry T st flag = l.otherEntry T i st flag := by
  obtain ⟨hi, -⟩ := List.getElem?_eq_some_iff.1 hc
  rw [Bool.eq_iff_iff, Live.anyEntry, any_zip_eq_true, Live.otherEntry_eq_true]
  refine exists_congr fun j => exists_congr fun a => exists_congr fun b => ?_
  by_cases hj : j = i
  · subst hj
    simp only [Live.putChannel, List.getElem?_set_self hi, Option.some.injEq, bne_self_eq_false, Bool.false_and,
      Bool.false_eq_true, and_false, iff_false]
    rintro ⟨-, rfl, hp⟩
    simp [hy] at hp
  · simp [Live.putChannel, List.getElem?_set_ne (Ne.symm hj), hj]

/-! ### Conditions that a value may end (R155) -/

/-- The report of the end of a condition, where one is due. -/
def Live.endIf (now : Bool) (src : Source) (scope : Scope) (l : Live) : Live := if now then l.endCondition src scope else l

theorem Live.endIf_eq (now : Bool) (src : Source) (scope : Scope) (l : Live) : l.endIf now src scope = { l with
    faults := if now then l.faults.map fun f => if f.is src scope then { f with present := false } else f else l.faults } := by
  cases now <;> rfl

@[simp] theorem Live.endIf_false (src : Source) (scope : Scope) (l : Live) : l.endIf false src scope = l := rfl

@[simp] theorem Live.endIf_steer (now : Bool) (src : Source) (scope : Scope) (l : Live) :
    (l.endIf now src scope).steer = l.steer := by cases now <;> rfl

@[simp] theorem Live.endIf_otherEntry (now : Bool) (src : Source) (scope : Scope) (l : Live) (st : Option Station)
    (flag : ChannelState → Bool) : (l.endIf now src scope).otherEntry T i st flag = l.otherEntry T i st flag := by
  cases now <;> rfl

@[simp] theorem Live.endIf_windowApplies (now : Bool) (src : Source) (scope : Scope) (l : Live) (e : ChannelEntry) :
    (l.endIf now src scope).windowApplies T e = l.windowApplies T e := by cases now <;> rfl

/-! ### Silence ends (R42, R48, R49) -/

/-- The entry once a SAMPLE frame has restarted its silence timer. -/
def ChannelState.sounding (c : ChannelState) : ChannelState :=
  { c with silence := some 0, silent := false, silenceRaised := false }

theorem ChannelEntry.acts_iff : e.acts T = true ↔ ∀ st, e.station = some st → T.present st = true := by
  unfold ChannelEntry.acts
  cases e.station <;> simp

theorem ChannelEntry.timed_eq (he : e.enabled = true) : e.timed T = (e.station.isSome && e.acts T) := by
  unfold ChannelEntry.timed ChannelEntry.acts
  cases e.station <;> simp [he]

theorem Live.endSilence_of_untimed (h : e.timed T = false) : l.endSilence T i e = l := by
  simp [Live.endSilence, h]

/-- An entry once a SAMPLE frame has been taken for it: it is heard, if it names a station. -/
def ChannelEntry.heard (e : ChannelEntry) (c : ChannelState) : ChannelState := if e.station = none then c else c.sounding

/-- An entry's state replaced, with the condition of HEAD_SILENT ended where it was the last silent one of its station. -/
def Live.hears (T : Tables) (i : Nat) (e : ChannelEntry) (c y : ChannelState) (l : Live) : Live :=
  (l.putChannel i y).endIf (e.station.isSome && c.silent && !l.otherEntry T i e.station (·.silent)) .headSilent (entryScope e)

theorem Live.endSilence_of_acting (hc : l.steer.channels[i]? = some c) (hen : e.enabled = true) (ha : e.acts T = true) :
    l.endSilence T i e = l.hears T i e c (e.heard c) := by
  unfold Live.hears
  cases hst : e.station with
  | none =>
    rw [Live.endSilence_of_untimed (by rw [ChannelEntry.timed_eq hen, hst]; rfl), ChannelEntry.heard, if_pos hst,
      Live.putChannel_self hc]
    rfl
  | some st =>
    have htimed : e.timed T = true := by rw [ChannelEntry.timed_eq hen, hst, ha]; rfl
    have hother := Live.anyEntry_putChannel (T := T) (y := c.sounding) hc (some st) (flag := (·.silent)) rfl
    rw [ChannelEntry.heard, if_neg (by simp [hst]), entryScope, hst, ← hother]
    simp only [Live.endSilence, htimed, if_true, hst, hc, Option.map_some, Option.getD_some, Live.updChannel_eq hc]
    rfl

/-! ### The window (R46, R47) -/

theorem Live.windowApplies_iff (h : e.acts T = true) : l.windowApplies T e = true ↔
    e.applicability = .always ∨ (e.applicability = .active ∧ ∃ st, (e.station = none ∨ e.station = some st)
      ∧ T.present st = true ∧ l.stationState st ∈ [StationState.spinning, .ready, .measuring, .taring]) := by
  have hwork : ∀ x : StationState, x.atWork = true ↔ x ∈ [StationState.spinning, .ready, .measuring, .taring] := by
    intro x; cases x <;> decide
  have hall : ∀ st, st ∈ stations := by intro st; cases st <;> decide
  rw [Live.windowApplies, h, Bool.true_and]
  cases e.applicability with
  | always => simp
  | never => simp
  | active =>
    cases hst : e.station with
    | none => simp [Live.anyAtWork, hwork, hall]
    | some st => simp [hwork, ChannelEntry.acts_iff.1 h st hst]

theorem Live.judgeWindow_of_absent (h : e.acts T = false) (v : Int) : l.judgeWindow T i e v = (l, false) := by
  unfold Live.judgeWindow
  cases l.steer.channels[i]? <;> simp [h]

theorem Live.judgeWindow_of_inside (hc : l.steer.channels[i]? = some c) (ha : e.acts T = true) {v : Int}
    (hv : e.outsideOf v = false) : l.judgeWindow T i e v =
      ((l.putChannel i { c with outside := false, windowRaised := false }).endIf
        (c.outside && !l.otherEntry T i e.station (·.outside)) .channelWindow (entryScope e), false) := by
  have hother := Live.anyEntry_putChannel (T := T) (y := { c with outside := false, windowRaised := false }) hc e.station
    (flag := (·.outside)) rfl
  rw [← hother]
  simp only [Live.judgeWindow, hc, ha, hv, if_true, Bool.false_eq_true, if_false, Live.updChannel_eq hc]
  rfl

theorem Live.judgeWindow_of_outside (hc : l.steer.channels[i]? = some c) (ha : e.acts T = true) {v : Int}
    (hv : e.outsideOf v = true) : l.judgeWindow T i e v =
      (l.putChannel i { c with outside := true, windowRaised := c.windowRaised || (l.windowApplies T e && !c.windowRaised) },
        l.windowApplies T e && !c.windowRaised) := by
  simp only [Live.judgeWindow, hc, ha, hv, if_true, Live.updChannel_eq hc]

/-! ### One raw sample (R42 to R45) -/

/-- The value of a raw sample for an entry, its tare offset subtracted (R43, R44). -/
def Live.valueOf (T : Tables) (e : ChannelEntry) (x : Half) (l : Live) : Int :=
  calibrated T e (signed16 x.toNat) - l.offset e

theorem State.valueOf_eq (s : State) (e : ChannelEntry) (x : Half) : s.valueOf e x = s.live.valueOf s.tables e x := rfl

/-- An entry whose latest value a raw sample has become. -/
theorem Live.takeSample_eq (hc : l.steer.channels[i]? = some c) (x : Half) : l.takeSample T i e x =
    let cal := calibrated T e (signed16 x.toNat)
    let v := l.valueOf T e x
    let w := (l.putChannel i { c with latest := some v }).judgeWindow T i e v
    if w.2 then
      let m := w.1.chosen
      if Config.raiseBeforeDelivery w.1.choices then
        (m.raise T .channelWindow (entryScope e) i).deliver T i e cal v
      else (m.deliver T i e cal v).raise T .channelWindow (entryScope e) i
    else w.1.deliver T i e cal v := by
  simp only [Live.takeSample, Live.updChannel_eq hc]
  rfl

theorem Live.takeSample_of_inside (hc : l.steer.channels[i]? = some c) (ha : e.acts T = true) {x : Half}
    (hv : e.outsideOf (l.valueOf T e x) = false) : l.takeSample T i e x =
      ((l.putChannel i { c with latest := some (l.valueOf T e x), outside := false, windowRaised := false }).endIf
        (c.outside && !l.otherEntry T i e.station (·.outside)) .channelWindow (entryScope e)).deliver T i e
          (calibrated T e (signed16 x.toNat)) (l.valueOf T e x) := by
  rw [Live.takeSample_eq hc]
  dsimp only
  rw [Live.judgeWindow_of_inside (Live.putChannel_channel hc _) ha hv]
  simp

/-- A window NEVER has nothing outside, and a flag that is clear ends no condition. -/
theorem Live.takeSample_of_never (hc : l.steer.channels[i]? = some c) (ha : e.acts T = true)
    (hn : e.applicability = .never) (ho : c.outside = false) (x : Half) : l.takeSample T i e x =
      (l.putChannel i { c with latest := some (l.valueOf T e x), windowRaised := false }).deliver T i e
        (calibrated T e (signed16 x.toNat)) (l.valueOf T e x) := by
  rw [Live.takeSample_of_inside hc ha (by simp [ChannelEntry.outsideOf, hn]), ho]
  rfl

/-- A frame of one sample for an entry that asks for no mirror. -/
theorem Live.steer1_single (hm : e.mirror = .none) (raw : Frame) (x : Half) :
    l.steer1 T i e raw [x] = (l.endSilence T i e).takeSample T i e x := by
  simp [Live.steer1, Live.takeSamples, Live.mirror, hm]

/-! ### The command (R8, R42) -/

theorem rd16_flatMap_be16 : ∀ (xs : List Half) (k : Nat) (h : k < xs.length),
    rd16 (xs.flatMap fun x => be16 x.toNat) (2 * k) = xs[k].toNat
  | x :: xs, 0, _ => by
    have hx := x.isLt
    change (byte (x.toNat / 256)).toNat * 256 + (byte x.toNat).toNat = x.toNat
    simp only [byte, BitVec.toNat_ofNat]
    omega
  | x :: xs, k + 1, h => rd16_flatMap_be16 xs k (Nat.lt_of_succ_lt_succ h)

/-- The samples of a well-formed SAMPLE frame are read back from its payload (R190). -/
theorem payloadSamples_samplePayload {src ch : Byte} {xs : List Half} (h : WellFormed (.sampleFrame src ch xs) = true) :
    payloadSamples (samplePayload ch xs) = xs := by
  have hlen : xs.length ≤ 8 := by
    simp only [WellFormed, samplesFit, Bool.and_eq_true, decide_eq_true_eq] at h
    exact h.2.2
  have hcount : rd (samplePayload ch xs) 1 = xs.length := by
    simp [rd, samplePayload, byte]
    omega
  refine List.ext_getElem (by simp [payloadSamples, hcount]) fun k hk hk' => ?_
  have hread : rd16 (samplePayload ch xs) (2 + 2 * k) = xs[k].toNat := by
    rw [← rd16_flatMap_be16 xs k hk', Nat.add_comm 2]
    rfl
  simp [payloadSamples, hread]

theorem exec_sampleFrame_steered {src ch : Byte} {xs : List Half} (ha : s.awake)
    (hf : WellFormed (.sampleFrame src ch xs) = true) (hon : s.tables.steering = true)
    (hi : s.tables.entryOfHead src.toNat ch.toNat = some i) (he : s.tables.entries[i]? = some e) :
    exec (.sampleFrame src ch xs) s = .next (s.withLive
      (s.live.steer1 s.tables i e (headFrame src kindSample (samplePayload ch xs)) xs)) := by
  change Host.Outcome.next (s.onLive (Live.takeDown _)) = _
  rw [State.onLive_awake _ ha, Live.takeDown_sample hf, payloadSamples_samplePayload hf]
  simp only [Live.sampleFrame, hon, if_true, headFrame, hi, he]

/-- A sample whose window is NEVER is the entry's latest value, and is delivered. -/
theorem Sampled.exec_eq {src ch : Byte} {x : Half} (h : Sampled s src ch x i e c) :
    exec (.sampleFrame src ch [x]) s = .next (s.withLive ((s.sampledAs i e c (s.valueOf e x)).deliver s.tables i e
      (calibrated s.tables e (signed16 x.toNat)) (s.valueOf e x))) := by
  obtain ⟨hi, he⟩ := h.entry
  obtain ⟨hnever, hmirror, hout, hsilent⟩ := h.plain
  have hc := h.channel
  have hacts : e.acts s.tables = true := ChannelEntry.acts_iff.2 h.present
  have hc' := Live.putChannel_channel hc (e.heard c)
  have hout' : (e.heard c).outside = false := by unfold ChannelEntry.heard; split <;> exact hout
  rw [exec_sampleFrame_steered h.awake h.frame h.steering hi he, Live.steer1_single hmirror,
    Live.endSilence_of_acting hc (Tables.enabled_of_entryOfHead hi he) hacts, Live.hears, hsilent, Bool.and_false, Bool.false_and,
    Live.endIf_false, Live.takeSample_of_never hc' hacts hnever hout', Live.putChannel_putChannel]
  simp only [State.valueOf_eq, Live.valueOf, Live.putChannel_offset]
  congr 3
  simp only [State.sampledAs, Live.putChannel, ChannelEntry.heard]
  cases hst : e.station with
  | none => rfl
  | some st => simp [ChannelState.sounding, hsilent]

/-! ### The silence limit (R48, R49) -/

theorem Live.silenceDue_iff (hc : l.steer.channels[i]? = some c) :
    l.silenceDue T i = true ↔ c.silent = false ∧ ∃ t, c.silence = some t ∧ T.settings.silence ≤ t := by
  simp only [Live.silenceDue, hc, Bool.and_eq_true, Bool.not_eq_true']
  cases c.silence <;> simp [reached]

theorem Live.judgeEntrySilence_of_heard {st : Station} (he : T.entries[i]? = some e) (hc : l.steer.channels[i]? = some c)
    (hst : e.station = some st) (h : (e.enabled && c.silent && !c.silenceRaised && T.present st
      && (l.stationState st).atWork) = true) : l.judgeEntrySilence T i =
      (l.putChannel i { c with silenceRaised := true }).raiseWith T .headSilent (.station st) (l.boundOrZero st) i := by
  simp only [Live.judgeEntrySilence, he, hc, hst, h, if_true]
  rfl

theorem Live.judgeEntrySilence_of_unheard (he : T.entries[i]? = some e) (hc : l.steer.channels[i]? = some c)
    (h : ∀ st, e.station = some st → (e.enabled && c.silent && !c.silenceRaised && T.present st
      && (l.stationState st).atWork) = false) : l.judgeEntrySilence T i = l := by
  simp only [Live.judgeEntrySilence, he, hc]
  cases hst : e.station with
  | none => rfl
  | some st => simp only [h st hst, Bool.false_eq_true, if_false]

@[simp] theorem Live.putChannel_stationState (l : Live) (i : Nat) (y : ChannelState) (st : Station) :
    (l.putChannel i y).stationState st = l.stationState st := by cases st <;> rfl

/-- Settles O51: the limit by whether it is due, then the entry's judgement by what R49 asks of it. -/
theorem silenceLimitMakesAChannelSilent : Obligations.SilenceLimitMakesAChannelSilent := by
  intro s i c hawake hc
  have hexec : exec (.silenceLimit i) s = .next (s.withLive
      (if s.live.silenceDue s.tables i then s.live.fallSilent s.tables i else s.live)) := by
    change Host.Outcome.next (s.onLive _) = _
    rw [State.onLive_awake _ hawake]
  rw [hexec]
  refine ⟨fun hnot => ?_, fun t e hsilent htimer hlimit he => ?_⟩
  · have hdue : ¬ s.live.silenceDue s.tables i = true := by
      rw [Live.silenceDue_iff hc]
      rintro ⟨hs, t, ht, hle⟩
      rcases hnot with h | h
      · rw [hs] at h; cases h
      · exact absurd (h t ht) (Nat.not_lt.2 hle)
    rw [if_neg hdue, State.withLive_self]
  · rw [if_pos ((Live.silenceDue_iff hc).2 ⟨hsilent, t, htimer, hlimit⟩), Live.fallSilent, Live.updChannel_eq hc]
    have hc' := Live.putChannel_channel hc { c with silent := true }
    refine ⟨fun st hst hen hraised hp hwork => ?_, fun hquiet => ?_⟩
    · rw [Live.judgeEntrySilence_of_heard he hc' hst (by simp [hen, hraised, hp, hwork]), Live.putChannel_putChannel]
      exact ⟨_, rfl, Live.raiseWith_raised _ _ _ _ _ _⟩
    · rw [Live.judgeEntrySilence_of_unheard he hc']
      · rfl
      · intro st hst
        rcases hquiet with h | h | h | h
        · rw [hst] at h; cases h
        · simp [h]
        · simp [h]
        · rcases h st hst with h | h <;> simp [h]

end
end Sys2Proof.Machine
end

section
/-! ## The OPEN record read after its writes, and stations that change under a free sequencer (R113, R128 to R133; O15, O16) -/

namespace Sys2Proof.Machine

section
variable {T : Tables} {l m : Live}

/-! ### The OPEN record (R113, R114) -/

theorem Live.openSlot_of_slotState (h : ∀ i, m.slotState i = l.slotState i) : m.openSlot = l.openSlot := by
  have hp : (fun i => (m.records.slots.get i).state == SlotState.opened) =
      fun i => (l.records.slots.get i).state == SlotState.opened := funext fun i => congrArg (· == SlotState.opened) (h i)
  simp only [Live.openSlot, hp]

theorem Live.openRecord_of_slots (h : m.records.slots = l.records.slots) : m.openRecord = l.openRecord := by
  simp only [Live.openRecord, Live.openSlot, h]

@[simp] theorem Live.openRecord_updOpen (l : Live) (f : VehicleRecord → VehicleRecord) :
    (l.updOpen f).openRecord = l.openRecord.map f := by
  have hslot : (l.updOpen f).openSlot = l.openSlot := Live.openSlot_of_slotState (Live.updOpen_slotState f)
  unfold Live.openRecord
  rw [hslot]
  unfold Live.updOpen
  cases l.openSlot with
  | none => rfl
  | some i => simp

@[simp] theorem Live.openRecord_updAxle (l : Live) (n : Nat) (f : AxleRecord → AxleRecord) :
    (l.updAxle n f).openRecord = l.openRecord.map (·.updAxle n f) := l.openRecord_updOpen _

@[simp] theorem Live.openRecord_judged {α : Type} (l : Live) (p : Part α) : (l.judged p).openRecord = l.openRecord := rfl

@[simp] theorem Live.openRecord_offerResult (l : Live) (i : Fin 4) (f : Frame) :
    (l.offerResult i f).openRecord = l.openRecord := by
  refine Live.openRecord_of_slots ?_
  unfold Live.offerResult
  split <;> rfl

theorem Live.openRecord_axleDone (l : Live) (n : Nat) : (l.axleDone T n).openRecord = l.openRecord.map
    (·.updAxle n fun a => { a with state := .done, verdict := axleVerdict T.rows l.openClass a }) := by
  simp only [Live.axleDone]
  split <;> simp

theorem Live.openClass_of_openRecord {r : VehicleRecord} (h : l.openRecord = some r) : l.openClass = r.cls := by
  simp [Live.openClass, h]

/-- The axles that a write of one axle's record leaves: all but those of its index. -/
theorem VehicleRecord.updAxle_axles_of_fresh (r : VehicleRecord) {n : Nat} (f : AxleRecord → AxleRecord) {as : List AxleRecord}
    {a : AxleRecord} (has : ∀ b ∈ as, b.index ≠ n) (ha : a.index = n) :
    ({ r with axles := as ++ [a] } : VehicleRecord).updAxle n f = { r with axles := as ++ [f a] } := by
  have hsame : as.map (fun b => if b.index = n then f b else b) = as := by
    conv_rhs => rw [← List.map_id as]
    exact List.map_congr_left fun b hb => if_neg (has b hb)
  simp [VehicleRecord.updAxle, hsame, ha]

/-! ### A sequencer that no change of a station moves (R128 to R133) -/

theorem Live.seqSees_of_free (h : l.seqFree) (st : Station) : l.seqSees T st = l := by
  obtain ⟨hw, hh⟩ := h
  unfold Live.seqSees
  split
  · exact absurd ‹_› hw
  · exact absurd ‹_› hh
  · rfl

theorem Live.enter_of_free (h : l.seqFree) (st : Station) (x : StationState) : l.enter T st x = l.putState st x := by
  refine Live.seqSees_of_free ?_ st
  unfold Live.seqFree
  rw [Live.putState_seq]
  exact h

/-! ### EVENT frames (R11) -/

@[simp] theorem Live.offerEvent_setPS (l : Live) (f : Frame) (x : PlateStation) :
    (l.offerEvent f).setPS x = (l.setPS x).offerEvent f := by
  unfold Live.offerEvent
  split <;> rename_i h
  · rw [if_pos (show (l.setPS x).chain.up.length < Config.upCapacity from h)]; rfl
  · rw [if_neg (show ¬ (l.setPS x).chain.up.length < Config.upCapacity from h)]; rfl

end
end Sys2Proof.Machine
end

section
/-! ## Samples of the AUX and PIT_GUARD entries (R42 to R52; O15) -/

namespace Sys2Proof.Machine

section
variable {T : Tables} {l : Live} {s : State} {i : Nat} {e : ChannelEntry} {c : ChannelState}

/-! ### Calibration (R43, R44) -/

theorem calibrate_of_segment {x : Int} : ∀ {set : SegmentSet} {i : Nat} {a b : Int × Int},
    set.Pairwise (fun p q => p.1 < q.1) → set[i]? = some a → set[i + 1]? = some b → (i = 0 ∨ a.1 ≤ x) →
    (i + 2 = set.length ∨ x < b.1) → calibrate set x = interpolate a b x
  | [], _, _, _, _, ha, _, _, _ => by cases ha
  | [_], _, _, _, _, _, hb, _, _ => by cases hb
  | [p, q], 0, _, _, _, ha, hb, _, _ => by cases ha; cases hb; rfl
  | [p, q], i + 1, _, _, _, _, hb, _, _ => by cases hb
  | p :: q :: r :: rest, 0, _, _, _, ha, hb, _, hright => by
    cases ha
    cases hb
    exact if_pos (hright.resolve_left (by simp))
  | p :: q :: r :: rest, i + 1, a, b, hsort, ha, hb, hleft, hright => by
    have hax : a.1 ≤ x := hleft.resolve_left (Nat.succ_ne_zero i)
    have htail := (List.pairwise_cons.1 hsort).2
    have hqa : q.1 ≤ a.1 := by
      cases i with
      | zero => cases ha; exact le_refl _
      | succ i => exact le_of_lt ((List.pairwise_cons.1 htail).1 a (List.mem_of_getElem? ha))
    have hstep : calibrate (p :: q :: r :: rest) x = calibrate (q :: r :: rest) x :=
      if_neg (not_lt.2 (le_trans hqa hax))
    rw [hstep]
    exact calibrate_of_segment htail ha hb (.inr hax) (hright.imp_left fun h => by simpa using h)

theorem calibrated_of_segment {x : Int} {i : Nat} {a b : Int × Int}
    (hsort : (T.segmentSet e.segment e.role).Pairwise (fun p q => p.1 < q.1))
    (ha : (T.segmentSet e.segment e.role)[i]? = some a) (hb : (T.segmentSet e.segment e.role)[i + 1]? = some b)
    (hleft : i = 0 ∨ a.1 ≤ x) (hright : i + 2 = (T.segmentSet e.segment e.role).length ∨ x < b.1) :
    calibrated T e x = max (roleRange e.role).1 (min (roleRange e.role).2 (interpolate a b x)) := by
  rw [calibrated, calibrate_of_segment hsort ha hb hleft hright, clampTo]

theorem Live.offset_of_untared (h : e.station = none ∨ e.role ∉ [Role.forceL, .forceR, .loadL, .loadR, .plateDisp]) :
    l.offset e = 0 := by
  unfold Live.offset
  cases hst : e.station with
  | none => rfl
  | some st =>
    rcases h with h | h
    · rw [hst] at h; cases h
    · cases hr : e.role <;> simp [hr] at h <;> rfl

/-- A value of a role that is not tared is the calibrated sample. -/
theorem Live.valueOf_of_untared (h : e.station = none ∨ e.role ∉ [Role.forceL, .forceR, .loadL, .loadR, .plateDisp]) (x : Half) :
    l.valueOf T e x = calibrated T e (signed16 x.toNat) := by
  rw [Live.valueOf, Live.offset_of_untared h, Int.sub_zero]

/-- A contact or the pit guard has the values 0 and 1. -/
theorem calibrated_contact (h : roleRange e.role = (0, 1)) (x : Int) : calibrated T e x = 0 ∨ calibrated T e x = 1 := by
  simp only [calibrated, clampTo, h]
  omega

/-! ### The window of an AUX entry (R46, R47) -/

theorem Live.deliver_aux (h : e.role = .aux) (cal v : Int) (l : Live) : l.deliver T i e cal v = l := by
  simp only [Live.deliver, h]

theorem Live.takeSample_of_absent (hc : l.steer.channels[i]? = some c) (ha : e.acts T = false) (x : Half) :
    l.takeSample T i e x = (l.putChannel i { c with latest := some (l.valueOf T e x) }).deliver T i e
      (calibrated T e (signed16 x.toNat)) (l.valueOf T e x) := by
  rw [Live.takeSample_eq hc]
  dsimp only
  rw [Live.judgeWindow_of_absent ha]
  rfl

section
variable (hc : l.steer.channels[i]? = some c) (ha : e.acts T = true)
include hc ha

theorem Live.takeSample_of_outside {x : Half} (hv : e.outsideOf (l.valueOf T e x) = true)
    (hq : l.windowApplies T e = false ∨ c.windowRaised = true) : l.takeSample T i e x =
    Live.deliver T i e (calibrated T e (signed16 x.toNat)) (l.valueOf T e x)
      (l.putChannel i { c with latest := some (l.valueOf T e x), outside := true }) := by
  have hc' := Live.putChannel_channel hc { c with latest := some (l.valueOf T e x) }
  have happlies : ∀ y, (l.putChannel i y).windowApplies T e = l.windowApplies T e := fun _ => rfl
  have hno : (l.windowApplies T e && !c.windowRaised) = false := by rcases hq with h | h <;> simp [h]
  rw [Live.takeSample_eq hc]
  dsimp only
  rw [Live.judgeWindow_of_outside hc' ha hv]
  simp [happlies, hno]

/-- A raise of the window of an AUX entry, which no block takes the value of, shows nothing of log 7. -/
theorem Live.takeSample_of_raise (haux : e.role = .aux) {x : Half} (hv : e.outsideOf (l.valueOf T e x) = true)
    (hw : l.windowApplies T e = true) (hr : c.windowRaised = false) : l.takeSample T i e x =
    ((l.putChannel i { c with latest := some (l.valueOf T e x), outside := true, windowRaised := true }).chosen).raise T
      .channelWindow (entryScope e) i := by
  have hc' := Live.putChannel_channel hc { c with latest := some (l.valueOf T e x) }
  have hyes : ∀ y, (l.putChannel i y).windowApplies T e = true := fun _ => hw
  rw [Live.takeSample_eq hc]
  dsimp only
  rw [Live.judgeWindow_of_outside hc' ha hv]
  simp [hyes, hr, Live.deliver_aux haux]

end

/-! ### A SAMPLE frame of an AUX entry (R42 to R49) -/

theorem Live.endIf_putChannel (now : Bool) (src : Source) (scope : Scope) (l : Live) (y : ChannelState) :
    (l.endIf now src scope).putChannel i y = (l.putChannel i y).endIf now src scope := by cases now <;> rfl

theorem ChannelEntry.heard_outside (e : ChannelEntry) (c : ChannelState) : (e.heard c).outside = c.outside := by
  unfold ChannelEntry.heard; split <;> rfl

theorem ChannelEntry.heard_windowRaised (e : ChannelEntry) (c : ChannelState) :
    (e.heard c).windowRaised = c.windowRaised := by
  unfold ChannelEntry.heard; split <;> rfl

theorem Live.hears_channel (hc : l.steer.channels[i]? = some c) (y : ChannelState) :
    (l.hears T i e c y).steer.channels[i]? = some y := by
  rw [Live.hears, Live.endIf_steer]
  exact Live.putChannel_channel hc y

theorem Live.hears_putChannel (x y : ChannelState) : (l.hears T i e c x).putChannel i y = l.hears T i e c y := by
  rw [Live.hears, Live.endIf_putChannel, Live.putChannel_putChannel, Live.hears]

theorem Live.hears_otherEntry (y : ChannelState) (st : Option Station) (flag : ChannelState → Bool) :
    (l.hears T i e c y).otherEntry T i st flag = l.otherEntry T i st flag := by
  rw [Live.hears, Live.endIf_otherEntry, Live.otherEntry_putChannel]

theorem Live.hears_windowApplies (y : ChannelState) : (l.hears T i e c y).windowApplies T e = l.windowApplies T e := by
  rw [Live.hears, Live.endIf_windowApplies]
  rfl

theorem Live.valueOf_aux (haux : e.role = .aux) (l : Live) (x : Half) : l.valueOf T e x = calibrated T e (signed16 x.toNat) :=
  Live.valueOf_of_untared (.inr (by simp [haux])) x

section
variable (hc : l.steer.channels[i]? = some c) (hen : e.enabled = true) (haux : e.role = .aux)
include hc hen haux

theorem Live.takeAux_of_absent (ha : e.acts T = false) (x : Half) : (l.endSilence T i e).takeSample T i e x =
    l.putChannel i { c with latest := some (calibrated T e (signed16 x.toNat)) } := by
  have huntimed : e.timed T = false := by rw [ChannelEntry.timed_eq hen, ha, Bool.and_false]
  rw [Live.endSilence_of_untimed huntimed, Live.takeSample_of_absent hc ha, Live.deliver_aux haux,
    Live.valueOf_aux haux]

variable (ha : e.acts T = true)
include ha

theorem Live.takeAux_of_inside {x : Half} (hv : e.outsideOf (calibrated T e (signed16 x.toNat)) = false) :
    (l.endSilence T i e).takeSample T i e x =
      (l.hears T i e c { e.heard c with
        latest := some (calibrated T e (signed16 x.toNat)), outside := false, windowRaised := false }).endIf
          (c.outside && !l.otherEntry T i e.station (·.outside)) .channelWindow (entryScope e) := by
  rw [Live.endSilence_of_acting hc hen ha, Live.takeSample_of_inside (Live.hears_channel hc _) ha
    (by rw [Live.valueOf_aux haux]; exact hv), Live.deliver_aux haux, Live.valueOf_aux haux, e.heard_outside,
    Live.hears_putChannel, Live.hears_otherEntry]

theorem Live.takeAux_of_outside {x : Half} (hv : e.outsideOf (calibrated T e (signed16 x.toNat)) = true)
    (hq : l.windowApplies T e = false ∨ c.windowRaised = true) : (l.endSilence T i e).takeSample T i e x =
      l.hears T i e c { e.heard c with latest := some (calibrated T e (signed16 x.toNat)), outside := true } := by
  rw [Live.endSilence_of_acting hc hen ha, Live.takeSample_of_outside (Live.hears_channel hc _) ha
    (by rw [Live.valueOf_aux haux]; exact hv) (by rw [Live.hears_windowApplies, e.heard_windowRaised]; exact hq),
    Live.deliver_aux haux, Live.valueOf_aux haux, Live.hears_putChannel]

theorem Live.takeAux_of_raise {x : Half} (hv : e.outsideOf (calibrated T e (signed16 x.toNat)) = true)
    (hw : l.windowApplies T e = true) (hr : c.windowRaised = false) : (l.endSilence T i e).takeSample T i e x =
      ((l.hears T i e c { e.heard c with
        latest := some (calibrated T e (signed16 x.toNat)), outside := true, windowRaised := true }).chosen).raise T
          .channelWindow (entryScope e) i := by
  rw [Live.endSilence_of_acting hc hen ha, Live.takeSample_of_raise (Live.hears_channel hc _) ha haux
    (by rw [Live.valueOf_aux haux]; exact hv) (by rw [Live.hears_windowApplies]; exact hw)
    (by rw [e.heard_windowRaised]; exact hr), Live.valueOf_aux haux, Live.hears_putChannel]

end

/-! ### Mirrors (R51, R52) -/

theorem Live.offerMirrorOf_of_quiet {n : Nat} (hn : n = l.chain.up.length) (f : Frame) :
    l.offerMirrorOf T n f = l.offerMirror T f := by
  have hnone : l.lateFaults n = 0 := by simp [Live.lateFaults, hn]
  simp only [Live.offerMirrorOf, hnone]

theorem Live.offerMirror_eq (f : Frame) : l.offerMirror T f = { l with chain := { l.chain with
    up := if l.chain.up.length < T.settings.trip then l.chain.up ++ [{ mirror := true, frame := f }] else l.chain.up } } := by
  unfold Live.offerMirror
  split <;> rfl

theorem Live.mirror_of_counting (hc : l.steer.channels[i]? = some c) (hm : e.mirror ≠ .none)
    (hd : c.decimation + 1 < e.decimation) (raw : Frame) (values : List Int) (n : Nat) :
    l.mirror T i e raw values n = l.putChannel i { c with decimation := c.decimation + 1 } := by
  simp only [Live.mirror, if_neg hm, hc, Option.map_some, Option.getD_some, if_neg (Nat.not_le.2 hd), Live.updChannel_eq hc]

theorem Live.mirror_of_due (hc : l.steer.channels[i]? = some c) (hm : e.mirror ≠ .none)
    (hd : e.decimation ≤ c.decimation + 1) (raw : Frame) (values : List Int) {n : Nat} (hn : n = l.chain.up.length) :
    l.mirror T i e raw values n = (l.putChannel i { c with decimation := 0 }).offerMirror T
      (if e.mirror = .scaled then mirrorFrame i values else raw) := by
  simp only [Live.mirror, if_neg hm, hc, Option.map_some, Option.getD_some, if_pos hd, Live.updChannel_eq hc]
  rw [Live.offerMirrorOf_of_quiet (l := l.putChannel i _) hn]
  cases h : e.mirror <;> rfl

/-- The samples of a frame for an AUX entry without a station and with the window NEVER: the last one is the latest value. -/
theorem Live.takeSamples_aux (haux : e.role = .aux) (hst : e.station = none) (hn : e.applicability = .never) (x : Half) :
    ∀ (xs : List Half) {l : Live} {c : ChannelState}, l.steer.channels[i]? = some c → c.outside = false →
      l.takeSamples T i e (xs ++ [x]) =
        (l.putChannel i { c with latest := some (calibrated T e (signed16 x.toNat)), outside := false, windowRaised := false },
          (xs ++ [x]).map fun y => calibrated T e (signed16 y.toNat)) := by
  have ha : e.acts T = true := ChannelEntry.acts_iff.2 fun st h => by rw [hst] at h; cases h
  have hvalue : ∀ (m : Live) (y : Half), m.valueOf T e y = calibrated T e (signed16 y.toNat) :=
    fun m y => Live.valueOf_of_untared (.inl hst) y
  have hsample : ∀ {l : Live} {c : ChannelState} (y : Half), l.steer.channels[i]? = some c → c.outside = false →
      l.takeSample T i e y = l.putChannel i { c with
        latest := some (calibrated T e (signed16 y.toNat)), outside := false, windowRaised := false } := by
    intro l c y hc ho
    rw [Live.takeSample_of_never hc ha hn ho, Live.deliver_aux haux, hvalue]
    simp only [ho]
  intro xs
  induction xs with
  | nil =>
    intro l c hc ho
    simp only [List.nil_append, Live.takeSamples, hsample x hc ho, List.map_cons, List.map_nil]
    rw [Live.offset_of_untared (.inl hst), Int.sub_zero]
  | cons y ys ih =>
    intro l c hc ho
    simp only [List.cons_append, Live.takeSamples, hsample y hc ho, List.map_cons]
    rw [ih (Live.putChannel_channel hc _) rfl, Live.putChannel_putChannel, Live.offset_of_untared (.inl hst), Int.sub_zero]

/-! ### The pit guard (R50) -/

/-- The guard's two flags. -/
def Live.guard (b : Bool) (l : Live) : Live := { l with steer := { l.steer with guardOpen := b, guardRaised := b } }

theorem Live.judgeGuard_of_raised (h : l.steer.guardRaised = true) : l.judgeGuard T 1 = l.guard true := by
  simp only [Live.judgeGuard, if_true, h]
  rfl

theorem Live.judgeGuard_of_open (h : l.steer.guardRaised = false) :
    l.judgeGuard T 1 = (l.guard true).raise T .pitGuard .lane 0 := by
  simp only [Live.judgeGuard, if_true, h, Bool.false_eq_true, if_false]
  rfl

theorem Live.judgeGuard_of_closed : l.judgeGuard T 0 = (l.guard false).endIf l.steer.guardOpen .pitGuard .lane := by
  simp only [Live.judgeGuard, Int.zero_ne_one, if_false]
  rfl

end
end Sys2Proof.Machine
end

section
/-! ## Samples at the plate station (R73, R74, R98, R107, R108; O15) -/

namespace Sys2Proof.Machine

section
variable {T : Tables} {l : Live} {d : Direction} {k : Crossing} {closed : Bool} {r : VehicleRecord}

/-! ### Displacements (R74) -/

theorem Live.tareTake_of_not_taring {st : Station} (h : l.stationState st ≠ .taring) (entry : Nat) (cal : Int) :
    l.tareTake T st entry cal = l := by
  unfold Live.tareTake
  split
  · exact absurd ‹_› h
  · rfl

theorem Live.takeDisplacement_of_no_crossing (hc : l.ps.state ≠ .crossing) (ht : l.ps.state ≠ .taring) (entry : Nat)
    (cal v : Int) : l.takeDisplacement T entry cal v = l := by
  simp only [Live.takeDisplacement, Live.tareTake_of_not_taring (st := .ps) ht]
  split
  · exact absurd ‹_› hc
  · rfl

theorem Live.takeDisplacement_of_crossing (hc : l.ps.state = .crossing) (hk : l.ps.crossing = some k) (entry : Nat)
    (cal v : Int) : l.takeDisplacement T entry cal v =
      l.setPS { l.ps with crossing := some { k with peak := takePeak k.peak v } } := by
  have ht : l.stationState .ps ≠ .taring := fun h => by rw [show l.ps.state = .taring from h] at hc; cases hc
  simp only [Live.takeDisplacement, Live.tareTake_of_not_taring ht, hc, hk]

/-! ### Contacts (R73, R74) -/

/-- The contact of a direction: PLATE_ENTRY's is the forward one. -/
def PlateStation.contact (p : PlateStation) : Direction → Bool
  | .forward => p.contactIn
  | .reverse => p.contactOut

/-- The plate station with the contact of a direction read. -/
def PlateStation.withContact (p : PlateStation) (d : Direction) (closed : Bool) : PlateStation :=
  match d with
  | .forward => { p with contactIn := closed }
  | .reverse => { p with contactOut := closed }

/-- The crossing that a contact starts. -/
def Crossing.start (d : Direction) : Crossing := { direction := d, peak := none, stale := none }

@[simp] theorem PlateStation.withContact_state (p : PlateStation) : (p.withContact d closed).state = p.state := by
  cases d <;> rfl

theorem Live.takeContact_eq : l.takeContact T d closed =
    let s := l.setPS (l.ps.withContact d closed)
    match s.ps.state with
    | .idle => if closed && !l.ps.contact d then s.startCrossing T d else s
    | .taring => if closed && !l.ps.contact d then s.riseInTare T d else s
    | .crossing =>
      match s.ps.crossing with
      | some c => if s.ps.contactIn || s.ps.contactOut then s else s.endCrossing T c
      | none => s
    | _ => s := by
  cases d <;> rfl

/-- A contact value that neither rises nor ends a crossing is kept, and that is all. -/
theorem Live.takeContact_still (h : l.ps.state ∉ [StationState.idle, .taring, .crossing]
      ∨ (l.ps.state ∈ [StationState.idle, .taring] ∧ (closed && !l.ps.contact d) = false)
      ∨ (l.ps.state = .crossing
        ∧ ((l.ps.withContact d closed).contactIn || (l.ps.withContact d closed).contactOut) = true)) :
    l.takeContact T d closed = l.setPS (l.ps.withContact d closed) := by
  rw [Live.takeContact_eq]
  dsimp only
  rw [Live.setPS_ps, PlateStation.withContact_state]
  rcases h with h | ⟨h, hrise⟩ | ⟨h, hclosed⟩
  · cases hs : l.ps.state <;> simp [hs] at h <;> rfl
  · rw [hrise]
    cases hs : l.ps.state <;> simp [hs] at h <;> rfl
  · rw [h]
    dsimp only
    split
    · rw [if_pos hclosed]
    · rfl

theorem Live.seqFree.setPS (h : l.seqFree) (x : PlateStation) : (l.setPS x).seqFree := h

theorem Live.dropTare_setPS (l : Live) (x : PlateStation) :
    (l.setPS x).dropTare .ps = l.setPS { x with tare := { x.tare with context := none } } := rfl

theorem Live.startCrossing_of_free (h : l.seqFree) :
    l.startCrossing T d = l.setPS { l.ps with state := .crossing, crossing := some (.start d) } :=
  Live.enter_of_free (h.setPS _) .ps .crossing

theorem Live.enterOffline_ps_of_free (h : l.seqFree) :
    l.enterOffline T .ps = l.setPS { l.ps with state := .offline, crossing := none } :=
  Live.enter_of_free (h.setPS _) .ps .offline

theorem Live.tareAborted_of_free (h : l.seqFree) (st : Station) (v : Int) :
    l.tareAborted T st v = l.offerEvent (eventFrame .tareAborted (some st) 0 (beSigned32 v)) :=
  Live.seqTareEnd_of_not_waiting (by rw [Live.offerEvent_seq]; exact h.1) _ _

section
variable (hfree : l.seqFree) (hrise : (closed && !l.ps.contact d) = true)
include hfree hrise

/-- A contact rise in IDLE starts a crossing. -/
theorem Live.takeContact_of_idle (h : l.ps.state = .idle) : l.takeContact T d closed =
    l.setPS { l.ps.withContact d closed with state := .crossing, crossing := some (.start d) } := by
  rw [Live.takeContact_eq]
  dsimp only
  rw [Live.setPS_ps, PlateStation.withContact_state, h, hrise]
  exact Live.startCrossing_of_free (hfree.setPS _)

/-- A contact rise in TARING aborts the tare: PS is OFFLINE after a service tare, else a crossing starts. -/
theorem Live.takeContact_of_taring (h : l.ps.state = .taring) {t : TareContext} (ht : l.ps.tare.context = some t) :
    let p := { l.ps.withContact d closed with tare := { l.ps.tare with context := none } }
    l.takeContact T d closed = (l.setPS (if t.service then { p with state := .offline, crossing := none }
      else { p with state := .crossing, crossing := some (.start d) })).offerEvent
        (eventFrame .tareAborted (some .ps) 0 (beSigned32 0)) := by
  have htare : (l.ps.withContact d closed).tare = l.ps.tare := by cases d <;> rfl
  intro p
  rw [Live.takeContact_eq]
  dsimp only
  rw [Live.setPS_ps, PlateStation.withContact_state, h, hrise]
  simp only [if_true, Live.riseInTare, Live.setPS_ps, Live.dropTare_setPS, htare, ht, Option.map_some, Option.getD_some]
  cases t.service with
  | true =>
    rw [if_pos rfl, if_pos rfl, Live.enterOffline_ps_of_free (hfree.setPS _)]
    exact Live.tareAborted_of_free (hfree.setPS _) _ _
  | false =>
    rw [if_neg Bool.false_ne_true, if_neg Bool.false_ne_true, Live.startCrossing_of_free (hfree.setPS _)]
    exact Live.tareAborted_of_free (hfree.setPS _) _ _

end

theorem Live.takeContact_of_end (h : l.ps.state = .crossing) (hk : (l.ps.withContact d closed).crossing = some k)
    (hin : (l.ps.withContact d closed).contactIn = false) (hout : (l.ps.withContact d closed).contactOut = false) :
    l.takeContact T d closed = (l.setPS (l.ps.withContact d closed)).endCrossing T k := by
  rw [Live.takeContact_eq]
  dsimp only
  rw [Live.setPS_ps, PlateStation.withContact_state, h]
  simp only [hk, hin, hout, Bool.or_self, Bool.false_eq_true, if_false]

/-! ### The end of a crossing (R74, R107, R108) -/

/-- What a crossing measured (R74, R113). -/
def Crossing.measured (T : Tables) (k : Crossing) : Option PlateValues :=
  k.peak.map fun p => { peak := p, slip := sideSlip T p }

/-- The latest side-slip once a crossing has ended (R74). -/
def Crossing.slipAfter (T : Tables) (k : Crossing) (before : Option Int) : Option Int :=
  if k.direction = .forward ∧ (k.measured T).isSome then (k.measured T).map (·.slip) else before

/-- PS once a crossing has ended. -/
def PlateStation.crossed (T : Tables) (k : Crossing) (p : PlateStation) : PlateStation :=
  { p with state := .idle, crossing := none, lastSlip := k.slipAfter T p.lastSlip }

/-- The end of a crossing that the tracker takes without touching PS or the sequencer. -/
theorem Live.endCrossing_eq {x : Live × Bool} (hfree : l.seqFree)
    (hx : l.takeCrossing T k.direction (k.measured T) l.ps.tare.stale = x) (hps : x.1.ps = l.ps) (hseq : x.1.seq = l.seq) :
    l.endCrossing T k = Live.raiseMistrack T .ps (x.1.setPS (l.ps.crossed T k), x.2) := by
  have henter : ∀ p : PlateStation, (x.1.setPS p).enter T .ps .idle = (x.1.setPS p).putState .ps .idle := fun p =>
    Live.enter_of_free (by unfold Live.seqFree; rw [Live.setPS_seq, hseq]; exact hfree) _ _
  have hmeasured : (k.peak.map fun p => ({ peak := p, slip := sideSlip T p } : PlateValues)) = k.measured T := rfl
  simp only [Live.endCrossing, hmeasured, hx, henter, hps]
  unfold PlateStation.crossed Crossing.slipAfter
  cases k.direction <;> cases k.measured T <;> rfl

/-- MISTRACK of PS, which is never bound. -/
theorem Live.raiseMistrack_ps_raised (T : Tables) (l : Live) :
    Raised T .mistrack (.station .ps) 0 0 l (Live.raiseMistrack T .ps (l, true)) :=
  Live.raiseWith_raised T l .mistrack (.station .ps) 0 0

/-- Without an OPEN record the crossing is a stray axle's. -/
theorem Live.endCrossing_of_stray (hfree : l.seqFree) (hopen : l.openRecord = none) : l.endCrossing T k =
    (l.setPS (l.ps.crossed T k)).event .strayAxle (some .ps) 0 (match k.direction with | .forward => 0 | .reverse => 1) := by
  have hx : l.takeCrossing T k.direction (k.measured T) l.ps.tare.stale = (l.event .strayAxle (some .ps) 0
      (match k.direction with | .forward => 0 | .reverse => 1), false) := by
    cases k.direction <;> simp only [Live.takeCrossing, hopen]
  rw [Live.endCrossing_eq hfree hx (Live.event_still (.refl l) _ _ _ _).ps (Live.event_seq _ _ _ _)]
  exact Live.offerEvent_setPS _ _ _

/-- A crossing that finds no place for its axle, or no axle to withdraw, raises MISTRACK. -/
theorem Live.endCrossing_of_mistrack (hfree : l.seqFree)
    (hx : l.takeCrossing T k.direction (k.measured T) l.ps.tare.stale = (l, true)) :
    Raised T .mistrack (.station .ps) 0 0 (l.setPS (l.ps.crossed T k)) (l.endCrossing T k) := by
  rw [Live.endCrossing_eq hfree hx rfl rfl]
  exact Live.raiseMistrack_ps_raised T _

/-! ### A REVERSE crossing (R108) -/

/-- The newest axle waits in G1 behind the others, and it is the record's last. -/
def Live.lastWaits (l : Live) (r : VehicleRecord) (j : Nat) (a : AxleRecord) : Prop :=
  l.tracker.g1.getLast? = some j ∧ r.axles.getLast? = some a ∧ a.index = j

theorem Live.reverseCrossing_of_last {j : Nat} {a : AxleRecord} (h : l.lastWaits r j a) : l.reverseCrossing r =
    ((({ l with tracker := { l.tracker with g1 := l.tracker.g1.dropLast } } : Live).updOpen
      fun x => { x with axles := x.axles.dropLast }).event .axleWithdrawn (some .ps) j 0, false) := by
  obtain ⟨hj, ha, rfl⟩ := h
  simp only [Live.reverseCrossing, hj, ha, if_true]

theorem Live.reverseCrossing_of_none (h : ∀ j a, ¬ l.lastWaits r j a) : l.reverseCrossing r = (l, true) := by
  unfold Live.reverseCrossing
  split
  · rename_i j a hj ha
    exact if_neg fun he => h j a ⟨hj, ha, he.symm⟩
  · rfl

/-! ### A FORWARD crossing (R107) -/

/-- The axle that a forward crossing makes, its PLATE part written where there is a measurement. -/
def plateAxle (T : Tables) (r : VehicleRecord) (x : AxleState) (m : Option PlateValues) (stale : Bool) : AxleRecord :=
  let n := r.axles.length + 1
  let a := AxleRecord.fresh n (r.kindOf n) x
  match m with
  | some v => { a with plate := platePart T r.cls (r.kindOf n) v stale }
  | none => a

/-- The axle joins the record, and a PLATE part written is the last judgement. -/
def Live.makesPlateAxle (T : Tables) (r : VehicleRecord) (x : AxleState) (m : Option PlateValues) (stale : Bool) (l : Live) :
    Live :=
  let s := l.appendAxle (plateAxle T r x m stale)
  match m with
  | some v => s.judged (platePart T r.cls (r.kindOf (r.axles.length + 1)) v stale)
  | none => s

theorem Live.forwardCrossing_of_no_room (h : ¬ (r.axles.length < r.expected ∧ l.tracker.g1.length < 4))
    (m : Option PlateValues) (stale : Bool) : l.forwardCrossing T r m stale = (l, true) := by
  simp only [Live.forwardCrossing]
  exact if_neg h

theorem Live.forwardCrossing_of_room (h : r.axles.length < r.expected ∧ l.tracker.g1.length < 4)
    (m : Option PlateValues) (stale : Bool) : l.forwardCrossing T r m stale =
      if T.present .ra || T.present .rb then
        let s := l.makesPlateAxle T r .inGap m stale
        ({ s with tracker := { s.tracker with g1 := s.tracker.g1 ++ [r.axles.length + 1] } }, false)
      else ((l.makesPlateAxle T r .done m stale).axleDone T (r.axles.length + 1), false) := by
  simp only [Live.forwardCrossing]
  rw [if_pos (show r.axles.length < r.expected ∧ l.tracker.g1.length < Config.gapCapacity from h)]
  cases T.present .ra || T.present .rb <;> cases m <;> rfl

theorem Live.makesPlateAxle_openRecord (hopen : l.openRecord = some r) (x : AxleState) (m : Option PlateValues)
    (stale : Bool) : (l.makesPlateAxle T r x m stale).openRecord =
      some { r with axles := r.axles ++ [plateAxle T r x m stale] } := by
  cases m <;> simp [Live.makesPlateAxle, Live.appendAxle, hopen]

theorem plateAxle_index (x : AxleState) (m : Option PlateValues) (stale : Bool) :
    (plateAxle T r x m stale).index = r.axles.length + 1 := by cases m <;> rfl

theorem plateAxle_verdict (x : AxleState) (m : Option PlateValues) (stale : Bool) :
    (plateAxle T r x m stale).verdict = .absent := by cases m <;> rfl

theorem plateAxle_done (m : Option PlateValues) (stale : Bool) (v : Verdict) :
    ({ { plateAxle T r .done m stale with state := .done, verdict := v } with verdict := .absent } : AxleRecord) =
      plateAxle T r .done m stale := by cases m <;> rfl

/-- The axle that a crossing leaves has the measurement as its PLATE part, and is fresh besides. -/
structure CrossedAxle (r : VehicleRecord) (x : AxleState) (m : Option PlateValues) (stale : Bool) (a : AxleRecord) : Prop where
  values : a.plate.values = m
  stale : a.plate.flags.stale = (m.isSome && stale)
  fresh : { a with plate := .empty, verdict := .absent } =
    AxleRecord.fresh (r.axles.length + 1) (r.kinds.getD (r.axles.length + 1 - 1) .steer) x

theorem plateAxle_crossedAxle (x : AxleState) (m : Option PlateValues) (stale : Bool) :
    CrossedAxle r x m stale (plateAxle T r x m stale) := by
  cases m <;> exact ⟨rfl, rfl, rfl⟩

theorem plateAxle_done_crossedAxle (m : Option PlateValues) (stale : Bool) (v : Verdict) :
    CrossedAxle r .done m stale { plateAxle T r .done m stale with state := .done, verdict := v } := by
  cases m <;> exact ⟨rfl, rfl, rfl⟩

theorem Live.makesPlateAxle_still (x : AxleState) (m : Option PlateValues) (stale : Bool) :
    Still l (l.makesPlateAxle T r x m stale) := by
  cases m <;> simp [Live.makesPlateAxle, Live.appendAxle, Still.refl]

theorem Live.makesPlateAxle_seq (x : AxleState) (m : Option PlateValues) (stale : Bool) :
    (l.makesPlateAxle T r x m stale).seq = l.seq := by
  cases m <;> simp [Live.makesPlateAxle, Live.appendAxle, Live.judged]

theorem Live.makesPlateAxle_tracker (x : AxleState) (m : Option PlateValues) (stale : Bool) :
    (l.makesPlateAxle T r x m stale).tracker = l.tracker := by
  cases m <;> simp [Live.makesPlateAxle]

theorem Live.axleDone_ps (n : Nat) : (l.axleDone T n).ps = l.ps := by
  simp only [Live.axleDone]
  split
  · unfold Live.offerResult
    split <;> exact (Live.updAxle_still (.refl l) _ _).ps
  · exact (Live.updAxle_still (.refl l) _ _).ps

theorem Live.axleDone_seq (n : Nat) : (l.axleDone T n).seq = l.seq := by
  simp only [Live.axleDone]
  split
  · unfold Live.offerResult
    split <;> exact Live.updAxle_seq _ _
  · exact Live.updAxle_seq _ _

theorem Live.axleDone_tracker (n : Nat) : (l.axleDone T n).tracker = l.tracker := by
  simp only [Live.axleDone]
  split
  · unfold Live.offerResult
    split <;> exact Live.updAxle_tracker _ _
  · exact Live.updAxle_tracker _ _

/-- The axle that is DONE at once, where no roller station is present, joins the record judged. -/
theorem Live.axleDone_makesPlateAxle_openRecord (hopen : l.openRecord = some r)
    (hfresh : ∀ b ∈ r.axles, b.index ≠ r.axles.length + 1) (m : Option PlateValues) (stale : Bool) :
    ((l.makesPlateAxle T r .done m stale).axleDone T (r.axles.length + 1)).openRecord =
      some { r with axles := r.axles ++ [{ plateAxle T r .done m stale with
        state := .done, verdict := axleVerdict T.rows r.cls (plateAxle T r .done m stale) }] } := by
  have hmade := Live.makesPlateAxle_openRecord (T := T) hopen .done m stale
  rw [Live.openRecord_axleDone, Live.openClass_of_openRecord hmade, hmade, Option.map_some,
    VehicleRecord.updAxle_axles_of_fresh r _ hfresh (plateAxle_index .done m stale)]

theorem Live.raiseMistrack_of_false (st : Station) : Live.raiseMistrack T st (l, false) = l := rfl

theorem Live.openRecord_setPS (l : Live) (x : PlateStation) : (l.setPS x).openRecord = l.openRecord := rfl

/-- A FORWARD crossing with room makes an axle, which waits in G1 or, without a roller station, is DONE. -/
theorem Live.endCrossing_of_forward (hfree : l.seqFree) (hopen : l.openRecord = some r) (hd : k.direction = .forward)
    (hroom : r.axles.length < r.expected ∧ l.tracker.g1.length < 4)
    (hfresh : ∀ b ∈ r.axles, b.index ≠ r.axles.length + 1) :
    ∃ a, (l.endCrossing T k).ps = l.ps.crossed T k
      ∧ (l.endCrossing T k).openRecord = some { r with axles := r.axles ++ [a] }
      ∧ (l.endCrossing T k).tracker = { l.tracker with
          g1 := if T.present .ra || T.present .rb then l.tracker.g1 ++ [r.axles.length + 1] else l.tracker.g1 }
      ∧ CrossedAxle r (if T.present .ra || T.present .rb then .inGap else .done) (k.measured T) l.ps.tare.stale a
      ∧ a.verdict = if T.present .ra || T.present .rb then .absent
          else axleVerdict T.rows r.cls { a with verdict := .absent } := by
  have hcross : l.takeCrossing T k.direction (k.measured T) l.ps.tare.stale =
      l.forwardCrossing T r (k.measured T) l.ps.tare.stale := by
    rw [hd]
    simp only [Live.takeCrossing, hopen]
  rw [Live.forwardCrossing_of_room hroom] at hcross
  cases hrollers : T.present .ra || T.present .rb with
  | true =>
    rw [hrollers, if_pos rfl] at hcross
    rw [Live.endCrossing_eq hfree hcross (Live.makesPlateAxle_still _ _ _).ps (Live.makesPlateAxle_seq _ _ _),
      Live.raiseMistrack_of_false]
    refine ⟨_, rfl, Live.makesPlateAxle_openRecord hopen .inGap _ _, ?_, plateAxle_crossedAxle .inGap _ _, ?_⟩
    · simp [Live.makesPlateAxle_tracker]
    · simp [plateAxle_verdict]
  | false =>
    rw [hrollers, if_neg Bool.false_ne_true] at hcross
    rw [Live.endCrossing_eq hfree hcross ((Live.axleDone_ps _).trans (Live.makesPlateAxle_still _ _ _).ps)
      ((Live.axleDone_seq _).trans (Live.makesPlateAxle_seq _ _ _)), Live.raiseMistrack_of_false]
    refine ⟨_, rfl, Live.axleDone_makesPlateAxle_openRecord hopen hfresh _ _, ?_, plateAxle_done_crossedAxle _ _ _, ?_⟩
    · simp [Live.axleDone_tracker, Live.makesPlateAxle_tracker]
    · rw [plateAxle_done]
      rfl

/-- A REVERSE crossing withdraws the newest axle. -/
theorem Live.endCrossing_of_reverse (hfree : l.seqFree) (hopen : l.openRecord = some r) (hd : k.direction = .reverse)
    {j : Nat} {a : AxleRecord} (h : l.lastWaits r j a) : ∃ m : Live, l.endCrossing T k = m.event .axleWithdrawn (some .ps) j 0
      ∧ m.ps = l.ps.crossed T k ∧ m.tracker = { l.tracker with g1 := l.tracker.g1.dropLast } ∧ m.chain = l.chain
      ∧ m.openRecord = some { r with axles := r.axles.dropLast } := by
  let s : Live := { l with tracker := { l.tracker with g1 := l.tracker.g1.dropLast } }
  let t := s.updOpen fun x => { x with axles := x.axles.dropLast }
  have hstill : Still s t := Live.updOpen_still (.refl s) _
  have hcross : l.takeCrossing T k.direction (k.measured T) l.ps.tare.stale =
      (t.event .axleWithdrawn (some .ps) j 0, false) := by
    rw [hd, ← Live.reverseCrossing_of_last h]
    simp only [Live.takeCrossing, hopen]
  refine ⟨t.setPS (l.ps.crossed T k), ?_, rfl, ?_, ?_, ?_⟩
  · rw [Live.endCrossing_eq hfree hcross ((Live.event_still hstill _ _ _ _).ps) ((Live.event_seq _ _ _ _).trans (Live.updOpen_seq _)),
      Live.raiseMistrack_of_false]
    exact Live.offerEvent_setPS _ _ _
  · exact Live.updOpen_tracker (s := s) _
  · change t.chain = s.chain
    unfold t Live.updOpen
    split <;> rfl
  · have hs : s.openRecord = some r := hopen
    rw [Live.openRecord_setPS, Live.openRecord_updOpen, hs]
    rfl

theorem Live.takeCrossing_of_no_room (hopen : l.openRecord = some r) (hd : k.direction = .forward)
    (h : ¬ (r.axles.length < r.expected ∧ l.tracker.g1.length < 4)) (m : Option PlateValues) (stale : Bool) :
    l.takeCrossing T k.direction m stale = (l, true) := by
  rw [hd, ← Live.forwardCrossing_of_no_room (T := T) h m stale]
  simp only [Live.takeCrossing, hopen]

theorem Live.takeCrossing_of_none_last (hopen : l.openRecord = some r) (hd : k.direction = .reverse)
    (h : ∀ j a, ¬ l.lastWaits r j a) (m : Option PlateValues) (stale : Bool) :
    l.takeCrossing T k.direction m stale = (l, true) := by
  rw [hd, ← Live.reverseCrossing_of_none h]
  simp only [Live.takeCrossing, hopen]

end
end Sys2Proof.Machine
end

section
/-! ## The samples of the lane and of the plate, put together (O15) -/

namespace Sys2Proof.Machine

section
variable {T : Tables} {s : State} {i : Nat} {e : ChannelEntry} {c : ChannelState}

theorem ChannelEntry.outsideOf_iff (v : Int) :
    e.outsideOf v = true ↔ e.applicability ≠ .never ∧ (v < e.low ∨ e.high < v) := by
  simp only [ChannelEntry.outsideOf, Bool.and_eq_true, bne_iff_ne, Bool.or_eq_true, decide_eq_true_eq]
  tauto

theorem ChannelEntry.heard_latest (v : Option Int) : ({ e.heard c with latest := v } : ChannelState) =
    if e.station = none then { c with latest := v }
    else { { c with latest := v } with silence := some 0, silent := false, silenceRaised := false } := by
  unfold ChannelEntry.heard
  split <;> rfl

theorem takePeak_eq (o : Option Int) (v : Int) : takePeak o v =
    some (match o with | some p => if p.natAbs < v.natAbs then v else p | none => v) := by
  cases o with
  | none => rfl
  | some p => simp only [takePeak]; split <;> rfl

theorem Live.raise_raised_of_axle {l : Live} {src : Source} {scope : Scope} {axle detail : Nat} (h : l.scopeAxle scope = axle) :
    Raised T src scope axle detail l (l.raise T src scope detail) := h ▸ Live.raiseWith_raised T l src scope _ detail

/-- Settles O15: the segment by its place in the set; then each role's value by the branches of the unit that takes it. -/
theorem laneAndPlateSamplesAreTaken : Obligations.LaneAndPlateSamplesAreTaken := by
  refine ⟨?calibration, ?aux, ?mirrors, ?guard, ?plate⟩
  case calibration =>
    intro T l e x set range
    have hrange : range = roleRange e.role := by unfold range; cases e.role <;> rfl
    refine ⟨fun i a b hsort ha hb hleft hright => ?_, Live.offset_of_untared⟩
    rw [calibrated_of_segment hsort ha hb hleft hright, hrange]
    rfl
  case aux =>
    intro s src ch x i e c hawake hf hon hi he hc haux hmirror v acts scope outside applies other ended heard inside with' c' d goes
    have hen := Tables.enabled_of_entryOfHead hi he
    have hexec : exec (.sampleFrame src ch [x]) s = .next (s.withLive
        ((s.live.endSilence s.tables i e).takeSample s.tables i e x)) := by
      rw [exec_sampleFrame_steered hawake hf hon hi he, Live.steer1_single hmirror]
    have hacts : acts ↔ e.acts s.tables = true := ChannelEntry.acts_iff.symm
    have hscope : scope = entryScope e := by unfold scope entryScope; cases e.station <;> rfl
    have haxle : s.live.scopeAxle scope = match e.station with | some st => (s.live.bound st).getD 0 | none => 0 := by
      unfold scope; cases e.station <;> rfl
    have hout : e.outsideOf v = true ↔ outside := e.outsideOf_iff v
    have hd : d = { e.heard c with latest := some v } := (e.heard_latest (some v)).symm
    have hheard : ∀ y, s.live.hears s.tables i e c y = with' y heard := fun y => by
      rw [Live.hears, Live.endIf_eq, ← hscope]; rfl
    have hinside : ∀ y, (with' y heard).endIf (c.outside && !other (·.outside)) .channelWindow scope = with' y inside :=
      fun y => by rw [Live.endIf_eq]
    refine ⟨fun ha => ?_, fun ha ho => ?_, fun ha ho hq => ?_, fun ha ho hq hr => ?_⟩
    · have habsent : e.acts s.tables = false := by rw [hacts] at ha; simpa using ha
      exact hexec.trans (by rw [Live.takeAux_of_absent hc hen haux habsent]; rfl)
    · have hv : e.outsideOf v = false := by rw [← hout] at ho; simpa using ho
      refine hexec.trans ?_
      rw [Live.takeAux_of_inside hc hen haux (hacts.1 ha) hv, hheard, hd, ← hinside, hscope]
      rfl
    · have hquiet : s.live.windowApplies s.tables e = false ∨ c.windowRaised = true := by
        refine hq.imp_left fun h => ?_
        rw [← Bool.not_eq_true, Live.windowApplies_iff (hacts.1 ha)]
        exact h
      refine hexec.trans ?_
      rw [Live.takeAux_of_outside hc hen haux (hacts.1 ha) (hout.2 ho) hquiet, hheard, hd]
    · refine ⟨_, hexec, ?_⟩
      rw [Live.takeAux_of_raise hc hen haux (hacts.1 ha) (hout.2 ho) ((Live.windowApplies_iff (hacts.1 ha)).2 hq) hr, hheard, hd,
        ← hscope]
      exact Live.raise_raised_of_axle haxle
  case mirrors =>
    intro s src ch l x i e c hawake hf hon hi he hc haux hst hclear v out goes
    have hen := Tables.enabled_of_entryOfHead hi he
    have huntimed : e.timed s.tables = false := by rw [ChannelEntry.timed_eq hen, hst]; rfl
    have hexec : e.applicability = .never → exec (.sampleFrame src ch (l ++ [x])) s = .next (s.withLive
        ((s.live.putChannel i { c with latest := some v, outside := false, windowRaised := false }).mirror s.tables i e
          (headFrame src kindSample (samplePayload ch (l ++ [x])))
          ((l ++ [x]).map fun y => calibrated s.tables e (signed16 y.toNat)) s.live.chain.up.length)) := fun hn => by
      rw [exec_sampleFrame_steered hawake hf hon hi he, Live.steer1, Live.endSilence_of_untimed huntimed,
        Live.takeSamples_aux haux hst hn x l hc hclear]
    have hc' := Live.putChannel_channel hc { c with latest := some v, outside := false, windowRaised := false }
    refine ⟨fun hm hn => ?_, fun hm hn => ⟨fun hcount => ?_, fun hdue => ?_⟩⟩
    · refine (hexec hn).trans ?_
      rw [Live.mirror, if_pos hm]
      rfl
    · refine (hexec hn).trans ?_
      rw [Live.mirror_of_counting hc' hm hcount, Live.putChannel_putChannel]
      rfl
    · refine (hexec hn).trans ?_
      rw [Live.mirror_of_due hc' hm hdue _ _ (n := s.live.chain.up.length) rfl, Live.putChannel_putChannel, Live.offerMirror_eq]
      rfl
  case guard =>
    intro s src ch x i e c h hrole hst v l guard goes
    have hv : v = calibrated s.tables e (signed16 x.toNat) := Live.valueOf_of_untared (.inl hst) x
    have hexec : goes (l.judgeGuard s.tables v) := by
      unfold goes
      rw [h.exec_eq]
      simp only [Live.deliver, hrole]
      rfl
    refine ⟨?_, fun h1 hraised => ?_, fun h1 hraised => ?_, fun h0 => ?_⟩
    · rw [hv]
      exact calibrated_contact (by rw [hrole]; rfl) _
    · rw [h1, Live.judgeGuard_of_raised (l := l) hraised] at hexec
      exact hexec
    · rw [h1, Live.judgeGuard_of_open (l := l) hraised] at hexec
      exact ⟨_, hexec, Live.raise_lane_raised _ _ _ _⟩
    · rw [h0, Live.judgeGuard_of_closed, Live.endIf_eq] at hexec
      exact hexec
  case plate =>
    intro s src ch x i e c h hst v l goes
    refine ⟨fun hrole => ?_, fun d hrole => ?_⟩
    · have hexec : goes (l.takeDisplacement s.tables i (calibrated s.tables e (signed16 x.toNat)) v) := by
        unfold goes
        rw [h.exec_eq]
        simp only [Live.deliver, hrole]
        rfl
      refine ⟨fun hstate => ?_, fun k hstate hk => ?_⟩
      · simp only [List.mem_cons, List.not_mem_nil, or_false, not_or] at hstate
        rw [Live.takeDisplacement_of_no_crossing (l := l) hstate.1 hstate.2] at hexec
        exact hexec
      · rw [Live.takeDisplacement_of_crossing (l := l) hstate hk, takePeak_eq] at hexec
        exact hexec
    · intro was ps
      have hexec : goes (l.takeContact s.tables d (v == 1)) := by
        unfold goes
        rw [h.exec_eq]
        cases d <;> simp only [Live.deliver, hrole] <;> rfl
      have hcontact : l.ps.contact d = was := by cases d <;> rfl
      have hps : l.ps.withContact d (v == 1) = ps := by cases d <;> rfl
      have hstate : ps.state = l.ps.state := by rw [← hps, PlateStation.withContact_state]
      have hrise : v = 1 → was = false → (v == 1 && !l.ps.contact d) = true := fun h1 hw => by
        rw [hcontact, h1, hw]; rfl
      refine ⟨fun hstill => ?_, fun hidle h1 hw hfree => ?_, fun k htaring h1 hw hk hfree => ?_,
        fun k hcross hk hin hout hfree => ?_⟩
      · rw [Live.takeContact_still, hps] at hexec
        · exact hexec
        · rw [← hstate, hps, hcontact]
          refine hstill.imp_right (Or.imp (And.imp_right fun hno => ?_) (And.imp_right fun hclosed => ?_))
          · rcases hno with h1 | hw
            · simp [h1]
            · simp [hw]
          · simpa using hclosed
      · rw [Live.takeContact_of_idle (l := l) hfree (hrise h1 hw) (hstate ▸ hidle), hps] at hexec
        exact hexec
      · have htare : l.ps.tare = ps.tare := by rw [← hps]; cases d <;> rfl
        rw [Live.takeContact_of_taring (l := l) hfree (hrise h1 hw) (hstate ▸ htaring) (htare ▸ hk), hps, htare] at hexec
        intro dropped
        exact hexec
      · rw [Live.takeContact_of_end (l := l) (hstate ▸ hcross) (by rw [hps]; exact hk) (by rw [hps]; exact hin)
          (by rw [hps]; exact hout), hps] at hexec
        intro measured slip rest g
        have hfree' : (l.setPS ps).seqFree := hfree
        refine ⟨fun hopen => ?_, fun r hopen => ?_⟩
        · rw [Live.endCrossing_of_stray hfree' hopen] at hexec
          exact hexec
        · intro n room rollers last
          refine ⟨fun hd hroom hfresh => ?_, fun hd hroom => ?_, fun j a hd hlast => ?_, fun hd hnone => ?_⟩
          · obtain ⟨a, hps', hrecord, htracker, haxle, hverdict⟩ :=
              Live.endCrossing_of_forward (T := s.tables) hfree' hopen hd hroom hfresh
            simp only [Bool.or_eq_true] at htracker hverdict haxle
            exact ⟨_, a, hexec, hps', hrecord, htracker, haxle.values, haxle.stale, haxle.fresh, hverdict⟩
          · exact ⟨_, hexec, Live.endCrossing_of_mistrack hfree'
              (Live.takeCrossing_of_no_room (l := l.setPS ps) hopen hd hroom _ _)⟩
          · obtain ⟨m, hend, hps', htracker, hchain, hrecord⟩ :=
              Live.endCrossing_of_reverse (T := s.tables) hfree' hopen hd hlast
            rw [hend] at hexec
            exact ⟨m, hexec, hps', htracker, hchain, hrecord⟩
          · exact ⟨_, hexec, Live.endCrossing_of_mistrack hfree'
              (Live.takeCrossing_of_none_last (l := l.setPS ps) hopen hd hnone _ _)⟩

end
end Sys2Proof.Machine
end

section
/-! ## The end of a capture (R77, R85 to R89, R92; O16)

`Live.endCapture_over` says of one end of a capture, whatever its reason, all that `CaptureOver` asks: what each of the operation's
four phases (write, leave, EVENT, report) does to the axles, the states and the up queue. -/

namespace Sys2Proof.Machine

section
variable {T : Tables} {l s : Live} {h r : Roller} {c : Capture} {reason : EndReason}

/-! ### Phase one: the parts (R85, R86, R88) -/

/-- An axle's record read after a write that keeps the indices. -/
theorem VehicleRecord.axle?_updAxle (x : VehicleRecord) (j k : Nat) {f : AxleRecord → AxleRecord}
    (hf : ∀ a, (f a).index = a.index) :
    (x.updAxle j f).axle? k = (x.axle? k).map fun a => if a.index = j then f a else a := by
  have hindex : ((fun a : AxleRecord => a.index == k) ∘ fun a => if a.index = j then f a else a) = fun a => a.index == k := by
    funext a
    simp only [Function.comp_apply]
    split
    · rw [hf]
    · rfl
  simp only [VehicleRecord.axle?, VehicleRecord.updAxle, List.find?_map, hindex]

theorem VehicleRecord.index_of_axle? {x : VehicleRecord} {k : Nat} {a : AxleRecord} (ha : x.axle? k = some a) : a.index = k := by
  simpa using List.find?_some ha

theorem Live.index_of_axle? {k : Nat} {a : AxleRecord} (ha : l.axle? k = some a) : a.index = k := by
  obtain ⟨x, -, hx⟩ := Option.bind_eq_some_iff.1 ha
  exact VehicleRecord.index_of_axle? hx

theorem Live.axle?_updAxle (l : Live) (j k : Nat) {f : AxleRecord → AxleRecord} (hf : ∀ a, (f a).index = a.index) :
    (l.updAxle j f).axle? k = (l.axle? k).map fun a => if a.index = j then f a else a := by
  unfold Live.axle?
  rw [Live.openRecord_updAxle]
  cases l.openRecord with
  | none => rfl
  | some x => exact x.axle?_updAxle j k hf

theorem Live.axle?_updAxle_self {k : Nat} {a : AxleRecord} (ha : l.axle? k = some a) {f : AxleRecord → AxleRecord}
    (hf : ∀ a, (f a).index = a.index) : (l.updAxle k f).axle? k = some (f a) := by
  rw [Live.axle?_updAxle l k k hf, ha, Option.map_some, if_pos (Live.index_of_axle? ha)]

theorem Live.axle?_updAxle_other (l : Live) {j k : Nat} (hjk : j ≠ k) {f : AxleRecord → AxleRecord}
    (hf : ∀ a, (f a).index = a.index) : (l.updAxle j f).axle? k = l.axle? k := by
  rw [Live.axle?_updAxle l j k hf]
  cases ha : l.axle? k with
  | none => rfl
  | some a => rw [Option.map_some, if_neg (by rw [Live.index_of_axle? ha]; exact Ne.symm hjk)]

theorem Live.axle?_of_slots {m : Live} (hm : m.records.slots = l.records.slots) (k : Nat) : m.axle? k = l.axle? k := by
  simp only [Live.axle?, Live.openRecord_of_slots hm]

theorem Live.openClass_updAxle (l : Live) (j : Nat) (f : AxleRecord → AxleRecord) :
    (l.updAxle j f).openClass = l.openClass := by
  unfold Live.openClass
  rw [Live.openRecord_updAxle]
  cases l.openRecord <;> rfl

theorem AxleRecord.setBrake_index (a : AxleRecord) (p : BrakePart) (x : Part BrakeResult) : (a.setBrake p x).index = a.index := by
  cases p <;> rfl

/-- The target part of an axle as the end of a capture leaves it for one of its stations. -/
def Live.endPart (T : Tables) (h : Roller) (c : Capture) (reason : EndReason) (l : Live) (r : Roller) (a : AxleRecord) :
    Part BrakeResult :=
  if reason.normal then brakePart T l.openClass a c (c.result h r reason) (l.tare (stationOf r)).stale
  else interruptPart reason (a.brake c.settings.part)

theorem Live.captureWrite_self {k : Nat} {a : AxleRecord} (hb : l.bound (stationOf r) = some k) (ha : l.axle? k = some a) :
    (l.captureWrite T h c reason r).axle? k = some (a.setBrake c.settings.part (l.endPart T h c reason r a)) := by
  unfold Live.captureWrite Live.endPart
  split
  · simp only [Live.writeBrake, hb, Option.bind_some, ha, Live.index_of_axle? ha]
    exact Live.axle?_updAxle_self ha fun b => b.setBrake_index _ _
  · simp only [Live.markBrake, hb]
    exact Live.axle?_updAxle_self ha fun b => b.setBrake_index _ _

theorem Live.captureWrite_other {k : Nat} (hb : l.bound (stationOf r) ≠ some k) :
    (l.captureWrite T h c reason r).axle? k = l.axle? k := by
  unfold Live.captureWrite
  split
  · unfold Live.writeBrake
    split
    · rename_i a ha
      obtain ⟨j, hj, hja⟩ := Option.bind_eq_some_iff.1 ha
      refine Live.axle?_updAxle_other l (fun he => hb ?_) fun b => b.setBrake_index _ _
      rw [hj, ← he, Live.index_of_axle? hja]
    · rfl
  · unfold Live.markBrake
    split
    · rename_i j hj
      exact Live.axle?_updAxle_other l (fun he => hb (by rw [hj, he])) fun b => b.setBrake_index _ _
    · rfl

theorem Live.captureWrite_openClass : (l.captureWrite T h c reason r).openClass = l.openClass := by
  unfold Live.captureWrite
  split
  · unfold Live.writeBrake
    split
    · exact Live.openClass_updAxle _ _ _
    · rfl
  · unfold Live.markBrake
    split
    · exact Live.openClass_updAxle _ _ _
    · rfl

theorem Live.captureWrite_still : Still l (l.captureWrite T h c reason r) := by
  unfold Live.captureWrite
  split
  · exact Live.writeBrake_still (.refl l) _ _ _
  · exact Live.markBrake_still (.refl l) _ _ _

theorem Live.captureWrite_bound (st : Station) : (l.captureWrite T h c reason r).bound st = l.bound st := by
  have htracker := (Live.captureWrite_quiet (T := T) (.refl l) h c reason r).tracker
  cases st <;> simp only [Live.bound, htracker]

theorem Live.captureWrite_endPart (q : Roller) (a : AxleRecord) :
    (l.captureWrite T h c reason r).endPart T h c reason q a = l.endPart T h c reason q a := by
  have hstill := Live.captureWrite_still (T := T) (l := l) (h := h) (c := c) (reason := reason) (r := r)
  have htare : (l.captureWrite T h c reason r).tare (stationOf q) = l.tare (stationOf q) := by
    cases q <;> simp only [stationOf, Live.tare, hstill.ra, hstill.rb]
  simp only [Live.endPart, Live.captureWrite_openClass, htare]

theorem Live.captureWrite_up : (l.captureWrite T h c reason r).chain = l.chain := by
  have hup : ∀ (j : Nat) (f : AxleRecord → AxleRecord), (l.updAxle j f).chain = l.chain := fun j f => by
    unfold Live.updAxle Live.updOpen
    split <;> rfl
  unfold Live.captureWrite
  split
  · unfold Live.writeBrake
    split
    · exact hup _ _
    · rfl
  · unfold Live.markBrake
    split
    · exact hup _ _
    · rfl

/-- Every part is written: an axle to which one station of the capture is bound alone has the part that its station's end gives. -/
theorem Live.captureWrites_axle? {k : Nat} {a : AxleRecord} (hr : r ∈ captureStations h c)
    (hb : l.bound (stationOf r) = some k) (ha : l.axle? k = some a)
    (halone : ∀ q ∈ captureStations h c, q ≠ r → l.bound (stationOf q) ≠ some k) :
    ((captureStations h c).foldl (fun x q => x.captureWrite T h c reason q) l).axle? k =
      some (a.setBrake c.settings.part (l.endPart T h c reason r a)) := by
  unfold captureStations at *
  cases hj : c.settings.joint with
  | false =>
    simp only [hj, Bool.false_eq_true, if_false, List.mem_singleton] at hr
    subst hr
    simpa using Live.captureWrite_self hb ha
  | true =>
    simp only [hj, if_true] at halone
    simp only [if_true, List.foldl_cons, List.foldl_nil]
    cases r with
    | ra =>
      have hother : (l.captureWrite T h c reason .ra).bound (stationOf .rb) ≠ some k := by
        rw [Live.captureWrite_bound]
        exact halone .rb (by simp) (by decide)
      rw [Live.captureWrite_other hother, Live.captureWrite_self hb ha]
    | rb =>
      have hother := Live.captureWrite_other (T := T) (h := h) (c := c) (reason := reason) (halone .ra (by simp) (by decide))
      rw [Live.captureWrite_self (by rw [Live.captureWrite_bound]; exact hb) (hother.trans ha), Live.captureWrite_endPart]

/-! ### Phase two: the stations leave MEASURING (R87, R88, R129, R133) -/

/-- A change of stations that a sequencer which waits at most on a capture answers with no frame. -/
structure SendsNothing (old s : Live) : Prop where
  up : s.chain.up = old.chain.up
  apart : s.seqApart
  plan : ∀ h, s.seq.planCapture h = old.seq.planCapture h

theorem SendsNothing.refl (ha : l.seqApart) : SendsNothing l l := ⟨rfl, ha, fun _ => rfl⟩

theorem SendsNothing.trans {a b d : Live} (h : SendsNothing a b) (k : SendsNothing b d) : SendsNothing a d :=
  ⟨k.up.trans h.up, k.apart, fun r => (k.plan r).trans (h.plan r)⟩

/-- A write that leaves the sequencer and the up queue. -/
theorem SendsNothing.of_eq {old : Live} (ha : old.seqApart) (hseq : s.seq = old.seq) (hup : s.chain.up = old.chain.up) :
    SendsNothing old s :=
  ⟨hup, by unfold Live.seqApart; rw [hseq]; exact ha, fun r => by rw [hseq]⟩

theorem SendsNothing.seqRest {x : SeqState} (hx : x ≠ .waiting) : SendsNothing l (l.seqRest x) :=
  ⟨rfl, fun hw => absurd hw hx, fun r => by cases r <;> rfl⟩

theorem Live.makeRestart_sendsNothing (x : Restart) : SendsNothing l (l.makeRestart T x) := by
  simp only [Live.makeRestart]
  split
  · exact ⟨rfl, nofun, fun r => by cases r <;> rfl⟩
  · exact ⟨rfl, nofun, fun r => by cases r <;> rfl⟩

theorem Live.heldEnds_sendsNothing : SendsNothing l (l.heldEnds T) := by
  unfold Live.heldEnds
  split
  · exact .seqRest (by decide)
  · split
    · exact .seqRest (by decide)
    · split
      · exact Live.makeRestart_sendsNothing _
      · exact .seqRest (by decide)

theorem Live.seqSees_sendsNothing (ha : l.seqApart) (st : Station) : SendsNothing l (l.seqSees T st) := by
  unfold Live.seqSees
  split
  · rename_i hw
    obtain ⟨r, hr⟩ := ha hw
    have hsame : l.waitSees T st = l := by simp only [Live.waitSees, hr]
    rw [hsame]
    exact .refl ha
  · split
    · exact Live.heldEnds_sendsNothing
    · exact .refl ha
  · exact .refl ha

theorem Live.enter_sendsNothing (ha : l.seqApart) (st : Station) (x : StationState) : SendsNothing l (l.enter T st x) := by
  have hput : SendsNothing l (l.putState st x) := .of_eq ha (l.putState_seq st x) (by rw [Live.putState_chain])
  exact hput.trans (Live.seqSees_sendsNothing hput.apart st)

theorem Live.offerDrive_up (b : Bool) : (l.offerDrive T r b).chain.up = l.chain.up := by
  unfold Live.offerDrive Live.admitDown?
  dsimp only
  split
  · simp
  · split <;> rename_i hd <;> split at hd
    · cases hd; rfl
    · cases hd
    · cases hd
    · simp

theorem Live.captureLeave_sendsNothing (ha : l.seqApart) (how : Leaving) : SendsNothing l (l.captureLeave T how r) := by
  have hset : ∀ {m : Live} (x : RollerStation), SendsNothing l m → SendsNothing l (m.setRoller r x) := fun x hm =>
    hm.trans (.of_eq hm.apart (Live.setRoller_seq _ _ _) (by rw [Live.setRoller_chain]))
  have hdrive : SendsNothing l (l.offerDrive T r false) := .of_eq ha (Live.offerDrive_seq _ _) (Live.offerDrive_up _)
  have henter : ∀ {m : Live} (x : StationState), SendsNothing l m → SendsNothing l (m.enter T (stationOf r) x) :=
    fun x hm => hm.trans (Live.enter_sendsNothing hm.apart _ _)
  cases how with
  | ready => exact henter _ (hset _ (.refl ha))
  | releasing => exact henter _ (hset _ hdrive)
  | faulted => exact henter _ (hset _ hdrive)

theorem Live.captureLeaves_sendsNothing (how : Roller → Leaving) : ∀ (rs : List Roller) {m : Live}, SendsNothing l m →
    SendsNothing l (rs.foldl (fun x q => x.captureLeave T (how q) q) m)
  | [], _, hm => hm
  | q :: rs, _, hm => Live.captureLeaves_sendsNothing how rs (hm.trans (Live.captureLeave_sendsNothing hm.apart (how q)))

theorem Live.offerDrive_records (b : Bool) : (l.offerDrive T r b).records = l.records := by
  unfold Live.offerDrive Live.admitDown?
  dsimp only
  split
  · simp
  · split <;> rename_i hd <;> split at hd
    · cases hd; rfl
    · cases hd
    · cases hd
    · simp

theorem Live.enter_records (st : Station) (x : StationState) : (l.enter T st x).records = l.records :=
  (Live.seqSees_reacts _ st).records.trans (Live.putState_records l st x)

theorem Live.captureLeave_records (how : Leaving) : (l.captureLeave T how r).records = l.records := by
  cases how with
  | ready => exact (Live.enter_records _ _).trans (Live.setRoller_records _ _ _)
  | releasing => exact ((Live.enter_records _ _).trans (Live.setRoller_records _ _ _)).trans (Live.offerDrive_records _)
  | faulted => exact ((Live.enter_records _ _).trans (Live.setRoller_records _ _ _)).trans (Live.offerDrive_records _)

/-! ### Phase three: the EVENT CAPTURE_END frames (R89) -/

theorem Live.offerEvent_upAfter (f : Frame) : (l.offerEvent f).chain.up = upAfter [f] l.chain.up := by
  unfold Live.offerEvent upAfter
  split <;> rename_i hroom <;> rw [Config.upCapacity] at hroom
  · rw [List.take_of_length_le (by simp only [List.length_singleton]; omega)]
    rfl
  · rw [show 32 - l.chain.up.length = 0 by omega]
    exact (List.append_nil _).symm

theorem upAfter_cons (f : Frame) (fs : List Frame) (q : List UpFrame) : upAfter (f :: fs) q = upAfter fs (upAfter [f] q) := by
  unfold upAfter
  by_cases hroom : q.length < 32
  · obtain ⟨k, hk⟩ : ∃ k, 32 - q.length = k + 1 := ⟨31 - q.length, by omega⟩
    have hlen : 32 - (q ++ originated [f]).length = k := by
      simp only [originated, List.length_append, List.length_map, List.length_singleton]
      omega
    have hone : [f].take (k + 1) = [f] := by simp
    rw [hk, hone, hlen, List.take_succ_cons, List.append_assoc, ← originated_append, List.singleton_append]
  · have hfull : 32 - q.length = 0 := by omega
    simp only [hfull, List.take_zero, originated, List.map_nil, List.append_nil]

/-- The EVENT CAPTURE_END frame of a station. -/
def captureEndFrame (reason : EndReason) (old : Live) (r : Roller) : Frame :=
  eventFrame .captureEnd (some (stationOf r)) (old.boundOrZero (stationOf r)) (be32 (endReasonCode reason))

theorem Live.captureEvents_up (old : Live) : ∀ (rs : List Roller) {m : Live}, m.tracker = old.tracker →
    (rs.foldl (fun x q => x.captureEvent reason q) m).chain.up = upAfter (rs.map (captureEndFrame reason old)) m.chain.up
  | [], m, _ => by simp [upAfter, originated]
  | q :: rs, m, hm => by
    have htracker : (m.captureEvent reason q).tracker = old.tracker :=
      (Live.captureEvent_quiet (.refl m) reason q).tracker.trans hm
    have hbound : m.boundOrZero (stationOf q) = old.boundOrZero (stationOf q) := by
      cases q <;> simp only [stationOf, Live.boundOrZero, Live.bound, hm]
    have hone : (m.captureEvent reason q).chain.up = upAfter [captureEndFrame reason old q] m.chain.up := by
      rw [captureEndFrame, ← hbound]
      exact Live.offerEvent_upAfter _
    rw [List.foldl_cons, Live.captureEvents_up old rs htracker, hone, List.map_cons]
    exact (upAfter_cons _ _ _).symm

theorem Live.captureEvent_records : (l.captureEvent reason r).records = l.records := (Live.event_reacts _ _ _ _ _).records

theorem Live.captureEvent_seq : (l.captureEvent reason r).seq = l.seq := Live.event_seq _ _ _ _

/-! ### The phases together -/

/-- A field that each step leaves is left by all of them. -/
theorem foldl_field {α β : Type} {f : Live → α → Live} {field : Live → β} (hf : ∀ x a, field (f x a) = field x) :
    ∀ (as : List α) (x : Live), field (as.foldl f x) = field x
  | [], _ => rfl
  | a :: as, x => (foldl_field hf as (f x a)).trans (hf x a)

/-- The capture that the phases of its end find, its end reason entered. -/
def Live.endsWith (h : Roller) (c : Capture) (reason : EndReason) (l : Live) : Live :=
  l.setCapture h (some { c with endReason := some reason })

theorem Live.setCapture_records (x : Option Capture) : (l.setCapture h x).records = l.records := Live.setRoller_records _ _ _

theorem Live.setCapture_bound (x : Option Capture) (st : Station) : (l.setCapture h x).bound st = l.bound st := by
  cases st <;> simp only [Live.bound, Live.setCapture, Live.setRoller_tracker]

theorem Live.setCapture_endPart (x : Option Capture) (q : Roller) (a : AxleRecord) :
    (l.setCapture h x).endPart T h c reason q a = l.endPart T h c reason q a := by
  have hclass : (l.setCapture h x).openClass = l.openClass := by
    simp only [Live.openClass, Live.openRecord_of_slots (congrArg Records.slots (Live.setCapture_records x))]
  have htare : (l.setCapture h x).tare (stationOf q) = l.tare (stationOf q) := by cases h <;> cases q <;> rfl
  simp only [Live.endPart, hclass, htare]

theorem Live.captureStop_axle? (how : Roller → Leaving) {k : Nat} {a : AxleRecord} (hr : r ∈ captureStations h c)
    (hb : l.bound (stationOf r) = some k) (ha : l.axle? k = some a)
    (halone : ∀ q ∈ captureStations h c, q ≠ r → l.bound (stationOf q) ≠ some k) :
    (l.captureStop T h c reason how).axle? k = some (a.setBrake c.settings.part (l.endPart T h c reason r a)) := by
  have hrecords := (foldl_field (f := fun x q => x.captureEvent reason q) (fun _ _ => Live.captureEvent_records)
    (captureStations h c) _).trans (foldl_field (f := fun x q => x.captureLeave T (how q) q)
      (fun _ q => Live.captureLeave_records (how q)) (captureStations h c)
      ((captureStations h c).foldl (fun x q => x.captureWrite T h c reason q) (l.endsWith h c reason)))
  have hstart : (l.endsWith h c reason).axle? k = some a :=
    (Live.axle?_of_slots (congrArg Records.slots (Live.setCapture_records _)) k).trans ha
  refine (Live.axle?_of_slots (congrArg Records.slots hrecords) k).trans ?_
  have hbound : ∀ st, (l.endsWith h c reason).bound st = l.bound st := Live.setCapture_bound _
  rw [Live.captureWrites_axle? hr ((hbound _).trans hb) hstart
      (fun q hq hne => by rw [hbound]; exact halone q hq hne),
    Live.endsWith, Live.setCapture_endPart]

theorem Live.captureStop_up (how : Roller → Leaving) (ha : l.seqApart) :
    (l.captureStop T h c reason how).chain.up = upAfter (captureEnds h c reason l) l.chain.up
      ∧ ∀ q, (l.captureStop T h c reason how).seq.planCapture q = l.seq.planCapture q := by
  let written := (captureStations h c).foldl (fun x q => x.captureWrite T h c reason q) (l.endsWith h c reason)
  let left := (captureStations h c).foldl (fun x q => x.captureLeave T (how q) q) written
  have hchain : written.chain = l.chain :=
    (foldl_field (field := Live.chain) (fun x q => Live.captureWrite_up) _ _).trans (Live.setRoller_chain _ _ _)
  have hseq : written.seq = l.seq :=
    (foldl_field (field := Live.seq) (fun x q => Live.captureWrite_seq _ _ _ _) _ _).trans (Live.setRoller_seq _ _ _)
  have hwritten : SendsNothing l written := .of_eq ha hseq (by rw [hchain])
  have hleft : SendsNothing l left := Live.captureLeaves_sendsNothing how _ hwritten
  have hquiet : Quiet l left := Quiet.foldl (fun x q hx => Live.captureLeave_quiet hx _ _) _
    (Quiet.foldl (fun x q hx => Live.captureWrite_quiet hx _ _ _ _) _ (Live.setCapture_quiet (.refl l) _ _))
  refine ⟨?_, fun q => ?_⟩
  · change ((captureStations h c).foldl (fun x q => x.captureEvent reason q) left).chain.up = _
    rw [Live.captureEvents_up l _ hquiet.tracker, hleft.up]
    rfl
  · change ((captureStations h c).foldl (fun x q => x.captureEvent reason q) left).seq.planCapture q = _
    rw [foldl_field (field := Live.seq) (fun x q => Live.captureEvent_seq), hleft.plan]

/-! ### Phase four: the report (R77, R89) -/

theorem Live.captureReport_up (axle : Nat) : ∃ more, (l.captureReport T h c reason axle).chain.up = l.chain.up ++ originated more
    ∧ (l.seq.planCapture h = none → more = []) := by
  have hset : (l.captureReport T h c reason axle).chain = (l.seqCaptureEnd T h c reason axle).chain := Live.setRoller_chain _ _ _
  rw [hset]
  cases hplan : l.seq.planCapture h with
  | none =>
    have hsame : l.seqCaptureEnd T h c reason axle = l := by simp only [Live.seqCaptureEnd, hplan]
    exact ⟨[], by rw [hsame]; exact (List.append_nil _).symm, fun _ => rfl⟩
  | some p =>
    obtain ⟨more, hmore⟩ := (Live.seqCaptureEnd_quiet (T := T) (.refl l) h c reason axle).up.1
    exact ⟨more, hmore, fun hnone => by cases hnone⟩

theorem Live.captureReport_axle? (axle k : Nat) : (l.captureReport T h c reason axle).axle? k = l.axle? k :=
  Live.axle?_of_slots (congrArg Records.slots ((Live.setCapture_records _).trans (Live.seqCaptureEnd_reacts _ _ _ _ _).records)) k

theorem mem_captureStations_map {st : Station} : st ∈ (captureStations h c).map stationOf ↔
    ∃ q, stationRoller st = some q ∧ q ∈ captureStations h c := by
  rw [List.mem_map]
  constructor
  · rintro ⟨q, hq, rfl⟩
    exact ⟨q, stationRoller_stationOf q, hq⟩
  · rintro ⟨q, hst, hq⟩
    exact ⟨q, hq, (stationRoller_some hst).symm⟩

/-- The end of a capture, whatever its reason (R85 to R89, R92). -/
theorem Live.endCapture_over (hc : (l.roller h).capture = some c) {how : Roller → Leaving} {after : StationState}
    (hafter : ∀ q ∈ captureStations h c, (how q).state = after) {part : Roller → AxleRecord → Part BrakeResult}
    (hpart : ∀ q a, l.endPart T h c reason q a = part q a) :
    CaptureOver h c reason after part l (l.endCapture T h reason how) := by
  have hend : l.endCapture T h reason how =
      (l.captureStop T h c reason how).captureReport T h c reason (l.boundOrZero (stationOf h)) := by
    simp only [Live.endCapture, hc]
  refine ⟨Live.endCapture_quiet (.refl l) _ _ _, ?_, fun st => ?_, fun r hr k a hb ha halone => ?_, fun hapart => ?_⟩
  · rw [hend, Live.captureReport, Live.setCapture, Live.roller_setRoller_self]
  · rw [Live.endCapture_stationState l hc]
    by_cases hst : st ∈ (captureStations h c).map stationOf
    · rw [if_pos hst]
      obtain ⟨q, hq, hmem⟩ := mem_captureStations_map.1 hst
      simp only [hq, if_pos hmem, hafter q hmem]
    · rw [if_neg hst]
      cases hq : stationRoller st with
      | none => rfl
      | some q => exact if_neg fun hmem => hst (mem_captureStations_map.2 ⟨q, hq, hmem⟩)
  · rw [hend, Live.captureReport_axle?, Live.captureStop_axle? how hr hb ha halone, hpart]
  · obtain ⟨hup, hplan⟩ := Live.captureStop_up (T := T) (h := h) (c := c) (reason := reason) how hapart
    obtain ⟨more, hmore, hnone⟩ := Live.captureReport_up (T := T) (l := l.captureStop T h c reason how) (h := h) (c := c)
      (reason := reason) (l.boundOrZero (stationOf h))
    rw [hend]
    exact ⟨more, by rw [hmore, hup], fun hn => hnone ((hplan h).trans hn)⟩

end
end Sys2Proof.Machine
end

section
/-! ## A capture takes a value (R80 to R82, R91; O16) -/

namespace Sys2Proof.Machine

section
variable {T : Tables} {l m : Live} {h r : Roller} {c k : Capture} {reason : EndReason} {d : Side} {v : Int}

/-! ### A capture goes on, or ends normally -/

theorem Live.judgeEntrySilence_of_noneSilent (hs : l.noneSilent) (i : Nat) : l.judgeEntrySilence T i = l := by
  cases he : T.entries[i]? with
  | none => simp only [Live.judgeEntrySilence, he]
  | some e =>
    cases hc : l.steer.channels[i]? with
    | none => simp only [Live.judgeEntrySilence, he, hc]
    | some c =>
      have hsilent : c.silent = false := hs c (List.mem_of_getElem? hc)
      exact Live.judgeEntrySilence_of_unheard he hc fun st _ => by simp [hsilent]

theorem Live.judgeSilence_of_noneSilent (hs : l.noneSilent) (st : Station) : l.judgeSilence T st = l :=
  List.foldl_fixed' (fun i => by simp only [Live.judgeEntrySilence_of_noneSilent hs, ite_self]) _

theorem Live.judgeReady_of_noneSilent (hs : l.noneSilent) : l.judgeReady T = l := by
  simp only [Live.judgeReady, List.foldl_cons, List.foldl_nil, Live.judgeSilence_of_noneSilent hs, ite_self]

theorem normalLeaving_state (c : CaptureSettings) (reason : EndReason) : (normalLeaving c reason).state =
    if reason = .lockup ∨ c.autoRelease = true then .releasing else .ready := by
  unfold normalLeaving
  split <;> rfl

/-- What an end makes of a capture whose values have just been written is what it makes of the state before. -/
theorem CaptureOver.of_setCapture {after : StationState} {part : Roller → AxleRecord → Part BrakeResult} {x : Option Capture}
    (ho : CaptureOver h c reason after part (l.setCapture h x) m) : CaptureOver h c reason after part l m := by
  have hbound := Live.setCapture_bound (l := l) (h := h) x
  have haxle : ∀ k, (l.setCapture h x).axle? k = l.axle? k :=
    Live.axle?_of_slots (congrArg Records.slots (Live.setCapture_records x))
  obtain ⟨frame, context, stations, parts, ends⟩ := ho
  refine ⟨(Live.setCapture_quiet (.refl l) h x).trans frame, context, fun st => ?_, fun r hr k a hb ha halone => ?_,
    fun hapart => ?_⟩
  · rw [stations, Live.setCapture_stationState]
  · refine parts r hr k a ((hbound _).trans hb) ((haxle k).trans ha) fun q hq hne => ?_
    rw [hbound]
    exact halone q hq hne
  · have hseq : (l.setCapture h x).seq = l.seq := Live.setRoller_seq _ _ _
    have hchain : (l.setCapture h x).chain = l.chain := Live.setRoller_chain _ _ _
    have hends : captureEnds h c reason (l.setCapture h x) = captureEnds h c reason l := by
      simp only [captureEnds, Live.boundOrZero, hbound]
    have hsaid := ends (by unfold Live.seqApart; rw [hseq]; exact hapart)
    rwa [hends, hchain, hseq] at hsaid

/-- A normal end of a capture that has just taken a value (R85, R87, R92). -/
theorem Live.goOn_ended (hn : reason.normal = true) (hs : l.noneSilent) :
    CaptureEnded T h c reason l (l.goOn T h c (some reason)) := by
  have hquiet := Live.setCapture_quiet (.refl l) h (some c)
  have hready : l.goOn T h c (some reason) =
      (l.setCapture h (some c)).endCapture T h reason fun _ => normalLeaving c.settings reason := by
    refine Live.judgeReady_of_noneSilent ?_
    unfold Live.noneSilent
    rw [(Live.endCapture_quiet hquiet _ _ _).steer]
    exact hs
  rw [hready]
  refine CaptureOver.of_setCapture (x := some c) (Live.endCapture_over ?_ (fun _ _ => normalLeaving_state _ _) fun q a => ?_)
  · rw [Live.setCapture, Live.roller_setRoller_self]
  · rw [Live.setCapture_endPart, Live.endPart, if_pos hn]
    cases q <;> rfl

/-- No station of a capture that has ended normally is MEASURING, and no other one begins to. -/
theorem CaptureEnded.not_measuring (he : CaptureEnded T h c reason l m) {q : Roller}
    (hq : q ∈ captureStations h c ∨ (l.roller q).state ≠ .measuring) : (m.roller q).state ≠ .measuring := by
  rw [Live.roller_state, he.stations]
  split
  · split <;> decide
  · rename_i hout
    rcases hq with hq | hq
    · exact absurd (List.mem_map_of_mem hq) hout
    · rwa [Live.roller_state] at hq

/-! ### The capture that a station measures for -/

theorem Live.measuringCapture_of_not_measuring (hm : (l.roller r).state ≠ .measuring) : l.measuringCapture r = none :=
  if_neg hm

theorem Live.measuringCapture_single (hj : ∀ o, l.ra.capture = some o → o.settings.joint = false)
    (hm : (l.roller r).state = .measuring) : l.measuringCapture r = (l.roller r).capture.map fun k => (r, k) := by
  have hholder : l.captureHolder r = if (l.roller r).capture.isSome then some r else none := by
    unfold Live.captureHolder
    split
    · rename_i o ho
      rw [if_neg (by simp [hj o ho])]
    · rfl
  rw [Live.measuringCapture, if_pos hm, hholder]
  cases hc : (l.roller r).capture <;> simp [hc]

theorem Live.measuringCapture_joint (hk : l.ra.capture = some k) (hj : k.settings.joint = true)
    (hm : (l.roller r).state = .measuring) : l.measuringCapture r = some (.ra, k) := by
  have hholder : l.captureHolder r = some .ra := by simp only [Live.captureHolder, hk, hj, if_true]
  have hra : (l.roller .ra).capture = some k := hk
  simp [Live.measuringCapture, hm, hholder, hra]

/-! ### FORCE values (R80, R91) -/

@[simp] theorem Capture.setSide_settings (x : SideReduction) : (k.setSide h r d x).settings = k.settings := by
  unfold Capture.setSide
  cases d <;> split <;> rfl

/-- A capture after a FORCE value of a station's side. -/
def Capture.forced (k : Capture) (h r : Roller) (d : Side) (v : Nat) : Capture :=
  k.setSide h r d ((k.side h r d).force k.pedal v)

/-- The next FORCE value of a station's side is the last of the capture's length. -/
def Capture.Full (k : Capture) (h r : Roller) (d : Side) : Prop :=
  r = h ∧ d = .left ∧ ∃ n, k.settings.length = some n ∧ n ≤ k.left.count + 1

theorem Capture.forced_settings (v : Nat) : (k.forced h r d v).settings = k.settings := Capture.setSide_settings _

theorem Capture.forced_left_count (v : Nat) : (k.forced h h .left v).left.count = k.left.count + 1 := by
  simp only [Capture.forced, Capture.setSide, Capture.side, Capture.sides, if_true, SideReduction.force]

theorem forceEnd_of_ceiling {n v : Nat} (hn : k.settings.ceiling = some n) (hv : n ≤ v) :
    forceEnd k h r d v = some .ceiling := by
  simp only [forceEnd, hn, hv, decide_true, if_true]

theorem forceEnd_of_below {v : Nat} (hbelow : ∀ n, k.settings.ceiling = some n → v < n) : forceEnd k h r d v =
    if r = h ∧ d = .left ∧ ∃ n, k.settings.length = some n ∧ n ≤ k.left.count then some .count else none := by
  have hskip : forceEnd k h r d v = forceEnd { k with settings := { k.settings with ceiling := none } } h r d v := by
    cases hn : k.settings.ceiling with
    | none => simp only [forceEnd, hn]
    | some n => simp only [forceEnd, hn, decide_eq_false (Nat.not_le.2 (hbelow n hn))]
  rw [hskip]
  by_cases hside : r = h ∧ d = .left
  · cases hlength : k.settings.length with
    | none => simp [forceEnd, hside, hlength]
    | some n => simp [forceEnd, hside, hlength]
  · rw [if_neg fun hfull => hside ⟨hfull.1, hfull.2.1⟩]
    simp only [forceEnd, Bool.false_eq_true, if_false, if_neg hside]

/-- What a FORCE value below the ceiling, if there is one, ends its capture with. -/
theorem forceEnd_forced {v : Nat} (hbelow : ∀ n, k.settings.ceiling = some n → v < n) [Decidable (k.Full h r d)] :
    forceEnd (k.forced h r d v) h r d v = if k.Full h r d then some .count else none := by
  rw [forceEnd_of_below (by rw [Capture.forced_settings]; exact hbelow), Capture.forced_settings]
  by_cases hside : r = h ∧ d = .left
  · obtain ⟨rfl, rfl⟩ := hside
    rw [Capture.forced_left_count]
    exact if_congr Iff.rfl rfl rfl
  · rw [if_neg fun hfull => hside ⟨hfull.1, hfull.2.1⟩, if_neg fun hfull : k.Full h r d => hside ⟨hfull.1, hfull.2.1⟩]

theorem Live.takeForce_eq (hm : l.measuringCapture r = some (h, k)) : l.takeForce T r d v =
    l.goOn T h (k.forced h r d v.toNat) (forceEnd (k.forced h r d v.toNat) h r d v.toNat) := by
  simp only [Live.takeForce, hm]
  rfl

theorem Live.takeForce_kept (hm : l.measuringCapture r = some (h, k))
    (hbelow : ∀ n, k.settings.ceiling = some n → v.toNat < n) (hroom : ¬ k.Full h r d) :
    l.takeForce T r d v = l.setCapture h (some (k.forced h r d v.toNat)) := by
  classical
  rw [Live.takeForce_eq hm, forceEnd_forced hbelow, if_neg hroom]
  rfl

theorem Live.takeForce_count (hm : l.measuringCapture r = some (h, k)) (hs : l.noneSilent)
    (hbelow : ∀ n, k.settings.ceiling = some n → v.toNat < n) (hfull : k.Full h r d) :
    CaptureEnded T h (k.forced h r d v.toNat) .count l (l.takeForce T r d v) := by
  classical
  rw [Live.takeForce_eq hm, forceEnd_forced hbelow, if_pos hfull]
  exact Live.goOn_ended rfl hs

theorem Live.takeForce_ceiling (hm : l.measuringCapture r = some (h, k)) (hs : l.noneSilent) {n : Nat}
    (hn : k.settings.ceiling = some n) (hv : n ≤ v.toNat) :
    CaptureEnded T h (k.forced h r d v.toNat) .ceiling l (l.takeForce T r d v) := by
  rw [Live.takeForce_eq hm, forceEnd_of_ceiling (by rw [Capture.forced_settings]; exact hn) hv]
  exact Live.goOn_ended rfl hs

/-! ### PEDAL values (R81, R91) -/

/-- A capture whose current pedal value is `v`. -/
def Capture.pressed (k : Capture) (v : Nat) : Capture := { k with pedal := some v }

theorem Live.takePedal_of_none (hm : l.measuringCapture r = none) : l.takePedal T r v = l := by
  simp only [Live.takePedal, hm]

theorem Live.takePedal_of_not_holder (hm : l.measuringCapture r = some (h, k)) (hr : h ≠ r) : l.takePedal T r v = l := by
  simp only [Live.takePedal, hm, if_neg hr]

theorem Live.takePedal_kept (hm : l.measuringCapture r = some (r, k))
    (hbelow : ∀ n, k.settings.pedalTarget = some n → v.toNat < n) :
    l.takePedal T r v = l.setCapture r (some (k.pressed v.toNat)) := by
  simp only [Live.takePedal, hm, if_true]
  cases hn : k.settings.pedalTarget with
  | none => rfl
  | some n =>
    simp only [if_neg (Nat.not_le.2 (hbelow n hn))]
    rfl

theorem Live.takePedal_reached (hm : l.measuringCapture r = some (r, k)) (hs : l.noneSilent) {n : Nat}
    (hn : k.settings.pedalTarget = some n) (hv : n ≤ v.toNat) :
    CaptureEnded T r (k.pressed v.toNat) .pedal l (l.takePedal T r v) := by
  simp only [Live.takePedal, hm, if_true, hn, if_pos hv]
  exact Live.goOn_ended rfl hs

/-- A station whose own capture, if it is MEASURING, has a new current pedal value. -/
def RollerStation.pressed (y : RollerStation) (v : Nat) : RollerStation :=
  if y.state = .measuring then { y with capture := y.capture.map (·.pressed v) } else y

theorem Live.setRoller_self (l : Live) (r : Roller) : l.setRoller r (l.roller r) = l := by cases r <;> rfl

/-- A PEDAL value short of the target, where no capture is joint. -/
theorem Live.takePedal_single (hj : ∀ o, l.ra.capture = some o → o.settings.joint = false)
    (hbelow : ∀ k n, (l.roller r).state = .measuring → (l.roller r).capture = some k → k.settings.pedalTarget = some n →
      v.toNat < n) : l.takePedal T r v = l.setRoller r ((l.roller r).pressed v.toNat) := by
  by_cases hm : (l.roller r).state = .measuring
  · have hcapture := Live.measuringCapture_single hj hm
    rw [RollerStation.pressed, if_pos hm]
    cases hk : (l.roller r).capture with
    | none =>
      have hself : ({ l.roller r with capture := (none : Option Capture).map (·.pressed v.toNat) } : RollerStation) =
          l.roller r := by
        rw [Option.map_none, ← hk]
      rw [hself, Live.setRoller_self]
      exact Live.takePedal_of_none (by rw [hcapture, hk]; rfl)
    | some k => exact Live.takePedal_kept (by rw [hcapture, hk]; rfl) fun n hn => hbelow k n hm hk hn
  · rw [Live.takePedal_of_none (Live.measuringCapture_of_not_measuring hm), RollerStation.pressed, if_neg hm,
      Live.setRoller_self]

/-! ### WHEEL values (R82, R91) -/

/-- A WHEEL value `v` slips against a drum value: twice the drum reaches the ready speed, and the slip the lockup limit. -/
def Slips (T : Tables) (drum : Option Int) (v : Int) : Prop :=
  match drum with
  | some w => T.settings.ready ≤ 2 * w ∧ T.settings.lockup ≤ (1000 * (w - v)).tdiv w
  | none => False

theorem lockupRun_of_slips {run : Nat} {drum : Option Int} (hslips : Slips T drum v) : lockupRun T run drum v = run + 1 := by
  cases drum with
  | none => exact hslips.elim
  | some w =>
    obtain ⟨hready, hlockup⟩ := hslips
    simp only [lockupRun, if_neg (Int.not_lt.2 hready), ge_iff_le, if_pos hlockup]

theorem lockupRun_of_not_slips {run : Nat} {drum : Option Int} (hslips : ¬ Slips T drum v) : lockupRun T run drum v = 0 := by
  cases drum with
  | none => rfl
  | some w =>
    by_cases hready : 2 * w < T.settings.ready
    · simp only [lockupRun, if_pos hready]
    · have hlockup : ¬ T.settings.lockup ≤ (1000 * (w - v)).tdiv w := fun hl => hslips ⟨Int.not_lt.1 hready, hl⟩
      simp only [lockupRun, if_neg hready, ge_iff_le, if_neg hlockup]

theorem Live.takeWheel_kept (hm : l.measuringCapture r = some (h, k)) {run : Nat}
    (hrun : lockupRun T (k.side h r d).lockupRun (l.latest T (stationOf r) (drumRole d)) v = run) (hshort : run < 3) :
    l.takeWheel T r d v = l.setCapture h (some (k.setSide h r d { k.side h r d with lockupRun := run })) := by
  simp only [Live.takeWheel, hm, hrun, decide_eq_false (Nat.not_le.2 hshort), Bool.or_false, Bool.false_eq_true, if_false]
  rfl

theorem Live.takeWheel_locked (hm : l.measuringCapture r = some (h, k)) (hs : l.noneSilent) {run : Nat}
    (hrun : lockupRun T (k.side h r d).lockupRun (l.latest T (stationOf r) (drumRole d)) v = run) (hlong : 3 ≤ run) :
    CaptureEnded T h (k.setSide h r d { k.side h r d with lockupRun := run, lockup := true }) .lockup l
      (l.takeWheel T r d v) := by
  simp only [Live.takeWheel, hm, hrun, decide_eq_true hlong, Bool.or_true, if_true]
  exact Live.goOn_ended rfl hs

/-! ### Delivery (R45, R95) -/

/-- The FORCE role of a side. -/
def forceRole : Side → Role
  | .left => .forceL
  | .right => .forceR

/-- The WHEEL role of a side. -/
def wheelRole : Side → Role
  | .left => .wheelL
  | .right => .wheelR

section
variable {e : ChannelEntry}

theorem Live.deliver_force (hrole : e.role = forceRole d) (hst : e.station = some (stationOf r))
    (hm : (l.roller r).state = .measuring) (i : Nat) (cal : Int) : l.deliver T i e cal v = l.takeForce T r d v := by
  have htare : l.tareTake T (stationOf r) i cal = l :=
    Live.tareTake_of_not_taring (by rw [← Live.roller_state, hm]; decide) i cal
  have hdeliver : l.deliver T i e cal v = (l.tareTake T (stationOf r) i cal).takeForce T r d v := by
    cases d <;> cases r <;> simp only [Live.deliver, hrole, hst, forceRole, stationOf, Live.deliverRoller]
  rw [hdeliver, htare]

theorem Live.deliver_wheel (hrole : e.role = wheelRole d) (hst : e.station = some (stationOf r))
    (hm : (l.roller r).state = .measuring) (i : Nat) (cal : Int) : l.deliver T i e cal v = l.takeWheel T r d v := by
  have htare : l.tareTake T (stationOf r) i cal = l :=
    Live.tareTake_of_not_taring (by rw [← Live.roller_state, hm]; decide) i cal
  have hdeliver : l.deliver T i e cal v = (l.tareTake T (stationOf r) i cal).takeWheel T r d v := by
    cases d <;> cases r <;> simp only [Live.deliver, hrole, hst, wheelRole, stationOf, Live.deliverRoller]
  rw [hdeliver, htare]

theorem Live.deliver_pedal (hrole : e.role = .pedal) (i : Nat) (cal : Int) :
    l.deliver T i e cal v = (l.takePedal T .ra v).takePedal T .rb v := by
  simp only [Live.deliver, hrole]

end

/-! ### The state that a sample is delivered to -/

section
variable {s : State} {i : Nat} {e : ChannelEntry} {y : ChannelState}

theorem State.sampledAs_noneSilent (hs : s.live.noneSilent) (hy : s.live.steer.channels[i]? = some y) (v : Int) :
    (s.sampledAs i e y v).noneSilent := by
  intro x hx
  rcases List.mem_or_eq_of_mem_set hx with hx | rfl
  · exact hs x hx
  · exact hs y (List.mem_of_getElem? hy)

/-- A value is not the latest one of another role. -/
theorem State.sampledAs_latest (he : s.tables.entries[i]? = some e) {st : Station} {role : Role} (hrole : e.role ≠ role)
    (v : Int) : (s.sampledAs i e y v).latest s.tables st role = s.live.latest s.tables st role := by
  unfold Live.latest
  cases hj : s.tables.entryOfRole (some st) role with
  | none => rfl
  | some j =>
    have hij : i ≠ j := fun hij => hrole (Tables.role_of_entryOfRole hj (hij ▸ he))
    simp only [State.sampledAs, List.getElem?_set_ne hij]

end

end
end Sys2Proof.Machine
end

section
/-! ## A value of a capture's entries, put together (O16) -/

namespace Sys2Proof.Machine

/-! ### The reductions of a side (R80) -/

section
variable (y : SideReduction) (pedal : Option Nat) (v : Nat)

theorem SideReduction.force_peak : (y.force pedal v).peak = max y.peak v := by
  simp only [SideReduction.force]
  split <;> omega

theorem SideReduction.force_settling (h : y.count < 16) :
    (y.force pedal v).minimum = y.minimum ∧ (y.force pedal v).maximum = y.maximum := by
  have hspread : ¬ y.count + 1 > Config.settlingValues := by rw [Config.settlingValues]; omega
  simp only [SideReduction.force, decide_eq_false hspread, Bool.false_eq_true, if_false, and_self]

theorem SideReduction.force_spread (h : 16 ≤ y.count) :
    (y.force pedal v).minimum = some (min (y.minimum.getD v) v)
      ∧ (y.force pedal v).maximum = some (max (y.maximum.getD v) v) := by
  have hspread : y.count + 1 > Config.settlingValues := by rw [Config.settlingValues]; omega
  simp only [SideReduction.force, decide_eq_true hspread, if_true]
  constructor
  · cases y.minimum <;> simp [minWith]
  · cases y.maximum <;> simp [maxWith]

end

/-! ### The sample of an entry that feeds a capture -/

theorem State.sampledAs_of_station (s : State) (i : Nat) {e : ChannelEntry} (c : ChannelState) (v : Int) {st : Station}
    (hst : e.station = some st) : s.sampledAs i e c v = { s.live with steer := { s.live.steer with
      channels := s.live.steer.channels.set i
        { c with latest := some v, silence := some 0, silenceRaised := false, windowRaised := false } } } := by
  simp only [State.sampledAs, hst, Option.isSome_some, if_true]

theorem Live.measuring_of_capture {l : Live} {r : Roller} {a : Roller × Capture} (h : l.measuringCapture r = some a) :
    (l.roller r).state = .measuring := by
  by_contra hm
  rw [Live.measuringCapture_of_not_measuring hm] at h
  cases h

section
variable {s : State} {src ch : Byte} {x : Half} {i : Nat} {e : ChannelEntry} {c : ChannelState} {h r : Roller} {d : Side}
  {k : Capture}

/-- A FORCE value reaches the capture of its station. -/
theorem Sampled.force (hx : Sampled s src ch x i e c) (hrole : e.role = forceRole d) (hst : e.station = some (stationOf r))
    (hm : s.live.measuringCapture r = some (h, k)) : exec (.sampleFrame src ch [x]) s = .next (s.withLive
      ((s.sampledAs i e c (s.valueOf e x)).takeForce s.tables r d (s.valueOf e x))) := by
  rw [hx.exec_eq, Live.deliver_force (l := s.sampledAs i e c (s.valueOf e x)) hrole hst (Live.measuring_of_capture hm)]

theorem Sampled.force_kept (hx : Sampled s src ch x i e c) (hrole : e.role = forceRole d)
    (hst : e.station = some (stationOf r)) (hm : s.live.measuringCapture r = some (h, k))
    (hbelow : ∀ n, k.settings.ceiling = some n → (s.valueOf e x).toNat < n) (hroom : ¬ k.Full h r d) :
    exec (.sampleFrame src ch [x]) s = .next (s.withLive
      ((s.sampledAs i e c (s.valueOf e x)).setCapture h (some (k.forced h r d (s.valueOf e x).toNat)))) := by
  rw [hx.force hrole hst hm, Live.takeForce_kept (l := s.sampledAs i e c (s.valueOf e x)) hm hbelow hroom]

theorem Sampled.force_count (hx : Sampled s src ch x i e c) (hrole : e.role = forceRole d)
    (hst : e.station = some (stationOf r)) (hm : s.live.measuringCapture r = some (h, k)) (hs : s.live.noneSilent)
    (hbelow : ∀ n, k.settings.ceiling = some n → (s.valueOf e x).toNat < n) (hfull : k.Full h r d) :
    ∃ m, exec (.sampleFrame src ch [x]) s = .next (s.withLive m) ∧ CaptureEnded s.tables h
      (k.forced h r d (s.valueOf e x).toNat) .count (s.sampledAs i e c (s.valueOf e x)) m :=
  ⟨_, hx.force hrole hst hm, Live.takeForce_count hm (State.sampledAs_noneSilent hs hx.channel _) hbelow hfull⟩

theorem Sampled.force_ceiling (hx : Sampled s src ch x i e c) (hrole : e.role = forceRole d)
    (hst : e.station = some (stationOf r)) (hm : s.live.measuringCapture r = some (h, k)) (hs : s.live.noneSilent)
    {n : Nat} (hn : k.settings.ceiling = some n) (hv : n ≤ (s.valueOf e x).toNat) :
    ∃ m, exec (.sampleFrame src ch [x]) s = .next (s.withLive m) ∧ CaptureEnded s.tables h
      (k.forced h r d (s.valueOf e x).toNat) .ceiling (s.sampledAs i e c (s.valueOf e x)) m :=
  ⟨_, hx.force hrole hst hm, Live.takeForce_ceiling hm (State.sampledAs_noneSilent hs hx.channel _) hn hv⟩

/-- A WHEEL value reaches the capture of its station. -/
theorem Sampled.wheel (hx : Sampled s src ch x i e c) (hrole : e.role = wheelRole d) (hst : e.station = some (stationOf r))
    (hm : s.live.measuringCapture r = some (h, k)) : exec (.sampleFrame src ch [x]) s = .next (s.withLive
      ((s.sampledAs i e c (s.valueOf e x)).takeWheel s.tables r d (s.valueOf e x))) := by
  rw [hx.exec_eq, Live.deliver_wheel (l := s.sampledAs i e c (s.valueOf e x)) hrole hst (Live.measuring_of_capture hm)]

/-- A WHEEL value is judged against the drum value that stood before it. -/
theorem Sampled.wheel_latest (hx : Sampled s src ch x i e c) (hrole : e.role = wheelRole d) (st : Station) (v : Int) :
    (s.sampledAs i e c v).latest s.tables st (drumRole d) = s.live.latest s.tables st (drumRole d) :=
  State.sampledAs_latest hx.entry.2 (by rw [hrole]; cases d <;> decide) v

/-- What a WHEEL value does to the lockup run of its side, and to its capture (R82). -/
theorem Sampled.wheel_cases (hx : Sampled s src ch x i e c) (hrole : e.role = wheelRole d)
    (hst : e.station = some (stationOf r)) (hm : s.live.measuringCapture r = some (h, k)) :
    let v := s.valueOf e x
    let l := s.sampledAs i e c v
    let slips := Slips s.tables (s.live.latest s.tables (stationOf r) (drumRole d)) v
    let kept := fun (run : Nat) => exec (.sampleFrame src ch [x]) s = .next (s.withLive
      (l.setCapture h (some (k.setSide h r d { k.side h r d with lockupRun := run }))))
    (¬ slips → kept 0)
      ∧ (slips → (k.side h r d).lockupRun < 2 → kept ((k.side h r d).lockupRun + 1))
      ∧ (slips → 2 ≤ (k.side h r d).lockupRun → s.live.noneSilent → ∃ m,
          exec (.sampleFrame src ch [x]) s = .next (s.withLive m) ∧ CaptureEnded s.tables h
              (k.setSide h r d { k.side h r d with lockupRun := (k.side h r d).lockupRun + 1, lockup := true }) .lockup l m) := by
  intro v l slips kept
  have hlatest := hx.wheel_latest hrole (stationOf r) v
  have hkept : ∀ run,
      lockupRun s.tables (k.side h r d).lockupRun (s.live.latest s.tables (stationOf r) (drumRole d)) v = run →
      run < 3 → kept run := fun run hrun hshort =>
    (hx.wheel hrole hst hm).trans (congrArg (fun m => Host.Outcome.next (s.withLive m))
      (Live.takeWheel_kept (l := l) hm ((congrArg (lockupRun _ _ · v) hlatest).trans hrun) hshort))
  refine ⟨fun hslips => ?_, fun hslips hrun => ?_, fun hslips hrun hs => ?_⟩
  · exact hkept 0 (lockupRun_of_not_slips hslips) (by decide)
  · exact hkept _ (lockupRun_of_slips hslips) (by omega)
  · exact ⟨_, hx.wheel hrole hst hm, Live.takeWheel_locked (l := l) hm (State.sampledAs_noneSilent hs hx.channel v)
      ((congrArg (lockupRun _ _ · v) hlatest).trans (lockupRun_of_slips hslips)) (by omega)⟩

/-- A PEDAL value reaches RA, then RB. -/
theorem Sampled.pedal (hx : Sampled s src ch x i e c) (hrole : e.role = .pedal) :
    exec (.sampleFrame src ch [x]) s = .next (s.withLive (((s.sampledAs i e c (s.valueOf e x)).takePedal s.tables .ra
      (s.valueOf e x)).takePedal s.tables .rb (s.valueOf e x))) := by
  rw [hx.exec_eq, Live.deliver_pedal hrole]

/-- A PEDAL value short of every target, where no capture is joint. -/
theorem Sampled.pedal_kept (hx : Sampled s src ch x i e c) (hrole : e.role = .pedal)
    (hj : ∀ r k, (s.live.roller r).capture = some k → k.settings.joint = false)
    (hbelow : ∀ r k n, (s.live.roller r).state = .measuring → (s.live.roller r).capture = some k →
      k.settings.pedalTarget = some n → (s.valueOf e x).toNat < n) :
    exec (.sampleFrame src ch [x]) s = .next (s.withLive { s.sampledAs i e c (s.valueOf e x) with
      ra := s.live.ra.pressed (s.valueOf e x).toNat, rb := s.live.rb.pressed (s.valueOf e x).toNat }) := by
  let l := s.sampledAs i e c (s.valueOf e x)
  have hra : l.takePedal s.tables .ra (s.valueOf e x) = l.setRoller .ra (s.live.ra.pressed (s.valueOf e x).toNat) :=
    Live.takePedal_single (l := l) (r := .ra) (hj .ra) (hbelow .ra)
  have hsingle : ∀ o, (s.live.ra.pressed (s.valueOf e x).toNat).capture = some o → o.settings.joint = false := by
    intro o ho
    unfold RollerStation.pressed at ho
    split at ho
    · obtain ⟨k, hk, rfl⟩ := Option.map_eq_some_iff.1 ho
      exact hj .ra k hk
    · exact hj .ra o ho
  have hrb : (l.setRoller .ra (s.live.ra.pressed (s.valueOf e x).toNat)).takePedal s.tables .rb (s.valueOf e x) =
      (l.setRoller .ra (s.live.ra.pressed (s.valueOf e x).toNat)).setRoller .rb (s.live.rb.pressed (s.valueOf e x).toNat) :=
    Live.takePedal_single (r := .rb) hsingle (hbelow .rb)
  rw [hx.pedal hrole]
  change Host.Outcome.next (s.withLive ((l.takePedal s.tables .ra _).takePedal s.tables .rb _)) = _
  rw [hra, hrb]
  rfl

/-- A PEDAL value at the target of the one station that is MEASURING. -/
theorem Sampled.pedal_reached (hx : Sampled s src ch x i e c) (hrole : e.role = .pedal)
    (hj : ∀ o, s.live.ra.capture = some o → o.settings.joint = false) (hm : (s.live.roller r).state = .measuring)
    (hk : (s.live.roller r).capture = some k) {n : Nat} (hn : k.settings.pedalTarget = some n) (hv : n ≤ (s.valueOf e x).toNat)
    (halone : ∀ q, q ≠ r → (s.live.roller q).state ≠ .measuring) (hs : s.live.noneSilent) :
    ∃ m, exec (.sampleFrame src ch [x]) s = .next (s.withLive m) ∧ CaptureEnded s.tables r
      (k.pressed (s.valueOf e x).toNat) .pedal (s.sampledAs i e c (s.valueOf e x)) m := by
  let l := s.sampledAs i e c (s.valueOf e x)
  have hcapture : l.measuringCapture r = some (r, k) := (Live.measuringCapture_single (l := s.live) hj hm).trans (by rw [hk]; rfl)
  have hended := Live.takePedal_reached (T := s.tables) hcapture (State.sampledAs_noneSilent hs hx.channel _) hn hv
  refine ⟨_, hx.pedal hrole, ?_⟩
  change CaptureEnded s.tables r _ .pedal l ((l.takePedal s.tables .ra _).takePedal s.tables .rb _)
  cases r with
  | ra =>
    rw [Live.takePedal_of_none (r := .rb) (Live.measuringCapture_of_not_measuring
      (hended.not_measuring (.inr (halone .rb (by decide)))))]
    exact hended
  | rb =>
    rw [Live.takePedal_of_none (l := l) (r := .ra) (Live.measuringCapture_of_not_measuring (halone .ra (by decide)))]
    exact hended

/-- A PEDAL value short of the target of a joint capture: it is RA's, and RB takes none. -/
theorem Sampled.pedal_joint_kept (hx : Sampled s src ch x i e c) (hrole : e.role = .pedal)
    (hra : s.live.ra.state = .measuring) (hrb : s.live.rb.state = .measuring) (hk : s.live.ra.capture = some k)
    (hj : k.settings.joint = true) (hbelow : ∀ n, k.settings.pedalTarget = some n → (s.valueOf e x).toNat < n) :
    exec (.sampleFrame src ch [x]) s = .next (s.withLive
      ((s.sampledAs i e c (s.valueOf e x)).setCapture .ra (some (k.pressed (s.valueOf e x).toNat)))) := by
  let l := s.sampledAs i e c (s.valueOf e x)
  have hkept : l.takePedal s.tables .ra (s.valueOf e x) = l.setCapture .ra (some (k.pressed (s.valueOf e x).toNat)) :=
    Live.takePedal_kept (Live.measuringCapture_joint (l := l) (r := .ra) hk hj hra) hbelow
  have hother : (l.setCapture .ra (some (k.pressed (s.valueOf e x).toNat))).measuringCapture .rb = some (.ra, k.pressed _) :=
    Live.measuringCapture_joint (r := .rb) rfl hj hrb
  rw [hx.pedal hrole]
  change Host.Outcome.next (s.withLive ((l.takePedal s.tables .ra _).takePedal s.tables .rb _)) = _
  rw [hkept, Live.takePedal_of_not_holder hother (by decide)]

/-- A PEDAL value at the target of a joint capture ends it for both stations, so that RB takes none. -/
theorem Sampled.pedal_joint_reached (hx : Sampled s src ch x i e c) (hrole : e.role = .pedal)
    (hra : s.live.ra.state = .measuring) (hk : s.live.ra.capture = some k)
    (hj : k.settings.joint = true) {n : Nat} (hn : k.settings.pedalTarget = some n) (hv : n ≤ (s.valueOf e x).toNat)
    (hs : s.live.noneSilent) :
    ∃ m, exec (.sampleFrame src ch [x]) s = .next (s.withLive m) ∧ CaptureEnded s.tables .ra
      (k.pressed (s.valueOf e x).toNat) .pedal (s.sampledAs i e c (s.valueOf e x)) m := by
  let l := s.sampledAs i e c (s.valueOf e x)
  have hended := Live.takePedal_reached (T := s.tables) (Live.measuringCapture_joint (l := l) (r := .ra) hk hj hra)
    (State.sampledAs_noneSilent hs hx.channel _) hn hv
  have hboth : Roller.rb ∈ captureStations .ra (k.pressed (s.valueOf e x).toNat) := by
    have hjoint : (k.pressed (s.valueOf e x).toNat).settings.joint = true := hj
    simp [captureStations, hjoint]
  refine ⟨_, hx.pedal hrole, ?_⟩
  change CaptureEnded s.tables .ra _ .pedal l ((l.takePedal s.tables .ra _).takePedal s.tables .rb _)
  rw [Live.takePedal_of_none (r := .rb) (Live.measuringCapture_of_not_measuring (hended.not_measuring (.inl hboth)))]
  exact hended

/-! ### The statement -/

/-- Settles O16: a single capture's FORCE value, a PEDAL value, the ends and the lockup run of a single capture, and a joint
capture. -/
theorem forceSampleJoinsTheCapture : Obligations.ForceSampleJoinsTheCapture := by
  refine ⟨?force, ?pedal, ?single, ?joint⟩
  case force =>
    intro s src ch x i e c r d k hawake hf hon hi he hc hrole hst hpresent _ hmirror hnever hout hsilent hm hk _ hj v hbelow
      hroom side side' c'
    have hx : Sampled s src ch x i e c := ⟨hawake, hf, hon, ⟨hi, he⟩, hc, ⟨hnever, hmirror, hout, hsilent⟩,
      fun st h => by rw [Option.some.inj (h.symm.trans hst)]; exact hpresent⟩
    have hforce : e.role = forceRole d := hrole.trans (by cases d <;> rfl)
    have hcapture : s.live.measuringCapture r = some (r, k) := (Live.measuringCapture_single hj hm).trans (by rw [hk]; rfl)
    have hshort : ¬ k.Full r r d := fun ⟨_, hd, n, hn, hle⟩ => Nat.not_le.2 (hroom n hd hn) hle
    refine ⟨?_, rfl, side.force_peak _ _, rfl, rfl, rfl, side.force_settling _ _, side.force_spread _ _⟩
    refine (hx.force_kept hforce hst hcapture hbelow hshort).trans ?_
    rw [State.sampledAs_of_station s i c _ hst]
    refine congrArg (fun y => Host.Outcome.next (s.withLive (Live.setCapture r (some y) _))) (?_ : k.forced r r d v.toNat = _)
    cases r <;> cases d <;> rfl
  case pedal =>
    intro s src ch x i e c hx hrole _ v l goes pressed after hj
    refine ⟨fun hbelow => ?_, fun r k n hm hk hn hv halone _ hs => ?_⟩
    · exact hx.pedal_kept hrole hj hbelow
    · exact hx.pedal_reached hrole (hj .ra) hm hk hn hv halone hs
  case single =>
    intro s src ch x i e c r d k hx hst hm hk _ hj v l goes side with'
    have hcapture : s.live.measuringCapture r = some (r, k) := (Live.measuringCapture_single hj hm).trans (by rw [hk]; rfl)
    have hside : side = k.side r r d := by cases r <;> cases d <;> rfl
    have hwith : ∀ y, with' y = k.setSide r r d y := fun y => by cases r <;> cases d <;> rfl
    refine ⟨fun hrole hs _ => ?_, fun hrole => ?_⟩
    · have hforce : e.role = forceRole d := hrole.trans (by cases d <;> rfl)
      rw [hwith, hside]
      refine ⟨fun n hn hv => ?_, fun n hbelow hd hn hle => ?_⟩
      · exact hx.force_ceiling hforce hst hcapture hs hn hv
      · exact hx.force_count hforce hst hcapture hs hbelow ⟨rfl, hd, n, hn, hle⟩
    · have hwheel : e.role = wheelRole d := hrole.trans (by cases d <;> rfl)
      obtain ⟨hstill, hrun, hlocked⟩ := hx.wheel_cases hwheel hst hcapture
      intro drum slips
      have hslips : slips ↔ Slips s.tables (s.live.latest s.tables (stationOf r) (drumRole d)) v := by
        cases d <;> exact Iff.rfl
      simp only [hwith, hside, hslips]
      exact ⟨hstill, hrun, fun h hlong hs _ => hlocked h hlong hs⟩
  case joint =>
    intro s src ch x i e c k hx hra hrb hk hj v l goes kept ends below reached
    refine ⟨fun hrole _ => ⟨fun hbelow => ?_, fun ⟨n, hn, hv⟩ hs => ?_⟩, fun q d hst => ?_⟩
    · exact hx.pedal_joint_kept hrole hra hrb hk hj hbelow
    · exact hx.pedal_joint_reached hrole hra hk hj hn hv hs
    · intro side with'
      have hm : (s.live.roller q).state = .measuring := by cases q with | ra => exact hra | rb => exact hrb
      have hcapture : s.live.measuringCapture q = some (.ra, k) := Live.measuringCapture_joint hk hj hm
      have hside : side = k.side .ra q d := by cases q <;> cases d <;> rfl
      have hwith : ∀ y, with' y = k.setSide .ra q d y := fun y => by cases q <;> cases d <;> rfl
      refine ⟨fun hrole => ?_, fun hrole => ?_⟩
      · have hforce : e.role = forceRole d := hrole.trans (by cases d <;> rfl)
        rw [hwith, hside]
        refine ⟨fun hbelow hroom => ?_, fun ⟨n, hn, hv⟩ hs => ?_, fun hbelow hfull hs => ?_⟩
        · exact hx.force_kept hforce hst hcapture hbelow hroom
        · exact hx.force_ceiling hforce hst hcapture hs hn hv
        · exact hx.force_count hforce hst hcapture hs hbelow hfull
      · have hwheel : e.role = wheelRole d := hrole.trans (by cases d <;> rfl)
        obtain ⟨hstill, hrun, hlocked⟩ := hx.wheel_cases hwheel hst hcapture
        intro drum slips
        have hslips : slips ↔ Slips s.tables (s.live.latest s.tables (stationOf q) (drumRole d)) v := by
          cases d <;> exact Iff.rfl
        simp only [hwith, hside, hslips]
        exact ⟨hstill, hrun, hlocked⟩

end
end Sys2Proof.Machine
end

section
/-! ## The drums and timers of a roller station (R55, R58, R59, R63, R67, R69; O37 to O40, O48, O52, O53)

Under a sequencer that waits on nothing a station's entry into a state is a write of its record: `Live.enterStill_of_free` and its
like say which. `DrumsMoved` is what a start or a stop of the drums does beside the sequencer. -/

namespace Sys2Proof.Machine

section
variable {T : Tables} {old l m : Live} {r : Roller} {start : Bool}

/-! ### One roller station alone -/

theorem OnlyRoller.refl (r : Roller) (l : Live) : OnlyRoller r l l := ⟨rfl, fun _ _ => rfl⟩

theorem OnlyRoller.trans (h : OnlyRoller r old l) (k : OnlyRoller r l m) : OnlyRoller r old m :=
  ⟨k.1.trans h.1, fun q hq => (k.2 q hq).trans (h.2 q hq)⟩

theorem Still.onlyRoller (h : Still old l) (r : Roller) : OnlyRoller r old l := ⟨h.ps, fun q _ => h.roller q⟩

theorem Live.setRoller_onlyRoller (l : Live) (r : Roller) (x : RollerStation) : OnlyRoller r l (l.setRoller r x) :=
  ⟨l.setRoller_ps r x, fun _ hq => l.roller_setRoller_of_ne x hq⟩

@[simp] theorem Live.setRoller_setRoller (l : Live) (r : Roller) (x y : RollerStation) :
    (l.setRoller r x).setRoller r y = l.setRoller r y := by
  cases r <;> rfl

theorem Live.seqFree.of_seq (h : l.seqFree) (hseq : m.seq = l.seq) : m.seqFree := by
  unfold Live.seqFree
  rw [hseq]
  exact h

theorem Live.noneSilent.of_steer (h : l.noneSilent) (hsteer : m.steer = l.steer) : m.noneSilent := by
  unfold Live.noneSilent
  rw [hsteer]
  exact h

theorem Live.seqFree.setRoller (h : l.seqFree) (r : Roller) (x : RollerStation) : (l.setRoller r x).seqFree :=
  h.of_seq (Live.setRoller_seq l r x)

/-! ### DRIVE frames (R15, R69) -/

/-- Making a DRIVE frame writes the station's held frame and the down queue, and nothing else. -/
theorem Live.offerDrive_eq (l : Live) (r : Roller) (start : Bool) :
    ∃ held down, l.offerDrive T r start = (l.setHeld r held).setDown down := by
  have hself : ∀ down, l.setDown down = (l.setHeld r (l.roller r).heldDrive).setDown down := fun down => by cases r <;> rfl
  have hheld : ∀ held, l.setHeld r held = (l.setHeld r held).setDown l.chain.down := fun held => by cases r <;> rfl
  unfold Live.offerDrive Live.admitDown?
  dsimp only
  split
  · exact ⟨_, _, hheld _⟩
  · split <;> rename_i hd <;> split at hd <;> cases hd
    · exact ⟨_, _, hself _⟩
    · exact ⟨_, _, hheld _⟩

theorem Live.offerDrive_made (l : Live) (r : Roller) (start : Bool) : DriveMade T r start l (l.offerDrive T r start) := by
  refine ⟨fun hnone hroom => ?_, fun hheld => ?_⟩
  · have hmade : l.offerDrive T r start =
        l.setDown (placeDown { source := .drive, frame := driveFrame T r start } l.chain.down) := by
      simp only [Live.offerDrive, hnone]
      rw [Live.admitDown?_of_room (show _ < downLevel .drive from hroom)]
    rw [hmade]
    exact ⟨by cases r <;> exact hnone, rfl⟩
  · have hmade : l.offerDrive T r start = l.setHeld r (some (driveFrame T r start)) := by
      unfold Live.offerDrive
      dsimp only
      cases h : (l.roller r).heldDrive with
      | some f => rfl
      | none => rw [Live.admitDown?_of_full (show downLevel .drive ≤ _ from hheld.resolve_left (· h))]
    rw [hmade]
    exact ⟨by simp [Live.setHeld], by simp⟩

/-- A station whose DRIVE frame has been made differs in the frame it holds at most. -/
theorem Live.offerDrive_roller (l : Live) (r : Roller) (start : Bool) : (l.offerDrive T r start).roller r =
    { l.roller r with heldDrive := ((l.offerDrive T r start).roller r).heldDrive } := by
  obtain ⟨held, down, h⟩ := l.offerDrive_eq (T := T) r start
  rw [h]
  cases r <;> rfl

theorem Live.offerDrive_onlyRoller (l : Live) (r : Roller) (start : Bool) : OnlyRoller r l (l.offerDrive T r start) := by
  obtain ⟨held, down, h⟩ := l.offerDrive_eq (T := T) r start
  rw [h]
  exact l.setRoller_onlyRoller r _

/-- What a DRIVE frame's making depends on, and what it writes. -/
theorem DriveMade.congr {old' l' : Live} (h : DriveMade T r start old l)
    (hheld : (old'.roller r).heldDrive = (old.roller r).heldDrive) (hdown : old'.chain.down = old.chain.down)
    (hheld' : (l'.roller r).heldDrive = (l.roller r).heldDrive) (hdown' : l'.chain.down = l.chain.down) :
    DriveMade T r start old' l' := by
  obtain ⟨entered, held⟩ := h
  exact ⟨by rw [hheld, hdown, hheld', hdown']; exact entered, by rw [hheld, hdown, hheld', hdown']; exact held⟩

/-! ### Entering a state (R55, R58, R59, R63, R67) -/

/-- A roller station in a state in which no timer runs. -/
def RollerStation.stilled (x : RollerStation) (y : StationState) : RollerStation := { x.stopTimers with state := y }

theorem Live.setRoller_enter_of_free (h : l.seqFree) (x : RollerStation) (y : StationState) :
    (l.setRoller r x).enter T (stationOf r) y = l.setRoller r { x with state := y } := by
  rw [Live.enter_of_free (h.setRoller r x)]
  cases r <;> rfl

theorem Live.enterStill_of_free (h : l.seqFree) (y : StationState) :
    l.enterStill T r y = l.setRoller r ((l.roller r).stilled y) := Live.setRoller_enter_of_free h _ _

theorem Live.enterReady_of_free (h : l.seqFree) :
    l.enterReady T r = l.setRoller r { (l.roller r).stilled .ready with readyTimer := some 0 } :=
  Live.setRoller_enter_of_free h _ _

/-- A station that begins to settle empties its load history unless it is seated. -/
theorem Live.enterSettling_of_free (h : l.seqFree) : l.enterSettling T r = l.setRoller r { (l.roller r).stilled .settling with
    settleTimer := some 0
    histL := if (l.roller r).seated then (l.roller r).histL else []
    histR := if (l.roller r).seated then (l.roller r).histR else [] } := by
  refine (Live.setRoller_enter_of_free h _ _).trans (congrArg (l.setRoller r) ?_)
  cases hs : (l.roller r).seated <;> simp [RollerStation.stopTimers, RollerStation.stilled, hs]

theorem Live.seqFree.offerDrive (h : l.seqFree) (r : Roller) (start : Bool) : (l.offerDrive T r start).seqFree :=
  h.of_seq (Live.offerDrive_seq r start)

theorem Live.enterReleasing_of_free (h : l.seqFree) : l.enterReleasing T r = (l.offerDrive T r false).setRoller r
    { ((l.offerDrive T r false).roller r).stilled .releasing with releaseTimer := some 0 } :=
  Live.setRoller_enter_of_free (h.offerDrive r false) _ _

/-! ### Drums started and stopped (R63, R67) -/

/-- What a start or a stop of the drums of a roller station does beside the sequencer: the DRIVE frame, the state and its timer. -/
structure DrumsMoved (T : Tables) (r : Roller) (start : Bool) (y : StationState) (spin release : Option Nat) (old l : Live) :
    Prop where
  quiet : Quiet old l
  only : OnlyRoller r old l
  drive : DriveMade T r start old l
  entered : Entered (old.roller r) (l.roller r) y spin none release

theorem DrumsMoved.setSeq {y : StationState} {spin release : Option Nat} (h : DrumsMoved T r start y spin release old l) (q : Seq) :
    DrumsMoved T r start y spin release old (l.setSeq q) :=
  ⟨Live.setSeq_quiet h.quiet q, h.only.trans ((Live.setSeq_still (.refl l) q).onlyRoller r),
    h.drive.congr rfl rfl (by cases r <;> rfl) rfl, by cases r <;> exact h.entered⟩

/-- The sequencer's items before the move do not matter. -/
theorem DrumsMoved.of_setSeq {y : StationState} {spin release : Option Nat} {q : Seq}
    (h : DrumsMoved T r start y spin release (old.setSeq q) l) : DrumsMoved T r start y spin release old l :=
  ⟨(Live.setSeq_quiet (.refl old) q).trans h.quiet, ((Live.setSeq_still (.refl old) q).onlyRoller r).trans h.only,
    h.drive.congr (by cases r <;> rfl) rfl rfl rfl, by cases r <;> exact h.entered⟩

/-- The drums of a station stop (R67). -/
theorem Live.enterReleasing_moved (h : l.seqFree) :
    DrumsMoved T r false .releasing none (some 0) l (l.enterReleasing T r) := by
  refine ⟨Live.enterReleasing_quiet (.refl l) r, ?_, ?_, ?_⟩
  · rw [Live.enterReleasing_of_free h]
    exact (l.offerDrive_onlyRoller r false).trans (Live.setRoller_onlyRoller _ _ _)
  · rw [Live.enterReleasing_of_free h]
    exact (l.offerDrive_made r false).congr rfl rfl (by rw [Live.roller_setRoller]; rfl) (by rw [Live.setRoller_chain])
  · rw [Live.enterReleasing_of_free h, Live.roller_setRoller, Live.offerDrive_roller]
    exact ⟨rfl, ⟨rfl, rfl, rfl, rfl⟩, ⟨rfl, rfl, rfl⟩, ⟨rfl, rfl⟩⟩

theorem Live.enterReleasing_seq_of_free (h : l.seqFree) : (l.enterReleasing T r).seq = l.seq := by
  rw [Live.enterReleasing_of_free h, Live.setRoller_seq, Live.offerDrive_seq]

end
end Sys2Proof.Machine
end

section
/-! ## HEAD_STATUS and the STATION requests (R61 to R64, R67, R70, R73, R79, R90, R95; O17, O37 to O40) -/

namespace Sys2Proof.Machine

section
variable {T : Tables} {old l : Live} {s : State} {r : Roller} {st : Station}

/-! ### HEAD_STATUS (R8, R70) -/

/-- A well-formed HEAD_STATUS frame of a drive head reaches its station. -/
theorem Live.takeDown_headStatus {src drive code : Byte} (h : headAddress src = true) (hr : T.driveStation src.toNat = some r) :
    l.takeDown (headFrame src kindHeadStatus [drive, code]) T = l.headStatus T r drive.toNat code.toNat := by
  have hgood : frameBad .down (headFrame src kindHeadStatus [drive, code]) = false :=
    Laws.GoodFrames.headStatus src drive code h (.down, _) (List.mem_singleton.2 rfl)
  have hdest : (headFrame src kindHeadStatus [drive, code]).dest = 0 := rfl
  have hkind : (headFrame src kindHeadStatus [drive, code]).kind = kindHeadStatus := rfl
  have hsrc : (headFrame src kindHeadStatus [drive, code]).src = src := rfl
  have hother : ¬ kindHeadStatus = kindSample := by decide
  simp only [Live.takeDown, hgood, if_pos hdest, hkind, if_neg hother, hsrc, hr, Bool.false_eq_true, if_false, if_true]
  rfl

/-- Settles O17, by the drive state that the frame carries and the flag as it stood. -/
theorem headStatusSetsAndClearsTheDriveFault : Obligations.HeadStatusSetsAndClearsTheDriveFault := by
  intro s src drive code r hawake hsrc hr flag
  have hexec : exec (.headStatus src drive code) s =
      .next (s.withLive (s.live.headStatus s.tables r drive.toNat code.toNat)) := by
    change Host.Outcome.next (s.onLive (Live.takeDown _)) = _
    rw [State.onLive_awake _ hawake, Live.takeDown_headStatus hsrc hr]
  rw [hexec]
  refine ⟨fun hfault hclear => ⟨_, rfl, ?_⟩, fun hlow hset => ?_, fun hfault hset => ?_, fun hlow hclear => ?_, fun hhigh => ?_⟩
  · simp only [Live.headStatus, driveStateFault, hfault, hclear, if_true, Bool.false_eq_true, if_false]
    refine Live.raise_raised_of_axle ?_
    cases r <;> rfl
  · simp only [Live.headStatus, driveStateFault, if_neg (Nat.ne_of_lt hlow), if_pos hlow, hset, if_true]
    rfl
  · simp only [Live.headStatus, driveStateFault, hfault, hset, if_true, State.withLive_self]
  · simp only [Live.headStatus, driveStateFault, if_neg (Nat.ne_of_lt hlow), if_pos hlow, hclear, Bool.false_eq_true, if_false,
      State.withLive_self]
  · have hfault : drive.toNat ≠ 2 := by omega
    have hlow : ¬ drive.toNat < 2 := by omega
    simp only [Live.headStatus, driveStateFault, hfault, hlow, if_false, State.withLive_self]

/-! ### STATION (R62) -/

/-- A request to a roller station is not for AUTO mode (R62). -/
theorem onRollerRequest_roller (r : Roller) (a : List Byte) (f : Roller → Answered) :
    onRollerRequest T (byte (stationCode (some (stationOf r))) :: a) f l = if l.mode = .auto then refuse T l .state else f r := by
  cases r <;> rfl

/-- The plate station takes neither SPIN nor CAPTURE nor RELEASE (R73). -/
theorem onRollerRequest_plate (a : List Byte) (f : Roller → Answered) : onRollerRequest T (0 :: a) f l = refuse T l .arg := rfl

theorem stationReply_ok {a : Answer} (h : answerStatus a = .ok) :
    stationReply T st a l = accept T l [byte (stationStateCode (l.stationState st))] := by
  rw [stationReply, h]

theorem stationReply_refused {a : Answer} (h : answerStatus a ≠ .ok) : stationReply T st a l = refuse T l (answerStatus a) := by
  unfold stationReply
  split
  · exact absurd ‹_› h
  · rfl

theorem State.taking_seqFree (h : s.live.seqFree) : s.taking.seqFree := h

theorem State.taking_onlyRoller (h : OnlyRoller r s.taking l) : OnlyRoller r s.live l :=
  ⟨h.1, fun q hq => (h.2 q hq).trans (by cases q <;> rfl)⟩

/-- Taking the request from its buffer is no matter of the stations. -/
theorem State.taking_roller (s : State) (r : Roller) : s.taking.roller r = s.live.roller r := by cases r <;> rfl

/-! ### SPIN (R61, R63, R64) -/

/-- The write of a LOAD part at an accepted SPIN touches the OPEN record and the last judgement alone. -/
theorem Live.writeLoad_still (l : Live) (r : Roller) (manual : Bool) : Still l (l.writeLoad r manual) := by
  unfold Live.writeLoad
  dsimp only
  split
  · split
    · exact .refl l
    · exact Live.judged_still (Live.updAxle_still (.refl l) _ _) _
  · exact .refl l

theorem Live.writeLoad_seq (l : Live) (r : Roller) (manual : Bool) : (l.writeLoad r manual).seq = l.seq := by
  unfold Live.writeLoad
  dsimp only
  split
  · split
    · rfl
    · exact Live.updAxle_seq _ _
  · rfl

theorem Live.updAxle_chain (l : Live) (j : Nat) (f : AxleRecord → AxleRecord) : (l.updAxle j f).chain = l.chain := by
  unfold Live.updAxle Live.updOpen
  split <;> rfl

theorem Live.writeLoad_chain (l : Live) (r : Roller) (manual : Bool) : (l.writeLoad r manual).chain = l.chain := by
  unfold Live.writeLoad
  dsimp only
  split
  · split
    · rfl
    · exact l.updAxle_chain _ _
  · rfl

/-- The LOAD part is written from the two histories where it is absent and both have values. -/
theorem Live.writeLoad_axle?_of_absent {k : Nat} {a : AxleRecord} (hb : l.bound (stationOf r) = some k) (ha : l.axle? k = some a)
    (hnone : a.load.values = none) (hL : (l.roller r).histL ≠ []) (hR : (l.roller r).histR ≠ []) (manual : Bool) :
    (l.writeLoad r manual).axle? k = some { a with
      load := loadPart a.load (l.roller r).histL (l.roller r).histR (l.roller r).tare.stale manual } := by
  obtain rfl := Live.index_of_axle? ha
  have hL' : (l.roller r).histL.isEmpty = false := by simpa using hL
  have hR' : (l.roller r).histR.isEmpty = false := by simpa using hR
  simp only [Live.writeLoad, hb, Option.bind_some, ha, hnone, hL', hR', Option.isSome_none, Bool.or_self, Bool.false_eq_true,
    if_false]
  change (l.updAxle a.index _).axle? a.index = _
  refine Live.axle?_updAxle_self ha ?_
  exact fun _ => rfl

theorem Live.writeLoad_axle?_of_present {k : Nat} {a : AxleRecord} (hb : l.bound (stationOf r) = some k) (ha : l.axle? k = some a)
    (h : a.load.values ≠ none ∨ (l.roller r).histL = [] ∨ (l.roller r).histR = []) (manual : Bool) :
    (l.writeLoad r manual).axle? k = some a := by
  have hkeep : (a.load.values.isSome || (l.roller r).histL.isEmpty || (l.roller r).histR.isEmpty) = true := by
    rcases h with h | h | h
    · simp [Option.isSome_iff_ne_none.2 h]
    · simp [h]
    · simp [h]
  simp only [Live.writeLoad, hb, Option.bind_some, ha, hkeep, if_true]

theorem Live.seqFree.setGuide (h : l.seqFree) {g : Guide} : (l.setGuide g).seqFree := h

/-- The station's record as an accepted SPIN leaves it, its DRIVE frame made. -/
def RollerStation.spun (x : RollerStation) : RollerStation :=
  { x.stilled .spinning with readyL := 0, readyR := 0, spinTimer := some 0 }

theorem Live.acceptSpin_of_free (h : l.seqFree) (manual : Bool) : l.acceptSpin T r manual =
    let m := (l.writeLoad r manual).offerDrive T r true
    (m.setRoller r (m.roller r).spun).setGuide { m.guide with focus := some r } := by
  have hfree : ((l.writeLoad r manual).offerDrive T r true).seqFree := (h.of_seq (l.writeLoad_seq r manual)).offerDrive r true
  unfold Live.acceptSpin
  dsimp only
  rw [Live.enter_of_free (hfree.setRoller r _).setGuide]
  cases r <;> rfl

/-- An accepted SPIN (R63, R69). -/
theorem Live.acceptSpin_moved (h : l.seqFree) (manual : Bool) :
    DrumsMoved T r true .spinning (some 0) none l (l.acceptSpin T r manual) := by
  have hstill := l.writeLoad_still r manual
  have hquiet : Quiet l (l.acceptSpin T r manual) := by
    rw [Live.acceptSpin_of_free h]
    exact Live.setGuide_quiet (Live.setRoller_quiet (Live.offerDrive_quiet (Live.writeLoad_quiet (.refl l) r manual) r true) r _) _
  refine ⟨hquiet, ?_, ?_, ?_⟩
  · rw [Live.acceptSpin_of_free h]
    exact (((hstill.onlyRoller r).trans (Live.offerDrive_onlyRoller _ r true)).trans (Live.setRoller_onlyRoller _ r _)).trans
      ((Live.setGuide_still (.refl _) _).onlyRoller r)
  · rw [Live.acceptSpin_of_free h]
    refine (Live.offerDrive_made _ r true).congr (congrArg RollerStation.heldDrive (hstill.roller r).symm)
      (by rw [Live.writeLoad_chain]) ?_ ?_
    · cases r <;> rfl
    · cases r <;> rfl
  · have hroller : (l.acceptSpin T r manual).roller r = (((l.writeLoad r manual).offerDrive T r true).roller r).spun := by
      rw [Live.acceptSpin_of_free h]
      cases r <;> rfl
    rw [hroller, Live.offerDrive_roller, hstill.roller]
    exact ⟨rfl, ⟨rfl, rfl, rfl, rfl⟩, ⟨rfl, rfl, rfl⟩, ⟨rfl, rfl⟩⟩

theorem Live.acceptSpin_seq (h : l.seqFree) (manual : Bool) : (l.acceptSpin T r manual).seq = l.seq := by
  rw [Live.acceptSpin_of_free h]
  dsimp only
  rw [Live.setGuide_seq, Live.setRoller_seq, Live.offerDrive_seq, Live.writeLoad_seq]

/-- The ready counts start at 0, and the bar focus is the station's (R63, R172). -/
theorem Live.acceptSpin_counts (h : l.seqFree) (manual : Bool) : ((l.acceptSpin T r manual).roller r).readyL = 0
    ∧ ((l.acceptSpin T r manual).roller r).readyR = 0 ∧ (l.acceptSpin T r manual).guide.focus = some r := by
  rw [Live.acceptSpin_of_free h]
  cases r <;> exact ⟨rfl, rfl, rfl⟩

theorem Live.acceptSpin_axle? (h : l.seqFree) (manual : Bool) (k : Nat) :
    (l.acceptSpin T r manual).axle? k = (l.writeLoad r manual).axle? k := by
  refine Live.axle?_of_slots (congrArg Records.slots ?_) k
  rw [Live.acceptSpin_of_free h]
  dsimp only
  rw [Live.setGuide_records, Live.setRoller_records, Live.offerDrive_records]

theorem stationSpinRequest_eq (r : Roller) : stationSpinRequest T [byte (stationCode (some (stationOf r))), 0] l =
    if l.mode = .auto then refuse T l .state
    else
      let x := l.requestSpin T r l.manualMarks
      stationReply T (stationOf r) x.1 (x.2.startWork T (stationOf r) x.1) := onRollerRequest_roller r _ _

end
end Sys2Proof.Machine
end

section
/-! ## The requests SPIN, RELEASE and TARE of the stations (R61, R63, R64, R67, R95; O37, O39, O40) -/

namespace Sys2Proof.Machine
section
variable {T : Tables} {old l : Live} {s : State} {r : Roller} {st : Station}

/-- The answer of a roller station to a SPIN below the level STOP (R61). -/
def spinAnswer : StationState → Answer
  | .seated => .accepted
  | .spinning | .ready | .measuring => .noChange
  | .settling | .releasing | .taring => .busy
  | .faulted => .locked
  | .idle | .offline | .crossing => .state

theorem Live.requestSpin_of_level (h : l.level < 2) (manual : Bool) : l.requestSpin T r manual =
    (spinAnswer (l.roller r).state, if (l.roller r).state = .seated then l.acceptSpin T r manual else l) := by
  rw [Live.requestSpin, if_neg (Nat.not_le.2 h)]
  cases (l.roller r).state <;> rfl

theorem Live.requestSpin_of_stop (h : 2 ≤ l.level) (manual : Bool) : l.requestSpin T r manual = (.locked, l) := if_pos h

/-- What is not accepted begins no work. -/
theorem Live.startWork_of_not_accepted {a : Answer} (h : a ≠ .accepted) (st : Station) : l.startWork T st a = l := by
  cases a <;> first | rfl | exact absurd rfl h

theorem Live.startWork_of_noneSilent (h : l.noneSilent) (st : Station) (a : Answer) : l.startWork T st a = l := by
  cases a with
  | accepted => simp only [Live.startWork, Live.judgeSilence_of_noneSilent h, ite_self]
  | _ => rfl

theorem Quiet.noneSilent (h : Quiet old l) (hs : old.noneSilent) : l.noneSilent := hs.of_steer h.steer

/-- A SPIN that the station does not accept. -/
theorem stationSpinRequest_of_not_accepted (hm : l.mode ≠ .auto) (hl : l.level < 2) (hx : (l.roller r).state ≠ .seated) :
    stationSpinRequest T [byte (stationCode (some (stationOf r))), 0] l =
      stationReply T (stationOf r) (spinAnswer (l.roller r).state) l := by
  have ha : spinAnswer (l.roller r).state ≠ .accepted := by
    intro h
    cases hs : (l.roller r).state <;> simp_all [spinAnswer]
  rw [stationSpinRequest_eq, if_neg hm, Live.requestSpin_of_level hl]
  simp only [if_neg hx, Live.startWork_of_not_accepted ha]

/-- A SPIN that a SEATED station accepts. -/
theorem stationSpinRequest_of_seated (hm : l.mode ≠ .auto) (hl : l.level < 2) (hx : (l.roller r).state = .seated)
    (hs : l.noneSilent) (hfree : l.seqFree) : stationSpinRequest T [byte (stationCode (some (stationOf r))), 0] l =
      accept T (l.acceptSpin T r l.manualMarks) [3] := by
  have hmoved := Live.acceptSpin_moved (T := T) (r := r) hfree l.manualMarks
  rw [stationSpinRequest_eq, if_neg hm, Live.requestSpin_of_level hl]
  simp only [if_pos hx]
  rw [Live.startWork_of_noneSilent (hmoved.quiet.noneSilent hs), hx, stationReply_ok rfl, ← Live.roller_state,
    hmoved.entered.state]
  rfl

theorem spinAnswer_of_driven {y : StationState} (h : y.driven = true) : spinAnswer y = .noChange := by
  cases y <;> first | rfl | cases h

theorem spinAnswer_of_busy {y : StationState} (h : y ∈ [StationState.settling, .releasing, .taring]) : spinAnswer y = .busy := by
  simp only [List.mem_cons, List.not_mem_nil, or_false] at h
  rcases h with rfl | rfl | rfl <;> rfl

theorem spinAnswer_of_resting {y : StationState} (h : y ∈ [StationState.idle, .offline]) : spinAnswer y = .state := by
  simp only [List.mem_cons, List.not_mem_nil, or_false] at h
  rcases h with rfl | rfl <;> rfl

/-- The stations' state codes in a reply are those of the state before where nothing has changed. -/
theorem State.taking_stationState (s : State) (r : Roller) : s.taking.stationState (stationOf r) = (s.live.roller r).state := by
  cases r <;> rfl

/-- Settles O37: the refusals by the mode, the level and the station's state, and what an accepted SPIN does. -/
theorem spinStartsTheDrums : Obligations.SpinStartsTheDrums := by
  intro s r hasks x answer
  have hexec : ∀ {y : Answered}, stationSpinRequest s.tables [byte (stationCode (some (stationOf r))), 0] s.taking = y →
      exec .stationSpin s = .next (s.answered 16 y.tables y.live y.status y.data) := exec_answered hasks rfl rfl
  have htaking : s.taking.roller r = x := s.taking_roller r
  refine ⟨fun hauto => ?_, fun hm hstop => ?_, fun hm hl => ?_⟩
  · exact hexec ((stationSpinRequest_eq r).trans (if_pos hauto))
  · refine hexec (y := refuse s.tables s.taking .locked) ?_
    rw [stationSpinRequest_eq, if_neg (show s.taking.mode ≠ .auto from hm), Live.requestSpin_of_stop (l := s.taking) hstop]
    rfl
  have hanswer : ∀ {a : Answer}, spinAnswer x.state = a → a ≠ .accepted →
      stationSpinRequest s.tables [byte (stationCode (some (stationOf r))), 0] s.taking =
        stationReply s.tables (stationOf r) a s.taking := fun ha hne => by
    have hx : (s.taking.roller r).state ≠ .seated := fun hx => hne (by rw [← ha, ← htaking, hx]; rfl)
    rw [stationSpinRequest_of_not_accepted (l := s.taking) hm hl hx, htaking, ha]
  refine ⟨fun hx => ?_, fun hx => ?_, fun hx => ?_, fun hx => ?_, fun hx hs hfree => ?_⟩
  · refine hexec (y := accept s.tables s.taking [byte (stationStateCode x.state)])
      ((hanswer (spinAnswer_of_driven hx) (by decide)).trans ?_)
    rw [stationReply_ok rfl, State.taking_stationState]
  · exact hexec (hanswer (spinAnswer_of_busy hx) (by decide))
  · exact hexec (hanswer (a := .locked) (by rw [hx]; rfl) (by decide))
  · exact hexec (hanswer (spinAnswer_of_resting hx) (by decide))
  · have hseated : (s.taking.roller r).state = .seated := htaking ▸ hx
    have hmoved := Live.acceptSpin_moved (T := s.tables) (r := r) (State.taking_seqFree hfree) s.taking.manualMarks
    obtain ⟨hL, hR, hfocus⟩ := Live.acceptSpin_counts (T := s.tables) (r := r) (State.taking_seqFree hfree) s.taking.manualMarks
    have hentered : Entered x ((s.taking.acceptSpin s.tables r s.taking.manualMarks).roller r) .spinning (some 0) none none :=
      htaking ▸ hmoved.entered
    have hdrive : DriveMade s.tables r true s.live (s.taking.acceptSpin s.tables r s.taking.manualMarks) :=
      hmoved.drive.congr (by rw [htaking]) rfl rfl rfl
    have hseq : (s.taking.acceptSpin s.tables r s.taking.manualMarks).seq = s.live.seq := Live.acceptSpin_seq (l := s.taking) hfree _
    have hexec := hexec (stationSpinRequest_of_seated (l := s.taking) hm hl hseated hs hfree)
    have honly := State.taking_onlyRoller hmoved.only
    have hquiet := hmoved.quiet
    have haxle := Live.acceptSpin_axle? (T := s.tables) (l := s.taking) (r := r) hfree s.taking.manualMarks
    generalize s.taking.acceptSpin s.tables r s.taking.manualMarks = l at *
    refine ⟨l, hexec, hquiet, honly, hseq, hdrive, hentered, hL, hR, hfocus, fun k a hb ha => ⟨?_, ?_⟩⟩
    · intro hnone hhistL hhistR
      refine ⟨_, (haxle k).trans (Live.writeLoad_axle?_of_absent (l := s.taking) (r := r) hb ha hnone
        (by rwa [htaking]) (by rwa [htaking]) _), ?_⟩
      rw [htaking]
      exact ⟨rfl, rfl, rfl⟩
    · intro hkeep
      exact (haxle k).trans
        (Live.writeLoad_axle?_of_present (l := s.taking) (r := r) hb ha (by rwa [htaking]) _)

/-! ### RELEASE (R61, R67, R88) -/

theorem stationReleaseRequest_eq (r : Roller) : stationReleaseRequest T [byte (stationCode (some (stationOf r))), 2] l =
    if l.mode = .auto then refuse T l .state
    else stationReply T (stationOf r) (l.requestRelease T r).1 (l.requestRelease T r).2 := onRollerRequest_roller r _ _

theorem Live.requestRelease_of_offline (h : (l.roller r).state = .offline) : l.requestRelease T r = (.state, l) := by
  simp only [Live.requestRelease, h]

theorem Live.requestRelease_of_resting (h : (l.roller r).state.driven = false) (hx : (l.roller r).state ≠ .offline) :
    l.requestRelease T r = (.noChange, l) := by
  unfold Live.requestRelease
  split <;> first | rfl | simp_all [StationState.driven]

theorem Live.requestRelease_of_turning (h : (l.roller r).state = .spinning ∨ (l.roller r).state = .ready) :
    l.requestRelease T r = (.accepted, l.enterReleasing T r) := by
  rcases h with h | h <;> simp only [Live.requestRelease, h]

theorem Live.requestRelease_of_measuring {h : Roller} (hx : (l.roller r).state = .measuring) (hh : l.captureHolder r = some h) :
    l.requestRelease T r = (.accepted, l.endCapture T h .released fun _ => .releasing) := by
  simp only [Live.requestRelease, hx, hh]

/-- An abnormal end writes nothing: it marks the part (R88, R140). -/
theorem interruptPart_eq (reason : EndReason) (p : Part BrakeResult) : interruptPart reason p = abortedPart reason p := by
  obtain ⟨values, flags, repeats, verdict⟩ := p
  by_cases hs : reason = .skip
  · cases values <;> simp [interruptPart, skipPart, abortedPart, hs]
  · have hskip : (reason == .skip) = false := by simpa using hs
    cases values <;> simp [interruptPart, abortedPart, hs, hskip]

/-- A capture ends abnormally, its stations releasing (R88, R92). -/
theorem Live.endCapture_aborted {h : Roller} {c : Capture} {reason : EndReason} (hc : (l.roller h).capture = some c)
    (hreason : reason.normal = false) :
    CaptureAborted h c reason .releasing l (l.endCapture T h reason fun _ => .releasing) := by
  refine Live.endCapture_over hc (fun _ _ => by rfl) fun q a => ?_
  rw [Live.endPart, if_neg (by simp [hreason]), interruptPart_eq]

/-- Settles O39: the answers by the station's state, a stop of its drums, and the end of its capture. -/
theorem releaseStopsTheDrums : Obligations.ReleaseStopsTheDrums := by
  intro s r hasks x answer
  have hexec : ∀ {y : Answered}, stationReleaseRequest s.tables [byte (stationCode (some (stationOf r))), 2] s.taking = y →
      exec .stationRelease s = .next (s.answered 16 y.tables y.live y.status y.data) := exec_answered hasks rfl rfl
  have htaking : s.taking.roller r = x := s.taking_roller r
  refine ⟨fun hauto => hexec ((stationReleaseRequest_eq r).trans (if_pos hauto)), fun hm => ?_⟩
  have hanswer : ∀ {a : Answer} {l : Live}, s.taking.requestRelease s.tables r = (a, l) →
      stationReleaseRequest s.tables [byte (stationCode (some (stationOf r))), 2] s.taking =
        stationReply s.tables (stationOf r) a l := fun h => by
    rw [stationReleaseRequest_eq, if_neg (show s.taking.mode ≠ .auto from hm), h]
  refine ⟨fun hx => ?_, fun hx hon => ?_, fun hx hfree => ?_, fun h k hx hh hk => ?_⟩
  · exact hexec (hanswer (Live.requestRelease_of_offline (by rwa [htaking])))
  · refine hexec (y := accept s.tables s.taking [byte (stationStateCode x.state)])
      ((hanswer (Live.requestRelease_of_resting (by rwa [htaking]) (by rwa [htaking]))).trans ?_)
    rw [stationReply_ok rfl, State.taking_stationState]
  · have hmoved := Live.enterReleasing_moved (T := s.tables) (r := r) (State.taking_seqFree hfree)
    have hreply := hexec ((hanswer (Live.requestRelease_of_turning (by rwa [htaking]))).trans (stationReply_ok rfl))
    rw [Live.enterReleasing_stationState, if_pos rfl] at hreply
    exact ⟨_, hreply, hmoved.quiet, State.taking_onlyRoller hmoved.only, Live.enterReleasing_seq_of_free (l := s.taking) hfree,
      hmoved.drive.congr (by rw [htaking]) rfl rfl rfl, htaking ▸ hmoved.entered⟩
  · have hcapture : (s.taking.roller h).capture = some k := by rwa [State.taking_roller]
    have hover := Live.endCapture_aborted (T := s.tables) (reason := .released) hcapture rfl
    have hmem : stationOf r ∈ (captureStations h k).map stationOf := by
      obtain ⟨c, hc, hr⟩ := Live.captureHolder_some hh
      rw [hk] at hc
      exact Option.some.inj hc ▸ List.mem_map_of_mem hr
    have hreply := hexec ((hanswer (Live.requestRelease_of_measuring (by rwa [htaking]) hh)).trans (stationReply_ok rfl))
    rw [hover.stations, if_pos hmem] at hreply
    exact ⟨_, hreply, hover⟩

/-! ### TARE (R56, R61, R73, R95, R96) -/

/-- A station takes a TARE: it is IDLE, or present and OFFLINE in SERVICE mode (R56, R61). -/
def Live.takesTare (T : Tables) (st : Station) (l : Live) : Prop :=
  l.stationState st = .idle ∨ (l.stationState st = .offline ∧ l.mode = .service ∧ T.present st = true)

/-- The context of a tare that begins now (R95). -/
def tareBegun (T : Tables) (st : Station) (service : Bool) : TareContext :=
  { service := service, channels := tareChannels T st }

theorem Live.requestTare_accepted (h : l.takesTare T st) (clear : Bool) :
    l.requestTare T st clear = (.accepted, l.acceptTare T st (l.stationState st == .offline) clear) := by
  rcases h with h | ⟨h, hm, hp⟩
  · simp only [Live.requestTare, h]
    rfl
  · simp only [Live.requestTare, h, hm, hp, and_self, if_true]
    rfl

theorem Live.requestTare_of_taring (h : l.stationState st = .taring) (clear : Bool) : l.requestTare T st clear = (.noChange, l) := by
  simp only [Live.requestTare, h]

theorem Live.requestTare_of_faulted (h : l.stationState st = .faulted) (clear : Bool) : l.requestTare T st clear = (.locked, l) := by
  simp only [Live.requestTare, h]

theorem Live.requestTare_refused (h : ¬ l.takesTare T st) (ht : l.stationState st ≠ .taring) (hf : l.stationState st ≠ .faulted)
    (clear : Bool) : l.requestTare T st clear = (.state, l) := by
  unfold Live.requestTare
  split
  · exact absurd (.inl ‹_›) h
  · exact absurd ‹_› ht
  · exact absurd ‹_› hf
  · exact if_neg fun hs => h (.inr ⟨‹_›, hs⟩)
  · rfl

theorem Live.acceptTare_of_free (h : l.seqFree) (service clear : Bool) : l.acceptTare T st service clear =
    (l.setTare st { l.tare st with
      context := some (tareBegun T st service), bar := (l.tare st).bar && !clear }).putState st .taring := by
  have hfree : (l.setTare st { l.tare st with
      context := some (tareBegun T st service), bar := (l.tare st).bar && !clear }).seqFree := h.of_seq (Live.setTare_seq _ _ _)
  exact Live.enter_of_free hfree st .taring

/-- A tare over some channels begins, no channel being silent (R49, R95). -/
theorem Live.beginTare_of_channels {c : TareContext} (hc : (l.tare st).context = some c) (hne : c.channels ≠ []) (hs : l.noneSilent)
    (a : Answer) : l.beginTare T st a = l := by
  have hstart : l.startTare T st = l := by
    simp only [Live.startTare, hc, List.isEmpty_eq_false_iff.2 hne, Bool.false_eq_true, if_false, Live.judgeSilence_of_noneSilent hs]
  cases a with
  | accepted => exact hstart
  | _ => rfl

theorem stationTareRequest_eq (st : Station) : stationTareRequest T [byte (stationCode (some st)), 3] l =
    if l.mode = .auto then refuse T l .state
    else
      let x := l.requestTare T st true
      stationReply T st x.1 (x.2.beginTare T st x.1) := by
  cases st <;> rfl

theorem Still.tare {s : Live} (h : Still l s) (st : Station) : s.tare st = l.tare st := by
  cases st <;> simp only [Live.tare, h.ps, h.ra, h.rb]

theorem Live.leaveTaring_stationState (l : Live) (service : Bool) :
    (l.leaveTaring T st service).stationState st = if service then .offline else .idle := by
  cases service <;> simp [Live.leaveTaring]

theorem Live.leaveTaring_tare (l : Live) (service : Bool) : (l.leaveTaring T st service).tare st = l.tare st := by
  cases service
  · exact ((Live.seqSees_still (.refl _) st).tare st).trans (Live.tare_putState _ _ _ _)
  · cases st <;> exact (Live.seqSees_still (.refl _) _).tare _

theorem Live.leaveTaring_seq_of_free (h : l.seqFree) (service : Bool) : (l.leaveTaring T st service).seq = l.seq := by
  cases service
  · rw [Live.leaveTaring, if_neg (by decide), Live.enter_of_free h, Live.putState_seq]
  · cases st with
    | ps => exact (congrArg Live.seq (Live.enterOffline_ps_of_free (T := T) h)).trans rfl
    | ra => exact (congrArg Live.seq (Live.setRoller_enter_of_free (T := T) (r := .ra) h _ _)).trans (Live.setRoller_seq _ _ _)
    | rb => exact (congrArg Live.seq (Live.setRoller_enter_of_free (T := T) (r := .rb) h _ _)).trans (Live.setRoller_seq _ _ _)

/-- What the completion of a tare without channels leaves: its station at rest, its tare fresh, its offsets as they were (R95, R96). -/
structure TaredAtOnce (st : Station) (service : Bool) (old l : Live) : Prop where
  quiet : Quiet (old.endCondition .tareStale (.station st)) l
  state : l.stationState st = if service then .offline else .idle
  tare : l.tare st = { old.tare st with age := some 0, ageMs := 0, stale := false, bar := false, context := none }

theorem Live.acceptTare_at_once (h : l.seqFree) (service clear : Bool) (hnone : tareChannels T st = []) :
    TaredAtOnce st service l ((l.acceptTare T st service clear).beginTare T st .accepted) := by
  let begun := (l.setTare st { l.tare st with
    context := some (tareBegun T st service), bar := (l.tare st).bar && !clear }).putState st .taring
  have hseq : begun.seq = l.seq := (Live.putState_seq _ _ _).trans (Live.setTare_seq _ _ _)
  let done := (begun.setTare st ((begun.tare st).completed (tareBegun T st service))).endCondition .tareStale (.station st)
  have hdone : done.seqFree := h.of_seq ((Live.setTare_seq _ _ _).trans hseq)
  let left := done.leaveTaring T st service
  have hleft : left.seq.state ≠ .waiting := by
    rw [show left.seq = done.seq from Live.leaveTaring_seq_of_free hdone service]
    exact hdone.1
  have hfinal : (l.acceptTare T st service clear).beginTare T st .accepted = left.event .tareDone (some st) 0 0 := by
    rw [Live.acceptTare_of_free h]
    have hcontext : (begun.tare st).context = some (tareBegun T st service) := by
      rw [Live.tare_putState, Live.tare_setTare]
    have hstart : begun.beginTare T st .accepted = begun.tareDone T st (tareBegun T st service) := by
      simp only [Live.beginTare, Live.startTare, hcontext, tareBegun, hnone, List.isEmpty_nil, if_true]
    refine hstart.trans (Live.seqTareEnd_of_not_waiting ?_ st .done)
    rw [Live.event_seq]
    exact hleft
  have hcommute : done = ((((l.endCondition .tareStale (.station st)).setTare st { l.tare st with
      context := some (tareBegun T st service), bar := (l.tare st).bar && !clear }).putState st .taring).setTare st
        ((begun.tare st).completed (tareBegun T st service))) := by
    cases st <;> rfl
  have hquiet : Quiet (l.endCondition .tareStale (.station st)) done := by
    rw [hcommute]
    exact Live.setTare_quiet (Live.putState_quiet (Live.setTare_quiet (.refl _) st _) st _) st _
  have hstill : Still left (left.event .tareDone (some st) 0 0) := Live.event_still (.refl left) _ _ _ _
  rw [hfinal]
  refine ⟨Live.event_quiet (Live.leaveTaring_quiet hquiet st service) _ _ _ _, ?_, ?_⟩
  · rw [hstill.stationState, Live.leaveTaring_stationState]
  · rw [hstill.tare, Live.leaveTaring_tare, hcommute, Live.tare_setTare, Live.tare_putState, Live.tare_setTare]
    simp only [Tare.completed, tareBegun, hnone, List.foldl_nil]

/-- Settles O40: the refusals by the mode and the station's state, then a tare over channels and one without. -/
theorem tareBeginsAtRest : Obligations.TareBeginsAtRest := by
  intro s st hasks x t service begins answer
  have hexec : ∀ {y : Answered}, stationTareRequest s.tables [byte (stationCode (some st)), 3] s.taking = y →
      exec .stationTare s = .next (s.answered 16 y.tables y.live y.status y.data) := exec_answered hasks rfl rfl
  have hstate : s.taking.stationState st = x := by cases st <;> rfl
  have htare : s.taking.tare st = t := by cases st <;> rfl
  have htakes : begins → s.taking.takesTare s.tables st := fun h => by unfold Live.takesTare; rw [hstate]; exact h
  refine ⟨fun hauto => hexec ((stationTareRequest_eq st).trans (if_pos hauto)), fun hm => ?_⟩
  have hanswer : ∀ {a : Answer} {l : Live}, s.taking.requestTare s.tables st true = (a, l) →
      stationTareRequest s.tables [byte (stationCode (some st)), 3] s.taking =
        stationReply s.tables st a (l.beginTare s.tables st a) := fun h => by
    rw [stationTareRequest_eq, if_neg (show s.taking.mode ≠ .auto from hm), h]
  refine ⟨fun hx => ?_, fun hx => ?_, fun hno ht hf => ?_, fun hb hs hfree hch => ?_, fun hb hfree hch => ?_⟩
  · refine hexec (y := accept s.tables s.taking [7])
      ((hanswer (Live.requestTare_of_taring (hstate.trans hx) true)).trans ?_)
    change stationReply s.tables st .noChange s.taking = _
    rw [stationReply_ok rfl, hstate, hx]
    rfl
  · exact hexec (hanswer (Live.requestTare_of_faulted (hstate.trans hx) true))
  · have hrefused : ¬ s.taking.takesTare s.tables st := by
      unfold Live.takesTare
      rw [hstate]
      exact hno
    exact hexec (hanswer (Live.requestTare_refused hrefused (by rwa [hstate]) (by rwa [hstate]) true))
  · have hbegun := Live.acceptTare_of_free (T := s.tables) (st := st) (State.taking_seqFree hfree) service true
    have hcontext : ((s.taking.acceptTare s.tables st service true).tare st).context = some (tareBegun s.tables st service) := by
      rw [hbegun, Live.tare_putState, Live.tare_setTare]
    have hsilent : (s.taking.acceptTare s.tables st service true).noneSilent :=
      Live.noneSilent.of_steer (l := s.live) hs (by rw [hbegun, Live.putState_steer, Live.setTare_steer]; rfl)
    have haccepted : s.taking.requestTare s.tables st true = (.accepted, s.taking.acceptTare s.tables st service true) :=
      (Live.requestTare_accepted (htakes hb) true).trans (by rw [hstate])
    have hreply := hexec ((hanswer haccepted).trans (stationReply_ok rfl))
    rw [Live.beginTare_of_channels hcontext hch hsilent, hbegun, Live.putState_stationState, if_pos rfl, htare,
      Bool.not_true, Bool.and_false] at hreply
    exact hreply
  · have haccepted : s.taking.requestTare s.tables st true = (.accepted, s.taking.acceptTare s.tables st service true) :=
      (Live.requestTare_accepted (htakes hb) true).trans (by rw [hstate])
    have hdone := Live.acceptTare_at_once (T := s.tables) (State.taking_seqFree hfree) service true hch
    have hreply := hexec ((hanswer haccepted).trans (stationReply_ok rfl))
    rw [hdone.state] at hreply
    exact ⟨_, hdone.quiet, hreply, hdone.state, hdone.tare.trans (by rw [htare])⟩

end
end Sys2Proof.Machine
end

section
/-! ## The request CAPTURE of a roller station (R61, R73, R79, R90; O38) -/

namespace Sys2Proof.Machine
section
variable {T : Tables} {l : Live} {s : State} {r h : Roller} {c : CaptureSettings} {m : Marks}

/-! ### An accepted CAPTURE (R79, R90) -/

/-- The record of a station that begins to measure, with the capture that it holds. -/
def RollerStation.measuring (x : RollerStation) (k : Option Capture) : RollerStation := { x.stilled .measuring with capture := k }

theorem Live.enterMeasuring_of_free (hfree : l.seqFree) :
    l.enterMeasuring T r = l.setRoller r ((l.roller r).stilled .measuring) := Live.enterStill_of_free hfree _

/-- A capture of one station: the holder measures. -/
theorem Live.acceptCapture_single (hfree : l.seqFree) (hj : c.joint = false) : l.acceptCapture T h c m =
    { l with nextStart := l.nextStart + 1 }.setRoller h ((l.roller h).measuring (some (Capture.start c m l.nextStart))) := by
  have hstations : captureStations h (Capture.start c m l.nextStart) = [h] := if_neg (by simp [Capture.start, hj])
  simp only [Live.acceptCapture, hstations, List.foldl_cons, List.foldl_nil]
  have hfree' : ({ l with nextStart := l.nextStart + 1 }.setCapture h (some (Capture.start c m l.nextStart))).seqFree :=
    Live.seqFree.setRoller (l := { l with nextStart := l.nextStart + 1 }) hfree h _
  rw [Live.enterMeasuring_of_free hfree']
  cases h <;> rfl

/-- A joint capture: RA holds it and both roller stations measure. -/
theorem Live.acceptCapture_joint (hfree : l.seqFree) (hj : c.joint = true) : l.acceptCapture T .ra c m =
    { l with
      nextStart := l.nextStart + 1
      ra := l.ra.measuring (some (Capture.start c m l.nextStart))
      rb := l.rb.measuring l.rb.capture } := by
  have hstations : captureStations .ra (Capture.start c m l.nextStart) = [.ra, .rb] := if_pos hj
  have hfree' : ({ l with nextStart := l.nextStart + 1 }.setCapture .ra (some (Capture.start c m l.nextStart))).seqFree := hfree
  simp only [Live.acceptCapture, hstations, List.foldl_cons, List.foldl_nil]
  rw [Live.enterMeasuring_of_free hfree', Live.enterMeasuring_of_free (hfree'.setRoller .ra _)]
  rfl

/-- A capture begins over channels none of which is silent: no silence is judged (R49). -/
theorem Live.startCapture_of_noneSilent (hs : l.noneSilent) (r : Roller) (a : Answer) : l.startCapture T r c a = l :=
  List.foldl_fixed' (fun _ => Live.startWork_of_noneSilent hs _ _) _

/-! ### The answers (R61, R90) -/

theorem Live.requestCapture_ready (hj : c.joint = false) (hx : (l.roller r).state = .ready) :
    l.requestCapture T r c m = (.accepted, l.acceptCapture T r c m) := by
  simp only [Live.requestCapture, hj, hx, Bool.false_eq_true, if_false]

theorem Live.requestCapture_measuring (hj : c.joint = false) (hx : (l.roller r).state = .measuring) :
    l.requestCapture T r c m = (.busy, l) := by
  simp only [Live.requestCapture, hj, hx, Bool.false_eq_true, if_false]

theorem Live.requestCapture_faulted (hj : c.joint = false) (hx : (l.roller r).state = .faulted) :
    l.requestCapture T r c m = (.locked, l) := by
  simp only [Live.requestCapture, hj, hx, Bool.false_eq_true, if_false]

theorem Live.requestCapture_refused (hj : c.joint = false) (hx : (l.roller r).state ∉ [StationState.ready, .measuring, .faulted]) :
    l.requestCapture T r c m = (.state, l) := by
  simp only [List.mem_cons, List.not_mem_nil, or_false, not_or] at hx
  obtain ⟨hready, hmeasuring, hfaulted⟩ := hx
  rw [Live.requestCapture, if_neg (by simp [hj])]
  split
  · exact absurd ‹_› hready
  · exact absurd ‹_› hmeasuring
  · exact absurd ‹_› hfaulted
  · rfl

theorem Live.requestCapture_joint_ready (hj : c.joint = true) (ha : l.ra.state = .ready) (hb : l.rb.state = .ready) :
    l.requestCapture T r c m = (.accepted, l.acceptCapture T .ra c m) := by
  rw [Live.requestCapture, if_pos hj, if_pos ⟨ha, hb⟩]

theorem Live.requestCapture_joint_refused (hj : c.joint = true) (h : l.ra.state ≠ .ready ∨ l.rb.state ≠ .ready) :
    l.requestCapture T r c m = (.state, l) := by
  rw [Live.requestCapture, if_pos hj, if_neg fun ⟨ha, hb⟩ => h.elim (· ha) (· hb)]

/-! ### The request (R73, R79) -/

/-- The settings of a CAPTURE stand in its arguments from the third byte on, then the part and the row. -/
theorem stationCaptureRequest_eq (r : Roller) {b : List Byte} (part row : Byte) (hb : b.length = 6) (hkind : rd b 0 % 4 ≠ 3) :
    stationCaptureRequest T (byte (stationCode (some (stationOf r))) :: 1 :: (b ++ [part, row])) l =
      if l.mode = .auto then refuse T l .state
      else if captureSettingsValid b (codeOrNone part.toNat) (codeOrNone row.toNat) then
        let c := captureSettings b ((codeOrNone part.toNat).map brakePartOfCode) (codeOrNone row.toNat)
        let x := l.requestCapture T r c (l.captureMarks c r)
        stationReply T (stationOf r) x.1 (x.2.startCapture T r c x.1)
      else refuse T l .arg := by
  match b, hb with
  | [b0, b1, b2, b3, b4, b5], _ =>
    have hform : ¬ (10 ≠ 10 ∨ rd [b0, b1, b2, b3, b4, b5] 0 % 4 = 3) := by simpa using hkind
    exact (if_neg hform).trans (onRollerRequest_roller r _ _)

/-- A CAPTURE for the plate station fails by an argument, whatever else it carries. -/
theorem stationCaptureRequest_plate (b : List Byte) : stationCaptureRequest T (0 :: 1 :: b) l = refuse T l .arg := by
  unfold stationCaptureRequest
  exact ite_eq_left_iff.2 fun _ => onRollerRequest_plate _ _

theorem stationReply_measuring {st : Station} (h : l.stationState st = .measuring) :
    stationReply T st .accepted l = accept T l [5] := by
  rw [stationReply_ok rfl, h]
  rfl

theorem Live.captureMarks_repeated (l : Live) (c : CaptureSettings) (r : Roller) : (l.captureMarks c r).repeated = true ↔
    l.manualMarks = true ∧ ∃ j a, l.bound (stationOf (holderOf c r)) = some j ∧ l.axle? j = some a
      ∧ (a.brake c.part).values ≠ none := by
  simp only [Live.captureMarks, Bool.and_eq_true]
  refine and_congr_right fun _ => ?_
  cases hb : l.bound (stationOf (holderOf c r)) with
  | none => simp
  | some j =>
    cases ha : l.axle? j with
    | none => simp [ha]
    | some a => simp [ha, Option.isSome_iff_ne_none]

/-- Settles O38: the refusals in their order, the capture of one station and of both, and the requests to the plate station. -/
theorem captureBeginsToMeasure : Obligations.CaptureBeginsToMeasure := by
  refine ⟨fun s r b part row hb hkind hasks => ?_, fun c m n => ?_,
    fun s b hb => ⟨fun hasks => ?_, fun hasks => ?_, fun hasks => ?_⟩⟩
  · intro code valid c x answer measuring
    have hexec : ∀ {y : Answered}, stationCaptureRequest s.tables
        (byte (stationCode (some (stationOf r))) :: 1 :: (b ++ [part, row])) s.taking = y →
        exec .stationCapture s = .next (s.answered 16 y.tables y.live y.status y.data) := exec_answered hasks rfl rfl
    have htaking : s.taking.roller r = x := s.taking_roller r
    have hrequest := stationCaptureRequest_eq (T := s.tables) (l := s.taking) r part row hb hkind
    refine ⟨fun hauto => hexec (hrequest.trans (if_pos hauto)), fun hm hinvalid => ?_, fun hm hvalid => ?_⟩
    · have hno : ¬ captureSettingsValid b (codeOrNone part.toNat) (codeOrNone row.toNat) = true :=
        Bool.eq_false_iff.1 hinvalid
      exact hexec (hrequest.trans ((if_neg hm).trans (if_neg hno)))
    have hanswer : ∀ {a : Answer} {l : Live}, s.taking.requestCapture s.tables r c (s.taking.captureMarks c r) = (a, l) →
        stationCaptureRequest s.tables (byte (stationCode (some (stationOf r))) :: 1 :: (b ++ [part, row])) s.taking =
          stationReply s.tables (stationOf r) a (l.startCapture s.tables r c a) := fun h =>
      hrequest.trans ((if_neg hm).trans ((if_pos hvalid).trans
        (congrArg (fun x => stationReply s.tables (stationOf r) x.1 (x.2.startCapture s.tables r c x.1)) h)))
    have hrefused : ∀ {a : Answer}, s.taking.requestCapture s.tables r c (s.taking.captureMarks c r) = (a, s.taking) →
        a ≠ .accepted → answerStatus a ≠ .ok → answer s.taking (answerStatus a) [] := fun {a} h hne hbad => by
      have hwork : s.taking.startCapture s.tables r c a = s.taking :=
        List.foldl_fixed' (fun _ => Live.startWork_of_not_accepted hne _) _
      exact hexec ((hanswer h).trans (by rw [hwork, stationReply_refused hbad]))
    refine ⟨fun hj hx => ?_, fun hj hx => ?_, fun hj hx => ?_, fun hj hx => ?_, fun hs hfree => ?_⟩
    · exact hrefused (Live.requestCapture_measuring hj (by rwa [htaking])) (by decide) (by decide)
    · exact hrefused (Live.requestCapture_faulted hj (by rwa [htaking])) (by decide) (by decide)
    · exact hrefused (Live.requestCapture_refused hj (by rwa [htaking])) (by decide) (by decide)
    · exact hrefused (Live.requestCapture_joint_refused (l := s.taking) hj hx) (by decide) (by decide)
    refine ⟨s.taking.captureMarks c r, rfl, s.taking.captureMarks_repeated c r, fun hj hx => ?_, fun hj ha hb => ?_⟩
    · have haccepted := hanswer (Live.requestCapture_ready hj (by rwa [htaking]))
      rw [Live.acceptCapture_single (l := s.taking) hfree hj, htaking] at haccepted
      rw [Live.startCapture_of_noneSilent (Live.noneSilent.of_steer
        (l := { s.taking with nextStart := s.taking.nextStart + 1 }) hs (Live.setRoller_steer _ _ _))] at haccepted
      exact hexec (haccepted.trans (stationReply_measuring (by cases r <;> rfl)))
    · have haccepted := hanswer (Live.requestCapture_joint_ready (l := s.taking) hj ha hb)
      rw [Live.acceptCapture_joint (l := s.taking) hfree hj] at haccepted
      rw [Live.startCapture_of_noneSilent (by exact hs)] at haccepted
      exact hexec (haccepted.trans (stationReply_measuring (by cases r <;> rfl)))
  · refine ⟨rfl, rfl, rfl, rfl, rfl, rfl, fun x hx => ?_⟩
    have hside : x = .start := by
      simpa [Capture.start] using hx
    rw [hside]
    exact ⟨rfl, rfl, rfl, rfl, rfl, rfl, rfl⟩
  · exact exec_answered (x := refuse s.tables s.taking .arg) hasks rfl rfl rfl
  · exact exec_answered hasks rfl rfl (stationCaptureRequest_plate b)
  · exact exec_answered (x := refuse s.tables s.taking .arg) hasks rfl rfl rfl

end
end Sys2Proof.Machine
end

section
/-! ## An axle reaches and leaves a roller station (R58, R59, R107 to R111; O52, O53) -/

namespace Sys2Proof.Machine
section
variable {T : Tables} {l m : Live} {s : State} {r : Roller} {z : RollerStation} {v : VehicleRecord} {k : Nat}

/-! ### The OPEN record beside the stations -/

theorem Live.openRecord_setRoller (l : Live) (r : Roller) (z : RollerStation) : (l.setRoller r z).openRecord = l.openRecord :=
  Live.openRecord_of_slots (congrArg Records.slots (Live.setRoller_records l r z))

theorem Live.openRecord_setBound (l : Live) (r : Roller) (a : Option Nat) : (l.setBound r a).openRecord = l.openRecord :=
  Live.openRecord_of_slots (congrArg Records.slots (Live.setBound_records l r a))

theorem Live.updAxle_faults (l : Live) (j : Nat) (f : AxleRecord → AxleRecord) : (l.updAxle j f).faults = l.faults := by
  unfold Live.updAxle Live.updOpen
  split <;> rfl

/-- RESULT_AXLE is offered to the up queue or kept pending. -/
theorem Live.offerResult_still (h : Still l m) (i : Fin 4) (f : Frame) : Still l (m.offerResult i f) := by
  unfold Live.offerResult
  split <;> exact ⟨h.ps, h.ra, h.rb⟩

theorem Live.offerResult_same (l : Live) (i : Fin 4) (f : Frame) : (l.offerResult i f).seq = l.seq
    ∧ (l.offerResult i f).tracker = l.tracker ∧ (l.offerResult i f).faults = l.faults
    ∧ (l.offerResult i f).chain.down = l.chain.down := by
  unfold Live.offerResult
  split <;> exact ⟨rfl, rfl, rfl, rfl⟩

theorem Live.offerResult_up (l : Live) (i : Fin 4) (f : Frame) :
    ∃ more, (l.offerResult i f).chain.up = l.chain.up ++ originated more := by
  unfold Live.offerResult
  split
  · exact ⟨[f], rfl⟩
  · exact ⟨[], (List.append_nil _).symm⟩

/-! ### The exit (R110, R111) -/

/-- The axle of a station, if it is bound to one, has left it. Only the tracker, the OPEN record and the up queue know of that. -/
structure AxleLeaves (r : Roller) (old l : Live) : Prop where
  still : Still old l
  seq : l.seq = old.seq
  faults : l.faults = old.faults
  down : l.chain.down = old.chain.down
  up : ∃ more, l.chain.up = old.chain.up ++ originated more
  own : l.bound (stationOf r) = none
  others : ∀ p, p ≠ stationOf r → l.bound p = old.bound p
  parts : ∀ j a, old.axle? j = some a → ∃ b, l.axle? j = some b ∧ ∀ p, b.brake p = a.brake p

/-- What the exit finds once the station is bound to no axle. -/
theorem Live.setBound_axleLeaves (l : Live) (r : Roller) : AxleLeaves r l (l.setBound r none) := by
  refine ⟨by cases r <;> exact ⟨rfl, rfl, rfl⟩, Live.setBound_seq _ _ _, Live.setBound_faults _ _ _, by rw [Live.setBound_chain],
    ⟨[], by rw [Live.setBound_chain]; exact (List.append_nil _).symm⟩, Live.bound_setBound _ _ _, fun p hp => ?_, fun j a ha => ?_⟩
  · cases r <;> cases p <;> first | rfl | exact absurd rfl hp
  · exact ⟨a, (Live.axle?_of_slots (congrArg Records.slots (Live.setBound_records l r none)) j).trans ha, fun _ => rfl⟩

/-- An unbound station has no axle to lose. -/
theorem AxleLeaves.refl (hb : l.bound (stationOf r) = none) : AxleLeaves r l l :=
  ⟨.refl l, rfl, rfl, rfl, ⟨[], (List.append_nil _).symm⟩, hb, fun _ _ => rfl, fun _ a ha => ⟨a, ha, fun _ => rfl⟩⟩

theorem Live.bound_of_tracker (h : m.tracker = l.tracker) (p : Station) : m.bound p = l.bound p := by
  cases p <;> simp only [Live.bound, h]

/-- What becomes of the axle beside its brake parts is no matter here. -/
theorem AxleLeaves.updAxle (h : AxleLeaves r l m) (n : Nat) {f : AxleRecord → AxleRecord} (hf : ∀ a, (f a).index = a.index)
    (hbrake : ∀ a p, (f a).brake p = a.brake p) : AxleLeaves r l (m.updAxle n f) := by
  have hbound := Live.bound_of_tracker (m.updAxle_tracker n f)
  refine ⟨Live.updAxle_still h.still n f, (Live.updAxle_seq n f).trans h.seq, (m.updAxle_faults n f).trans h.faults,
    by rw [Live.updAxle_chain, h.down], by rw [Live.updAxle_chain]; exact h.up, (hbound _).trans h.own,
    fun p hp => (hbound p).trans (h.others p hp), fun j a ha => ?_⟩
  obtain ⟨b, hb, hsame⟩ := h.parts j a ha
  refine ⟨if b.index = n then f b else b, (m.axle?_updAxle n j hf).trans (by rw [hb, Option.map_some]), fun p => ?_⟩
  split
  · exact (hbrake b p).trans (hsame p)
  · exact hsame p

theorem AxleLeaves.offerResult (h : AxleLeaves r l m) (i : Fin 4) (f : Frame) : AxleLeaves r l (m.offerResult i f) := by
  obtain ⟨hseq, htracker, hfaults, hdown⟩ := m.offerResult_same i f
  obtain ⟨more, hmore⟩ := h.up
  obtain ⟨more', hmore'⟩ := m.offerResult_up i f
  have hbound := Live.bound_of_tracker htracker
  refine ⟨Live.offerResult_still h.still i f, hseq.trans h.seq, hfaults.trans h.faults, hdown.trans h.down,
    ⟨more ++ more', by rw [hmore', hmore, originated_append, List.append_assoc]⟩, (hbound _).trans h.own,
    fun p hp => (hbound p).trans (h.others p hp), fun j a ha => ?_⟩
  unfold Live.axle?
  rw [Live.openRecord_offerResult]
  exact h.parts j a ha

theorem AxleLeaves.axleDone (h : AxleLeaves r l m) (n : Nat) : AxleLeaves r l (m.axleDone T n) := by
  have hdone := h.updAxle n (f := fun a => { a with state := .done, verdict := axleVerdict T.rows m.openClass a })
    (fun _ => rfl) (fun _ p => by cases p <;> rfl)
  simp only [Live.axleDone]
  split
  · exact hdone.offerResult _ _
  · exact hdone

theorem Live.trackExit_unbound (hb : l.bound (stationOf r) = none) : l.trackExit T r = (l, false) := by
  simp only [Live.trackExit, hb]

/-- The tracker as RA's axle joins the gap before RB. -/
def Live.joinGap (k : Nat) (l : Live) : Live :=
  { l with tracker := { l.tracker with boundRA := none, g2 := l.tracker.g2 ++ [k] } }

theorem Live.joinGap_axleLeaves (l : Live) (k : Nat) : AxleLeaves .ra l (l.joinGap k) := by
  refine ⟨⟨rfl, rfl, rfl⟩, rfl, rfl, rfl, ⟨[], (List.append_nil _).symm⟩, rfl, fun p hp => ?_, fun _ a ha => ⟨a, ha, fun _ => rfl⟩⟩
  cases p with
  | ra => exact absurd rfl hp
  | _ => rfl

/-- An axle that leaves RA with room in G2 waits there for RB. -/
theorem Live.trackExit_gap (hb : l.bound (stationOf .ra) = some k) (hp : T.present .rb = true) (hroom : l.tracker.g2.length < 4) :
    l.trackExit T .ra = ((l.joinGap k).updAxle k fun a => { a with state := .inGap }, false) := by
  have hroom' : (l.setBound .ra none).tracker.g2.length < Config.gapCapacity := hroom
  simp only [Live.trackExit, hb, hp, and_self, if_true, hroom']
  rfl

/-- An axle that has no place to go is DONE; it is a mistrack where RB waits for axles (R110, R111). -/
theorem Live.trackExit_done (hb : l.bound (stationOf r) = some k)
    (hlast : r = .rb ∨ T.present .rb = false ∨ 4 ≤ l.tracker.g2.length) :
    l.trackExit T r = ((l.setBound r none).axleDone T k, decide (r = .ra ∧ T.present .rb = true)) := by
  simp only [Live.trackExit, hb]
  by_cases hra : r = .ra ∧ T.present .rb = true
  · obtain ⟨rfl, hp⟩ := hra
    have hfull : ¬ l.tracker.g2.length < Config.gapCapacity := by
      rcases hlast with h | h | h
      · cases h
      · rw [hp] at h
        cases h
      · exact Nat.not_lt.2 h
    simp [hp, hfull]
  · simp [hra]

theorem Live.trackExit_leaves (l : Live) (r : Roller) : AxleLeaves r l (l.trackExit T r).1 := by
  cases hb : l.bound (stationOf r) with
  | none =>
    rw [Live.trackExit_unbound hb]
    exact .refl hb
  | some k =>
    by_cases hgap : r = .ra ∧ T.present .rb = true ∧ l.tracker.g2.length < 4
    · obtain ⟨rfl, hp, hroom⟩ := hgap
      rw [Live.trackExit_gap hb hp hroom]
      exact (l.joinGap_axleLeaves k).updAxle k (fun _ => rfl) (fun _ p => by cases p <;> rfl)
    · have hlast : r = .rb ∨ T.present .rb = false ∨ 4 ≤ l.tracker.g2.length := by
        cases r with
        | rb => exact .inl rfl
        | ra =>
          cases hp : T.present .rb with
          | false => exact .inr (.inl rfl)
          | true => exact .inr (.inr (Nat.not_lt.1 fun hroom => hgap ⟨rfl, hp, hroom⟩))
      rw [Live.trackExit_done hb hlast]
      exact (l.setBound_axleLeaves r).axleDone k

/-- No mistrack unless the gap before RB is full. -/
theorem Live.trackExit_tracks (h : l.bound (stationOf r) = none ∨ r = .rb ∨ T.present .rb = false ∨ l.tracker.g2.length < 4) :
    (l.trackExit T r).2 = false := by
  cases hb : l.bound (stationOf r) with
  | none => rw [Live.trackExit_unbound hb]
  | some k =>
    rcases h with h | rfl | h | h
    · rw [hb] at h
      cases h
    · rw [Live.trackExit_done hb (.inl rfl)]
      rfl
    · rw [Live.trackExit_done hb (.inr (.inl h))]
      simp [h]
    · cases r with
      | rb =>
        rw [Live.trackExit_done hb (.inl rfl)]
        rfl
      | ra =>
        cases hp : T.present .rb with
        | true => rw [Live.trackExit_gap hb hp h]
        | false =>
          rw [Live.trackExit_done hb (.inr (.inl hp))]
          simp [hp]

theorem Live.seqExit_of_not_waiting (h : l.seq.state ≠ .waiting) (st : Station) : l.seqExit T st = l := by
  unfold Live.seqExit
  split
  · exact absurd ‹_› h
  · rfl

/-- The exit is reported to the tracker; a sequencer that waits on nothing does not see it. -/
theorem Live.reportExit_of_free (hfree : l.seqFree) :
    l.reportExit T r = (l.setRoller r { l.roller r with seated := false }).trackExit T r := by
  have hleaves := (l.setRoller r { l.roller r with seated := false }).trackExit_leaves (T := T) r
  unfold Live.reportExit
  dsimp only
  rw [Live.seqExit_of_not_waiting (by rw [hleaves.seq, Live.setRoller_seq]; exact hfree.1)]

end
end Sys2Proof.Machine
end

section
/-! ## A station settles, and its load is judged (R55 to R59, R107 to R111; O52) -/

namespace Sys2Proof.Machine
section
variable {T : Tables} {l m : Live} {s : State} {r : Roller} {z : RollerStation} {v : VehicleRecord} {k : Nat}

/-! ### The settle timer (R58, R59, R107, R108) -/

theorem exec_settleExpiry (hawake : s.awake) :
    exec (.settleExpiry r) s = .next (s.withLive (if s.live.settleDue s.tables r then s.live.settle s.tables r else s.live)) :=
  congrArg Host.Outcome.next (State.onLive_awake _ hawake)

theorem Live.settleDue_iff : l.settleDue T r = true ↔
    (l.roller r).state = .settling ∧ ∃ n, (l.roller r).settleTimer = some n ∧ T.settings.settle ≤ n := by
  simp only [Live.settleDue, Bool.and_eq_true, beq_iff_eq]
  cases (l.roller r).settleTimer <;> simp [reached]

/-- The record of a station at the end of its settling, the axle on it. -/
def RollerStation.sat (x : RollerStation) : RollerStation := { x.stilled .seated with seated := true }

theorem Live.settle_of_seated (hfree : l.seqFree) (hs : (l.roller r).seated = true) :
    l.settle T r = l.setRoller r (l.roller r).sat := by
  have hsat : (l.roller r).stilled .seated = (l.roller r).sat := by
    simp only [RollerStation.sat, ← hs]
    rfl
  unfold Live.settle
  dsimp only
  rw [if_pos (show (l.roller r).stopTimers.seated = true from hs), Live.setRoller_enter_of_free hfree, ← hsat]
  rfl

theorem Live.seatRA_seq : (l.seatRA T).1.seq = l.seq := by
  unfold Live.seatRA
  split
  · rfl
  · split
    · exact Live.updAxle_seq _ _
    · split
      · exact (Live.setBound_seq _ _ _).trans (Live.updOpen_seq _)
      · rfl

theorem Live.seatRB_seq : l.seatRB.1.seq = l.seq := by
  unfold Live.seatRB
  split
  · rfl
  · split
    · exact Live.updAxle_seq _ _
    · rfl

theorem Live.trackSeating_seq : (l.trackSeating T r).1.seq = l.seq := by
  cases r
  · exact Live.seatRA_seq
  · exact Live.seatRB_seq

/-- A seating is reported to the tracker, which may find that it has no axle for it. -/
theorem Live.settle_of_unseated (hfree : l.seqFree) (hs : (l.roller r).seated = false) :
    l.settle T r = Live.raiseMistrack T (stationOf r) ((l.setRoller r (l.roller r).sat).trackSeating T r) := by
  have hput : (l.setRoller r { (l.roller r).stopTimers with seated := true }).putState (stationOf r) .seated =
      l.setRoller r (l.roller r).sat := by
    cases r <;> rfl
  have hfree' : ((l.setRoller r (l.roller r).sat).trackSeating T r).1.seqFree :=
    hfree.of_seq (Live.trackSeating_seq.trans (Live.setRoller_seq _ _ _))
  have hunseated : ¬ (l.roller r).stopTimers.seated = true := Bool.eq_false_iff.1 hs
  unfold Live.settle
  dsimp only
  rw [if_neg hunseated, hput, Live.seqSees_of_free hfree']

theorem Live.trackSeating_closed (h : l.openRecord = none) : l.trackSeating T r = (l, false) := by
  cases r
  · simp only [Live.trackSeating, Live.seatRA, h]
  · simp only [Live.trackSeating, Live.seatRB, h]

/-- The axles that wait for a roller station (R107). -/
def Tracker.waiting (t : Tracker) : Roller → List Nat
  | .ra => t.g1
  | .rb => t.g2

/-- The tracker as a roller station takes the first axle that waits for it. -/
def Tracker.seats (t : Tracker) (k : Nat) (rest : List Nat) : Roller → Tracker
  | .ra => { t with g1 := rest, boundRA := some k }
  | .rb => { t with g2 := rest, boundRB := some k }

/-- A roller station takes the first axle that waits for it. -/
def Live.takeWaiting (r : Roller) (k : Nat) (rest : List Nat) (l : Live) : Live := { l with tracker := l.tracker.seats k rest r }

theorem Live.trackSeating_waiting {rest : List Nat} (hopen : l.openRecord = some v) (h : l.tracker.waiting r = k :: rest) :
    l.trackSeating T r = ((l.takeWaiting r k rest).updAxle k fun a => { a with state := .onStation }, false) := by
  cases r with
  | ra =>
    simp only [Live.trackSeating, Live.seatRA, hopen, show l.tracker.g1 = k :: rest from h]
    rfl
  | rb =>
    simp only [Live.trackSeating, Live.seatRB, hopen, show l.tracker.g2 = k :: rest from h]
    rfl

/-- A new axle joins the OPEN record on RA without having crossed the plate (R107). -/
def VehicleRecord.joinRoller (v : VehicleRecord) : VehicleRecord :=
  { v with
    axles := v.axles ++ [AxleRecord.fresh (v.axles.length + 1) (v.kindOf (v.axles.length + 1)) .onStation], rollerOnly := true }

theorem Live.trackSeating_joins (hopen : l.openRecord = some v) (hnone : l.tracker.waiting .ra = [])
    (hallowed : rollerOnlyAllowed T v = true ∧ v.axles.length < v.expected) :
    ∃ f : VehicleRecord → VehicleRecord, f v = v.joinRoller ∧
      l.trackSeating T .ra = ((l.updOpen f).setBound .ra (some (v.axles.length + 1)), false) := by
  refine ⟨fun x => { x with
    axles := x.axles ++ [AxleRecord.fresh (v.axles.length + 1) (v.kindOf (v.axles.length + 1)) .onStation], rollerOnly := true },
    rfl, ?_⟩
  simp only [Live.trackSeating, Live.seatRA, hopen, show l.tracker.g1 = [] from hnone, hallowed.1, hallowed.2, decide_true,
    Bool.and_self, if_true]

theorem Live.trackSeating_fails (hopen : l.openRecord = some v) (hnone : l.tracker.waiting r = [])
    (hno : ¬ (r = .ra ∧ rollerOnlyAllowed T v = true ∧ v.axles.length < v.expected)) : l.trackSeating T r = (l, true) := by
  cases r with
  | ra =>
    have hno' : ¬ (rollerOnlyAllowed T v && decide (v.axles.length < v.expected)) = true := fun h => by
      simp only [Bool.and_eq_true, decide_eq_true_eq] at h
      exact hno ⟨rfl, h⟩
    simp only [Live.trackSeating, Live.seatRA, hopen, show l.tracker.g1 = [] from hnone, if_neg hno']
  | rb => simp only [Live.trackSeating, Live.seatRB, hopen, show l.tracker.g2 = [] from hnone]

/-! ### Load samples (R57 to R59, R110) -/

/-- A load sample joins the history of its side. -/
def RollerStation.joinLoad (x : RollerStation) (d : Side) (v : Int) : RollerStation :=
  match d with
  | .left => { x with histL := joinHistory x.histL v }
  | .right => { x with histR := joinHistory x.histR v }

theorem Live.takeLoad_eq (d : Side) (v : Int) : l.takeLoad T r d v = (l.setRoller r ((l.roller r).joinLoad d v)).judgeLoad T r := by
  cases d <;> rfl

theorem Live.loadSum_setRoller (l : Live) (q : Roller) (z : RollerStation) : (l.setRoller q z).loadSum T r = l.loadSum T r := by
  cases q <;> rfl

/-- A load sample of a station that is not being tared. -/
theorem Live.deliver_load {e : ChannelEntry} {i : Nat} {cal v : Int} {d : Side} (hst : e.station = some (stationOf r))
    (hrole : e.role = (match d with | .left => .loadL | .right => .loadR)) (ht : (l.roller r).state ≠ .taring) :
    l.deliver T i e cal v = (l.setRoller r ((l.roller r).joinLoad d v)).judgeLoad T r := by
  have htare : l.tareTake T (stationOf r) i cal = l := Live.tareTake_of_not_taring (by rw [← Live.roller_state]; exact ht) i cal
  rw [← Live.takeLoad_eq]
  cases r <;> cases d <;> simp only [stationOf] at hst htare hrole <;>
    simp only [Live.deliver, Live.deliverRoller, hst, hrole, stationOf, htare]

theorem Live.judgeLoad_settles (hx : (l.roller r).state = .idle) (hhigh : T.settings.seat ≤ l.loadSum T r) :
    l.judgeLoad T r = l.enterSettling T r := by
  simp only [Live.judgeLoad, hx, decide_eq_true (show l.loadSum T r ≥ _ from hhigh), if_true]

theorem Live.judgeLoad_rests (hx : (l.roller r).state ∈ [StationState.settling, .seated]) (hlow : l.loadSum T r < T.settings.empty) :
    l.judgeLoad T r = (l.enterStill T r .idle).exitIfSeated T r := by
  simp only [List.mem_cons, List.not_mem_nil, or_false] at hx
  rcases hx with hx | hx <;> simp only [Live.judgeLoad, hx, decide_eq_true hlow, if_true]

theorem Live.judgeLoad_exits (hx : (l.roller r).state ∈ [StationState.releasing, .faulted])
    (hlow : l.loadSum T r < T.settings.empty) : l.judgeLoad T r = l.exitIfSeated T r := by
  simp only [List.mem_cons, List.not_mem_nil, or_false] at hx
  rcases hx with hx | hx <;> simp only [Live.judgeLoad, hx, decide_eq_true hlow, if_true]

theorem Live.judgeLoad_loses (hx : (l.roller r).state ∈ [StationState.spinning, .ready, .measuring])
    (hlow : l.loadSum T r < T.settings.empty) : l.judgeLoad T r = l.axleLost T r := by
  simp only [List.mem_cons, List.not_mem_nil, or_false] at hx
  rcases hx with hx | hx | hx <;> simp only [Live.judgeLoad, hx, decide_eq_true hlow, if_true]

/-- No more than the sample's place in the history. -/
theorem Live.judgeLoad_still (h : (l.roller r).state = .offline ∨ ((l.roller r).state = .idle ∧ ¬ T.settings.seat ≤ l.loadSum T r)
    ∨ ((l.roller r).state ∈ [StationState.settling, .seated, .spinning, .ready, .measuring, .releasing, .faulted]
      ∧ ¬ l.loadSum T r < T.settings.empty)) : l.judgeLoad T r = l := by
  rcases h with hx | ⟨hx, hhigh⟩ | ⟨hx, hlow⟩
  · simp only [Live.judgeLoad, hx]
  · simp only [Live.judgeLoad, hx, decide_eq_false (show ¬ l.loadSum T r ≥ _ from hhigh), Bool.false_eq_true, if_false]
  · simp only [List.mem_cons, List.not_mem_nil, or_false] at hx
    rcases hx with hx | hx | hx | hx | hx | hx | hx <;>
      simp only [Live.judgeLoad, hx, decide_eq_false hlow, Bool.false_eq_true, if_false]

/-- A station that is not seated has nothing to report. -/
theorem Live.exitIfSeated_of_unseated (h : (l.roller r).seated = false) : l.exitIfSeated T r = l :=
  if_neg (Bool.eq_false_iff.1 h)

theorem Live.exitIfSeated_of_seated (hfree : l.seqFree) (h : (l.roller r).seated = true) : l.exitIfSeated T r =
    Live.raiseExitMistrack T r (l.boundOrZero (stationOf r))
      ((l.setRoller r { l.roller r with seated := false }).trackExit T r) := by
  rw [Live.exitIfSeated, if_pos h, Live.reportExit_of_free hfree]

/-- A load below the empty limit empties a station that is SETTLING or SEATED, and an axle on the station leaves it. -/
theorem Live.judgeLoad_empties (hfree : l.seqFree) (hx : z.state ∈ [StationState.settling, .seated, .releasing, .faulted])
    (hlow : l.loadSum T r < T.settings.empty) : (l.setRoller r z).judgeLoad T r =
      (l.setRoller r (if z.state ∈ [StationState.settling, .seated] then z.stilled .idle else z)).exitIfSeated T r := by
  have hlow' : (l.setRoller r z).loadSum T r < T.settings.empty := by rwa [Live.loadSum_setRoller]
  by_cases hrest : z.state ∈ [StationState.settling, .seated]
  · rw [if_pos hrest, Live.judgeLoad_rests (by rwa [Live.roller_setRoller]) hlow', Live.enterStill_of_free (hfree.setRoller r z),
      Live.roller_setRoller, Live.setRoller_setRoller]
  · have hother : z.state ∈ [StationState.releasing, .faulted] := by
      simp only [List.mem_cons, List.not_mem_nil, or_false, not_or] at hx hrest ⊢
      exact (hx.resolve_left hrest.1).resolve_left hrest.2
    rw [if_neg hrest, Live.judgeLoad_exits (by rwa [Live.roller_setRoller]) hlow']

theorem Live.bound_setRoller (l : Live) (q : Roller) (z : RollerStation) (p : Station) :
    (l.setRoller q z).bound p = l.bound p := Live.bound_of_tracker (Live.setRoller_tracker l q z) p

/-- The axle on a station leaves it: its going is tracked, and a mistrack is raised where it has no place to go. -/
theorem Live.exitIfSeated_setRoller (hfree : l.seqFree) (h : z.seated = true) : (l.setRoller r z).exitIfSeated T r =
    Live.raiseExitMistrack T r (l.boundOrZero (stationOf r)) ((l.setRoller r { z with seated := false }).trackExit T r) := by
  rw [Live.exitIfSeated_of_seated (hfree.setRoller r z) (by rwa [Live.roller_setRoller]), Live.roller_setRoller,
    Live.setRoller_setRoller, Live.boundOrZero, Live.bound_setRoller]
  rfl

/-! ### What an exit leaves (R110, R111) -/

/-- The stations and the records after an exit: the station's record is `z`, its axle is as `f` gives it. -/
structure Exited (r : Roller) (z : RollerStation) (t : Tracker) (v : VehicleRecord) (old l : Live) : Prop where
  roller : l.roller r = z
  only : OnlyRoller r old l
  tracker : l.tracker = t
  record : l.openRecord = some v

/-- The tracker without the axle that a roller station was bound to. -/
def Tracker.unbind (t : Tracker) : Roller → Tracker
  | .ra => { t with boundRA := none }
  | .rb => { t with boundRB := none }

theorem Live.trackExit_roller (l : Live) (z : RollerStation) : ((l.setRoller r z).trackExit T r).1.roller r = z
    ∧ OnlyRoller r l ((l.setRoller r z).trackExit T r).1 := by
  have hleaves := (l.setRoller r z).trackExit_leaves (T := T) r
  exact ⟨(hleaves.still.roller r).trans (l.roller_setRoller r z), (l.setRoller_onlyRoller r z).trans (hleaves.still.onlyRoller r)⟩

theorem Live.trackExit_exited_gap (hopen : l.openRecord = some v) (hb : l.bound (stationOf .ra) = some k)
    (hp : T.present .rb = true) (hroom : l.tracker.g2.length < 4) : ((l.setRoller .ra z).trackExit T .ra).2 = false ∧
      Exited .ra z { l.tracker.unbind .ra with g2 := l.tracker.g2 ++ [k] } (v.updAxle k fun b => { b with state := .inGap }) l
        ((l.setRoller .ra z).trackExit T .ra).1 := by
  obtain ⟨hroller, honly⟩ := l.trackExit_roller (T := T) (r := .ra) z
  have hgap := Live.trackExit_gap (T := T) (l := l.setRoller .ra z) hb hp hroom
  refine ⟨congrArg Prod.snd hgap, hroller, honly, ?_, ?_⟩
  · rw [hgap]
    exact Live.updAxle_tracker _ _
  · rw [hgap]
    exact (Live.openRecord_updAxle _ _ _).trans (congrArg (Option.map _) hopen)

theorem Live.trackExit_exited_done (hopen : l.openRecord = some v) (hb : l.bound (stationOf r) = some k)
    (hlast : r = .rb ∨ T.present .rb = false ∨ 4 ≤ l.tracker.g2.length) :
    ((l.setRoller r z).trackExit T r).2 = decide (r = .ra ∧ T.present .rb = true) ∧
      Exited r z (l.tracker.unbind r) (v.updAxle k fun b => { b with state := .done, verdict := axleVerdict T.rows v.cls b }) l
        ((l.setRoller r z).trackExit T r).1 := by
  obtain ⟨hroller, honly⟩ := l.trackExit_roller (T := T) (r := r) z
  have hdone := Live.trackExit_done (T := T) (l := l.setRoller r z) (r := r) (by rwa [Live.bound_setRoller])
    (by rwa [Live.setRoller_tracker])
  have hopen' : ((l.setRoller r z).setBound r none).openRecord = some v := by
    rw [Live.openRecord_setBound, Live.openRecord_setRoller, hopen]
  refine ⟨congrArg Prod.snd hdone, hroller, honly, ?_, ?_⟩
  · rw [hdone]
    refine (Live.axleDone_tracker _).trans ?_
    cases r <;> rfl
  · rw [hdone]
    dsimp only
    rw [Live.openRecord_axleDone, hopen', Live.openClass_of_openRecord hopen']
    rfl

end
end Sys2Proof.Machine
end

section
/-! ## The obligation on settling and on load samples (R55 to R59, R107 to R111; O52) -/

namespace Sys2Proof.Machine
section
variable {T : Tables} {l m : Live} {s : State} {r : Roller} {z : RollerStation} {v : VehicleRecord} {k : Nat}

/-- The first axle that waits for a station is bound to it (R107, R108). -/
theorem Live.settle_seats {rest : List Nat} (hfree : l.seqFree) (hs : (l.roller r).seated = false) (hopen : l.openRecord = some v)
    (hwait : l.tracker.waiting r = k :: rest) : Exited r (l.roller r).sat (l.tracker.seats k rest r)
      (v.updAxle k fun a => { a with state := .onStation }) l (l.settle T r) := by
  have hsettle : l.settle T r =
      ((l.setRoller r (l.roller r).sat).takeWaiting r k rest).updAxle k fun a => { a with state := .onStation } := by
    rw [Live.settle_of_unseated hfree hs, Live.trackSeating_waiting (v := v) (k := k) (rest := rest)
      (by rwa [Live.openRecord_setRoller]) (by rwa [Live.setRoller_tracker])]
    rfl
  have htaken : Still (l.setRoller r (l.roller r).sat) ((l.setRoller r (l.roller r).sat).takeWaiting r k rest) := ⟨rfl, rfl, rfl⟩
  have hstill : Still (l.setRoller r (l.roller r).sat) (l.settle T r) := by
    rw [hsettle]
    exact Live.updAxle_still htaken _ _
  have hopen' : ((l.setRoller r (l.roller r).sat).takeWaiting r k rest).openRecord = some v :=
    (l.openRecord_setRoller r _).trans hopen
  refine ⟨(hstill.roller r).trans (l.roller_setRoller r _), (l.setRoller_onlyRoller r _).trans (hstill.onlyRoller r), ?_, ?_⟩
  · rw [hsettle, Live.updAxle_tracker, Live.takeWaiting, Live.setRoller_tracker]
  · rw [hsettle, Live.openRecord_updAxle, hopen', Option.map_some]

/-- Where none waits, RA may make an axle of a record that admits it (R107). -/
theorem Live.settle_joins (hfree : l.seqFree) (hs : (l.roller .ra).seated = false) (hopen : l.openRecord = some v)
    (hnone : l.tracker.waiting .ra = []) (hallowed : rollerOnlyAllowed T v = true ∧ v.axles.length < v.expected) :
    Exited .ra (l.roller .ra).sat { l.tracker with boundRA := some (v.axles.length + 1) } v.joinRoller l (l.settle T .ra) := by
  obtain ⟨f, hf, htrack⟩ := Live.trackSeating_joins (T := T) (l := l.setRoller .ra (l.roller .ra).sat) hopen hnone hallowed
  have hsettle : l.settle T .ra =
      ((l.setRoller .ra (l.roller .ra).sat).updOpen f).setBound .ra (some (v.axles.length + 1)) := by
    rw [Live.settle_of_unseated hfree hs, htrack]
    rfl
  have hstill : Still (l.setRoller .ra (l.roller .ra).sat) (l.settle T .ra) := by
    obtain ⟨hps, hra, hrb⟩ := Live.updOpen_still (.refl (l.setRoller .ra (l.roller .ra).sat)) f
    rw [hsettle]
    exact ⟨hps, hra, hrb⟩
  refine ⟨hstill.roller .ra, (l.setRoller_onlyRoller .ra _).trans (hstill.onlyRoller .ra), ?_, ?_⟩
  · rw [hsettle, Live.setBound_tracker, Live.updOpen_tracker]
    rfl
  · rw [hsettle, Live.openRecord_setBound, Live.openRecord_updOpen, Live.openRecord_setRoller, hopen, Option.map_some, hf]

/-- Where neither is so, the seating is a mistrack (R107, R108). -/
theorem Live.settle_mistracks (hfree : l.seqFree) (hs : (l.roller r).seated = false) (hopen : l.openRecord = some v)
    (hnone : l.tracker.waiting r = []) (hno : ¬ (r = .ra ∧ rollerOnlyAllowed T v = true ∧ v.axles.length < v.expected)) :
    Raised T .mistrack (.station (stationOf r)) (l.boundOrZero (stationOf r)) 0 (l.setRoller r (l.roller r).sat)
      (l.settle T r) := by
  have hsettle : l.settle T r = (l.setRoller r (l.roller r).sat).raise T .mistrack (.station (stationOf r)) 0 := by
    rw [Live.settle_of_unseated hfree hs, Live.trackSeating_fails (v := v) (by rwa [Live.openRecord_setRoller])
      (by rwa [Live.setRoller_tracker]) hno]
    rfl
  rw [hsettle]
  refine Live.raise_raised_of_axle ?_
  cases r <;> rfl

/-- Settles O52: the settle timer by the state, the seating and the waiting axles; a load sample by the station's state, the sum of
its loads and what the exit finds. -/
theorem settleSeatsAndBinds : Obligations.SettleSeatsAndBinds := by
  refine ⟨fun s r hawake => ?_, fun s src ch x i e c r d hsampled hst hrole => ?_⟩
  · intro x t waiting seated goes
    have hexec : ∀ {l}, s.live.settle s.tables r = l → s.live.settleDue s.tables r = true → goes l := fun h hdue => by
      change exec (.settleExpiry r) s = _
      rw [exec_settleExpiry hawake, if_pos hdue, h]
    refine ⟨fun hearly => ?_, fun n hx htimer hdue hfree => ?_⟩
    · have hnot : ¬ s.live.settleDue s.tables r = true := fun hdue => by
        obtain ⟨hx, n, htimer, hn⟩ := Live.settleDue_iff.1 hdue
        rcases hearly with h | h
        · exact h hx
        · exact Nat.not_lt.2 hn (h n htimer)
      change exec (.settleExpiry r) s = _
      rw [exec_settleExpiry hawake, if_neg hnot]
    have hdue := Live.settleDue_iff.2 ⟨hx, n, htimer, hdue⟩
    refine ⟨fun hquiet => ?_, fun v hs hopen => ?_⟩
    · cases hs : (s.live.roller r).seated with
      | true => exact hexec (Live.settle_of_seated hfree hs) hdue
      | false =>
        have hclosed := hquiet.resolve_left (by rw [show x.seated = false from hs]; decide)
        refine hexec ?_ hdue
        rw [Live.settle_of_unseated hfree hs, Live.trackSeating_closed (by rwa [Live.openRecord_setRoller])]
        rfl
    intro allowed index joined
    refine ⟨fun k rest hwait => ?_, fun hnone hallowed => ?_, fun hnone hno =>
      ⟨_, hexec rfl hdue, Live.settle_mistracks hfree hs hopen (by cases r <;> exact hnone) hno⟩⟩
    · obtain ⟨hroller, honly, htracker, hrecord⟩ := Live.settle_seats (T := s.tables) (k := k) (rest := rest) hfree hs hopen
        (by cases r <;> exact hwait)
      exact ⟨_, hexec rfl hdue, hroller.trans (s.live.roller_setRoller r _).symm, honly,
        htracker.trans (by cases r <;> rfl), hrecord⟩
    · obtain ⟨rfl, hallowed⟩ := hallowed
      obtain ⟨hroller, honly, htracker, hrecord⟩ := Live.settle_joins (T := s.tables) hfree hs hopen hnone hallowed
      exact ⟨_, hexec rfl hdue, hroller.trans (s.live.roller_setRoller .ra _).symm, honly, htracker, hrecord⟩
  · intro v l y joined y' low high t goes stilled
    have hroller : l.roller r = y := by cases r <;> rfl
    have hy' : y.joinLoad d v = y' := by cases d <;> rfl
    have hstate : y'.state = y.state := by rw [← hy']; cases d <;> rfl
    have hseated : y'.seated = y.seated := by rw [← hy']; cases d <;> rfl
    have hexec : ∀ {m}, y.state ≠ .taring → (l.setRoller r y').judgeLoad s.tables r = m → goes m := fun hx h => by
      change exec (.sampleFrame src ch [x]) s = _
      rw [hsampled.exec_eq, Live.deliver_load hst hrole (by rwa [hroller]), hroller, hy', h]
    have hsum : (l.setRoller r y').loadSum s.tables r = l.loadSum s.tables r := l.loadSum_setRoller r y'
    have hunder : ((l.setRoller r y').roller r).state = y.state := by rw [Live.roller_setRoller, hstate]
    refine ⟨fun h => ?_, fun hx hhigh hfree => ?_, fun hx hlow hs hfree => ?_, fun hx hlow hs hfree => ?_⟩
    · have hother : y.state ≠ .taring := fun htaring => by simp [htaring] at h
      refine hexec hother ?_
      by_cases hleft : y.state ∈ [.releasing, .faulted] ∧ low
      · obtain ⟨hx, hlow⟩ := hleft
        have hs : y.seated = false := by
          simp only [List.mem_cons, List.not_mem_nil, or_false] at hx
          rcases hx with hx | hx <;> simpa [hx, hlow] using h
        rw [Live.judgeLoad_exits (by rwa [hunder]) (by rwa [hsum]),
          Live.exitIfSeated_of_unseated (by rw [Live.roller_setRoller, hseated, hs])]
      · refine Live.judgeLoad_still ?_
        rw [hunder, hsum]
        rcases h with h | h | ⟨hx, hlow⟩ | ⟨hx, -⟩
        · exact .inl h
        · exact .inr (.inl h)
        · exact .inr (.inr ⟨List.mem_append_left [StationState.releasing, .faulted] hx, hlow⟩)
        · exact .inr (.inr ⟨List.mem_append_right [StationState.settling, .seated, .spinning, .ready, .measuring] hx,
            fun hlow => hleft ⟨hx, hlow⟩⟩)
    · refine hexec (fun htaring => by rw [hx] at htaring; cases htaring) ?_
      rw [Live.judgeLoad_settles (by rw [hunder, hx]) (by rw [hsum]; exact hhigh),
        Live.enterSettling_of_free (Live.seqFree.setRoller (l := l) hfree r y'), Live.roller_setRoller, Live.setRoller_setRoller,
        hseated]
      rfl
    · have hother : y.state ≠ .taring := fun htaring => by simp [htaring] at hx
      have hempties := Live.judgeLoad_empties (T := s.tables) (l := l) (r := r) (z := y') hfree
        (by rw [hstate]; exact List.mem_append_left [.releasing, .faulted] hx) hlow
      rw [hstate, if_pos hx] at hempties
      refine hexec hother (hempties.trans (Live.exitIfSeated_of_unseated ?_))
      rw [Live.roller_setRoller]
      exact hseated.trans hs
    · intro gone unbound
      have hother : y.state ≠ .taring := fun htaring => by simp [htaring] at hx
      have hempties := Live.judgeLoad_empties (T := s.tables) (l := l) (r := r) (z := y') hfree (by rwa [hstate]) hlow
      rw [hstate, Live.exitIfSeated_setRoller (l := l) hfree (by split <;> exact hseated.trans hs)] at hempties
      have hgone : goes (Live.raiseExitMistrack s.tables r (l.boundOrZero (stationOf r))
          ((l.setRoller r gone).trackExit s.tables r)) := hexec hother hempties
      have hunbind : l.tracker.unbind r = unbound := by cases r <;> rfl
      refine ⟨fun hb => ?_, fun k v a hb hopen ha => ⟨fun hra hp hroom => ?_, fun hlast => ?_, fun hra hp hfull => ?_⟩⟩
      · rw [Live.trackExit_unbound (by rw [Live.bound_setRoller]; exact hb)] at hgone
        exact hgone
      · subst hra
        obtain ⟨htracked, hroller, honly, htracker, hrecord⟩ :=
          Live.trackExit_exited_gap (T := s.tables) (l := l) (z := gone) hopen hb hp hroom
        rw [Live.raiseExitMistrack, if_neg (by rw [htracked]; decide)] at hgone
        exact ⟨_, hgone, hroller, honly, htracker, hrecord⟩
      · obtain ⟨htracked, hroller, honly, htracker, hrecord⟩ :=
          Live.trackExit_exited_done (T := s.tables) (l := l) (r := r) (z := gone) hopen hb (hlast.imp_right .inl)
        have hfine : ¬ decide (r = .ra ∧ s.tables.present .rb = true) = true := by
          rcases hlast with h | h <;> simp [h]
        rw [Live.raiseExitMistrack, if_neg (by rw [htracked]; exact hfine)] at hgone
        exact ⟨_, hgone, hroller, honly, htracker.trans hunbind, hrecord⟩
      · obtain ⟨htracked, hroller, honly, htracker, hrecord⟩ :=
          Live.trackExit_exited_done (T := s.tables) (l := l) (r := r) (z := gone) hopen hb (.inr (.inr hfull))
        rw [Live.raiseExitMistrack, if_pos (by rw [htracked, hra, hp]; decide)] at hgone
        have haxle : l.boundOrZero (stationOf r) = k := by rw [Live.boundOrZero, show l.bound _ = _ from hb]; rfl
        rw [haxle] at hgone
        exact ⟨_, _, hgone, Live.raiseWith_raised _ _ _ _ _ _, hroller, honly, htracker.trans hunbind,
          (Live.trackExit_leaves _ r).faults.trans (Live.setRoller_faults _ _ _), hrecord⟩

end
end Sys2Proof.Machine
end

section
/-! ## The drum timers, drum samples and a lost axle (R63 to R67, R110, R143; O53) -/

namespace Sys2Proof.Machine
section
variable {T : Tables} {old l m : Live} {s : State} {r h : Roller} {c : Capture} {reason : EndReason}

/-! ### The timers of the drums (R63, R65, R67) -/

theorem reached_iff {timer : Option Nat} {limit : Nat} : reached timer limit = true ↔ ∃ n, timer = some n ∧ limit ≤ n := by
  cases timer <;> simp [reached]

/-- A timer of a state runs out in that state, at its limit. -/
theorem due_iff {x y : StationState} {timer : Option Nat} {limit : Nat} :
    (x == y && reached timer limit) = true ↔ x = y ∧ ∃ n, timer = some n ∧ limit ≤ n := by
  rw [Bool.and_eq_true, beq_iff_eq, reached_iff]

theorem not_due {x y : StationState} {timer : Option Nat} {limit : Nat} (h : x ≠ y ∨ ∀ n, timer = some n → n < limit) :
    ¬ (x == y && reached timer limit) = true := by
  rw [due_iff]
  rintro ⟨hx, n, hn, hle⟩
  rcases h with h | h
  · exact h hx
  · exact Nat.not_lt.2 hle (h n hn)

theorem exec_spinTimeout (hawake : s.awake) : exec (.spinTimeout r) s = .next (s.withLive (if s.live.spinDue r then
    (s.live.enterReleasing s.tables r).raise s.tables .driveTimeout (.station (stationOf r)) 0 else s.live)) :=
  congrArg Host.Outcome.next (State.onLive_awake _ hawake)

theorem exec_readyLapsed (hawake : s.awake) : exec (.readyLapsed r) s = .next (s.withLive (if s.live.readyDue r then
    (s.live.enterReleasing s.tables r).event .readyLapsed (some (stationOf r)) (s.live.boundOrZero (stationOf r)) 0
    else s.live)) :=
  congrArg Host.Outcome.next (State.onLive_awake _ hawake)

theorem exec_releaseTimeout (hawake : s.awake) : exec (.releaseTimeout r) s = .next (s.withLive (if s.live.releaseDue r then
    s.live.releaseExpires s.tables r else s.live)) :=
  congrArg Host.Outcome.next (State.onLive_awake _ hawake)

/-- A station whose drums would not stop is told so once more (R67). -/
def Live.restop (T : Tables) (r : Roller) (l : Live) : Live :=
  let s1 := l.offerDrive T r false
  s1.setRoller r { s1.roller r with releaseTimer := some 0 }

theorem Live.releaseExpires_eq (l : Live) (r : Roller) :
    l.releaseExpires T r = (l.restop T r).raise T .driveTimeout (.station (stationOf r)) 0 := rfl

theorem Live.restop_quiet (l : Live) (r : Roller) : Quiet l (l.restop T r) :=
  Live.setRoller_quiet (Live.offerDrive_quiet (.refl l) r false) r _

theorem Live.restop_made (l : Live) (r : Roller) : DriveMade T r false l (l.restop T r) :=
  (l.offerDrive_made r false).congr rfl rfl (by rw [Live.restop, Live.roller_setRoller]) (by rw [Live.restop, Live.setRoller_chain])

theorem Live.restop_roller (l : Live) (r : Roller) : (l.restop T r).roller r =
    { l.roller r with releaseTimer := some 0, heldDrive := ((l.restop T r).roller r).heldDrive } := by
  rw [Live.restop, Live.roller_setRoller, Live.offerDrive_roller]

theorem Quiet.boundOrZero (hq : Quiet old l) (st : Station) : l.boundOrZero st = old.boundOrZero st :=
  congrArg (·.getD 0) (Live.bound_of_tracker hq.tracker st)

/-- DRIVE_TIMEOUT of a station carries the axle that it is bound to. -/
theorem Quiet.raise_station (hq : Quiet old l) (src : Source) (st : Station) (detail : Nat) :
    Raised T src (.station st) (old.boundOrZero st) detail l (l.raise T src (.station st) detail) :=
  Live.raise_raised_of_axle (hq.boundOrZero st)

/-! ### Drum samples (R63, R65, R67) -/

/-- A drum sample counts the values at the ready speed in a row. -/
def RollerStation.countReady (T : Tables) (x : RollerStation) (d : Side) (v : Int) : RollerStation :=
  match d with
  | .left => { x with readyL := readyCount T x.readyL v }
  | .right => { x with readyR := readyCount T x.readyR v }

theorem Live.takeDrum_of_resting (hx : (l.roller r).state ∉ [StationState.spinning, .releasing]) (d : Side) (v : Int) :
    l.takeDrum T r d v = l := by
  simp only [List.mem_cons, List.not_mem_nil, or_false, not_or] at hx
  obtain ⟨hspinning, hreleasing⟩ := hx
  unfold Live.takeDrum
  dsimp only
  split
  · exact absurd ‹_› hspinning
  · exact absurd ‹_› hreleasing
  · rfl

theorem Live.takeDrum_of_spinning (hx : (l.roller r).state = .spinning) (d : Side) (v : Int) : l.takeDrum T r d v =
    let y := (l.roller r).countReady T d v
    if 5 ≤ y.readyL ∧ 5 ≤ y.readyR then ((l.setRoller r y).enterReady T r).judgeSilence T (stationOf r)
    else l.setRoller r y := by
  cases d <;> simp only [Live.takeDrum, hx, RollerStation.countReady]

theorem Live.takeDrum_of_releasing (hx : (l.roller r).state = .releasing) (d : Side) (v : Int) :
    l.takeDrum T r d v = if l.drumsStopped T r then l.releaseComplete T r else l := by
  simp only [Live.takeDrum, hx]

theorem Live.drumsStopped_iff : l.drumsStopped T r = true ↔
    ∀ z ∈ [Role.drumL, .drumR], (l.latest T (stationOf r) z).getD 0 < T.settings.stopped := by
  simp [Live.drumsStopped]

/-- Only a value of a channel that the tare takes from moves the tare (R95). -/
theorem Live.tareTake_of_other {st : Station} {i : Nat} (h : l.stationState st = .taring → ∀ k, (l.tare st).context = some k →
    ∀ z ∈ k.channels, z.entry ≠ i) (cal : Int) : l.tareTake T st i cal = l := by
  unfold Live.tareTake
  split
  · rename_i k hst hk
    have hnone : ¬ (k.channels.any fun x => x.entry == i && decide (x.count < Config.tareCount)) = true := by
      rw [List.any_eq_true]
      rintro ⟨z, hz, hentry⟩
      simp only [Bool.and_eq_true, beq_iff_eq] at hentry
      exact h hst k hk z hz hentry.1
    rw [if_neg hnone]
  · rfl

theorem Live.deliver_drum {e : ChannelEntry} {i : Nat} {cal v : Int} {d : Side} (hst : e.station = some (stationOf r))
    (hrole : e.role = (match d with | .left => .drumL | .right => .drumR)) (htare : l.tareTake T (stationOf r) i cal = l) :
    l.deliver T i e cal v = l.takeDrum T r d v := by
  cases r <;> cases d <;> simp only [stationOf] at hst htare hrole <;>
    simp only [Live.deliver, Live.deliverRoller, hst, hrole, stationOf, htare]

/-! ### The release completes (R67) -/

theorem Live.releaseComplete_empty (hfree : l.seqFree) (hlow : l.loadSum T r < T.settings.empty) :
    l.releaseComplete T r = l.setRoller r ((l.roller r).stilled .idle) :=
  (if_pos hlow).trans (Live.enterStill_of_free hfree _)

theorem Live.releaseComplete_seated (hfree : l.seqFree) (hlow : ¬ l.loadSum T r < T.settings.empty)
    (hs : (l.roller r).seated = true) : l.releaseComplete T r = l.setRoller r ((l.roller r).stilled .seated) :=
  (if_neg hlow).trans ((if_pos hs).trans (Live.enterStill_of_free hfree _))

theorem Live.releaseComplete_settles (hfree : l.seqFree) (hlow : ¬ l.loadSum T r < T.settings.empty)
    (hs : (l.roller r).seated = false) (hhigh : T.settings.seat ≤ l.loadSum T r) : l.releaseComplete T r =
      l.setRoller r { (l.roller r).stilled .settling with settleTimer := some 0, histL := [], histR := [] } := by
  refine (if_neg hlow).trans ((if_neg (Bool.eq_false_iff.1 hs)).trans ((if_pos hhigh).trans ?_))
  rw [Live.enterSettling_of_free hfree, hs]
  rfl

theorem Live.releaseComplete_between (hfree : l.seqFree) (hlow : ¬ l.loadSum T r < T.settings.empty)
    (hs : (l.roller r).seated = false) (hhigh : l.loadSum T r < T.settings.seat) :
    l.releaseComplete T r = l.setRoller r ((l.roller r).stilled .idle) :=
  (if_neg hlow).trans ((if_neg (Bool.eq_false_iff.1 hs)).trans
    ((if_neg (Int.not_le.2 hhigh)).trans (Live.enterStill_of_free hfree _)))

end
end Sys2Proof.Machine
end

section
/-! ## A lost axle (R66, R88, R110, R143; O53) -/

namespace Sys2Proof.Machine
section
variable {T : Tables} {old l m : Live} {s : State} {r h q : Roller} {c : Capture} {reason : EndReason}

/-! ### The drums stop and the capture ends (R66, R88) -/

theorem Live.enterReleasing_releaseTimer (l : Live) (r q : Roller) :
    ((l.enterReleasing T r).roller q).releaseTimer = if q = r then some 0 else (l.roller q).releaseTimer := by
  have hstill : ∀ x : Live, ((x.seqSees T (stationOf r)).roller q).releaseTimer = (x.roller q).releaseTimer := fun x =>
    congrArg RollerStation.releaseTimer ((Live.seqSees_still (.refl x) _).roller q)
  have hdrive : q ≠ r → (l.offerDrive T r false).roller q = l.roller q := (l.offerDrive_onlyRoller r false).2 q
  refine (hstill _).trans ?_
  by_cases hq : q = r
  · rw [if_pos hq, hq]
    cases r <;> rfl
  · rw [if_neg hq, ← hdrive hq]
    cases r <;> cases q <;> first | rfl | exact absurd rfl hq

/-- Every station that is released has its release timer started. -/
theorem Live.releases_releaseTimer : ∀ (rs : List Roller) {l : Live},
    q ∈ rs ∨ (l.roller q).releaseTimer = some 0 →
      ((rs.foldl (fun x r => x.captureLeave T .releasing r) l).roller q).releaseTimer = some 0
  | [], _, h => h.resolve_left List.not_mem_nil
  | r :: rs, l, h => by
    have hone : ((l.captureLeave T .releasing r).roller q).releaseTimer = if q = r then some 0 else (l.roller q).releaseTimer :=
      l.enterReleasing_releaseTimer r q
    refine Live.releases_releaseTimer rs ?_
    by_cases hq : q = r
    · exact .inr (hone.trans (if_pos hq))
    · exact h.imp (fun hmem => (List.mem_cons.1 hmem).resolve_left hq) fun htimer => (hone.trans (if_neg hq)).trans htimer

theorem Live.captureEvents_still (rs : List Roller) (l : Live) :
    Still l (rs.foldl (fun x r => x.captureEvent reason r) l) :=
  Still.foldl (fun _ _ hx => Live.event_still hx _ _ _ _) rs (.refl l)

theorem Live.captureStop_releaseTimer (hq : q ∈ captureStations h c) :
    ((l.captureStop T h c reason fun _ => .releasing).roller q).releaseTimer = some 0 := by
  unfold Live.captureStop
  dsimp only
  rw [(Live.captureEvents_still (reason := reason) _ _).roller]
  exact Live.releases_releaseTimer _ (.inl hq)

theorem Live.releases_seq : ∀ (rs : List Roller) {l : Live}, l.seqFree →
    (rs.foldl (fun x r => x.captureLeave T .releasing r) l).seq = l.seq
  | [], _, _ => rfl
  | r :: rs, l, hfree => by
    have hone : (l.captureLeave T .releasing r).seq = l.seq := Live.enterReleasing_seq_of_free hfree
    exact (Live.releases_seq rs (hfree.of_seq hone)).trans hone

theorem Live.captureStop_seq_of_free (hfree : l.seqFree) : (l.captureStop T h c reason fun _ => .releasing).seq = l.seq := by
  have hwritten : ((captureStations h c).foldl (fun x r => x.captureWrite T h c reason r) (l.endsWith h c reason)).seq = l.seq :=
    (foldl_field (field := Live.seq) (fun x r => Live.captureWrite_seq _ _ _ _) _ _).trans (Live.setRoller_seq _ _ _)
  have hleft := Live.releases_seq (T := T) (captureStations h c)
    (l := (captureStations h c).foldl (fun x r => x.captureWrite T h c reason r) (l.endsWith h c reason)) (hfree.of_seq hwritten)
  exact (foldl_field (field := Live.seq) (fun x r => Live.captureEvent_seq) _ _).trans (hleft.trans hwritten)

/-! ### The loss (R66, R143) -/

/-- A drum turns and no capture runs: the station releases, and the exit is tracked. -/
def Live.losesTurning (T : Tables) (r : Roller) (l : Live) : Live := ((l.enterReleasing T r).reportExit T r).1

/-- A capture runs: it ends with AXLE_LOST before the exit is tracked, and is reported to the sequencer after. -/
def Live.losesMeasuring (T : Tables) (h : Roller) (c : Capture) (r : Roller) (l : Live) : Live :=
  ((l.captureStop T h c .axleLost fun _ => .releasing).reportExit T r).1.captureReport T h c .axleLost
    (l.boundOrZero (stationOf h))

/-- Where the tracker has a place for the axle that RA loses, or there is none to place. -/
def Live.tracksExit (T : Tables) (r : Roller) (l : Live) : Prop :=
  l.bound (stationOf r) = none ∨ r = .rb ∨ T.present .rb = false ∨ l.tracker.g2.length < 4

/-- A station whose exit is tracked finds its place as it was while nothing of the tracker changed. -/
theorem Live.reportExit_tracks (hfree : l.seqFree) (htracker : l.tracker = old.tracker) (h : old.tracksExit T r) :
    (l.reportExit T r).2 = false := by
  rw [Live.reportExit_of_free hfree]
  refine Live.trackExit_tracks ?_
  rw [Live.bound_setRoller, Live.bound_of_tracker htracker, Live.setRoller_tracker, htracker]
  exact h

/-- What the report of an exit leaves of everything but the station's seat. -/
theorem Live.reportExit_leaves (hfree : l.seqFree) :
    AxleLeaves r (l.setRoller r { l.roller r with seated := false }) (l.reportExit T r).1 := by
  rw [Live.reportExit_of_free hfree]
  exact Live.trackExit_leaves _ r

theorem Live.axleLost_turning (hfree : l.seqFree) (hx : (l.roller r).state ≠ .measuring) (htracks : l.tracksExit T r) :
    l.axleLost T r = (l.losesTurning T r).raiseWith T .axleLost (.station (stationOf r)) (l.boundOrZero (stationOf r)) 0 := by
  have hfree' : (l.enterReleasing T r).seqFree := hfree.of_seq (Live.enterReleasing_seq_of_free hfree)
  have hplace := Live.reportExit_tracks hfree' (Live.enterReleasing_quiet (.refl l) r).tracker htracks
  simp only [Live.axleLost, if_neg hx, Live.raiseExitMistrack, hplace, Bool.false_eq_true, if_false]
  rfl

theorem Live.seqFree.captureStop (hfree : l.seqFree) (h : Roller) (c : Capture) (reason : EndReason) :
    (l.captureStop T h c reason fun _ => .releasing).seqFree := hfree.of_seq (Live.captureStop_seq_of_free hfree)

theorem Live.axleLost_measuring (hfree : l.seqFree) (hx : (l.roller r).state = .measuring) (hh : l.captureHolder r = some h)
    (hc : (l.roller h).capture = some c) (htracks : l.tracksExit T r) : l.axleLost T r =
      (l.losesMeasuring T h c r).raiseWith T .axleLost (.station (stationOf r)) (l.boundOrZero (stationOf r)) 0 := by
  have hplace := Live.reportExit_tracks (hfree.captureStop (T := T) h c .axleLost)
    (Live.captureStop_quiet (.refl l) h c .axleLost _).tracker htracks
  simp only [Live.axleLost, if_pos hx, hh, Option.bind_some, hc, Option.map_some, Live.raiseExitMistrack, hplace,
    Bool.false_eq_true, if_false]
  rfl

/-- What a loss without a capture leaves. -/
structure LostTurning (T : Tables) (r : Roller) (old l : Live) : Prop where
  drive : DriveMade T r false old l
  state : (l.roller r).state = .releasing
  timer : (l.roller r).releaseTimer = some 0
  seated : (l.roller r).seated = false
  only : OnlyRoller r old l
  bound : l.bound (stationOf r) = none
  faults : l.faults = old.faults
  seq : l.seq = old.seq

theorem Live.losesTurning_lost (hfree : l.seqFree) : LostTurning T r l (l.losesTurning T r) := by
  have hmoved := Live.enterReleasing_moved (T := T) (r := r) hfree
  have hseq := Live.enterReleasing_seq_of_free (T := T) (r := r) hfree
  have hleaves := Live.reportExit_leaves (T := T) (r := r) (hfree.of_seq hseq)
  obtain ⟨-, -, -, htimer⟩ := hmoved.entered.timers
  have hroller : (l.losesTurning T r).roller r = { (l.enterReleasing T r).roller r with seated := false } :=
    (hleaves.still.roller r).trans (Live.roller_setRoller _ _ _)
  refine ⟨?_, by rw [hroller]; exact hmoved.entered.state, by rw [hroller]; exact htimer, by rw [hroller],
    (hmoved.only.trans (Live.setRoller_onlyRoller _ _ _)).trans (hleaves.still.onlyRoller r), hleaves.own, ?_, ?_⟩
  · exact hmoved.drive.congr rfl rfl (by rw [hroller]) (hleaves.down.trans (by rw [Live.setRoller_chain]))
  · exact hleaves.faults.trans ((Live.setRoller_faults _ _ _).trans hmoved.quiet.faults)
  · exact hleaves.seq.trans ((Live.setRoller_seq _ _ _).trans hseq)

theorem AxleRecord.brake_setBrake (a : AxleRecord) (p : BrakePart) (x : Part BrakeResult) : (a.setBrake p x).brake p = x := by
  cases p <;> rfl

/-- What a loss during a capture leaves. -/
structure LostMeasuring (T : Tables) (h : Roller) (c : Capture) (r : Roller) (old l : Live) : Prop where
  capture : (l.roller h).capture = none
  seated : (l.roller r).seated = false
  bound : l.bound (stationOf r) = none
  released : ∀ q ∈ captureStations h c, (l.roller q).state = .releasing ∧ (l.roller q).releaseTimer = some 0
  others : ∀ p, p ≠ stationOf r → l.bound p = old.bound p
  stations : ∀ p, p ∉ (captureStations h c).map stationOf → l.stationState p = old.stationState p
  parts : ∀ q ∈ captureStations h c, ∀ j a, old.bound (stationOf q) = some j → old.axle? j = some a →
    (∀ w ∈ captureStations h c, w ≠ q → old.bound (stationOf w) ≠ some j) → ∃ b, l.axle? j = some b
      ∧ b.brake c.settings.part = abortedPart .axleLost (a.brake c.settings.part)
  ends : ∃ more, l.chain.up = upAfter (captureEnds h c .axleLost old) old.chain.up ++ originated more
  faults : l.faults = old.faults
  seq : old.seq.planCapture h = none → l.seq = old.seq

/-- The report of a capture's end takes the capture from its holder and leaves the stations otherwise. -/
theorem Live.captureReport_roller (l : Live) (axle : Nat) (q : Roller) : (l.captureReport T h c reason axle).roller q =
    { l.roller q with capture := ((l.captureReport T h c reason axle).roller q).capture } := by
  have hstill : Still l (l.seqCaptureEnd T h c reason axle) := Live.seqCaptureEnd_still (.refl l) _ _ _ _
  rw [← hstill.roller q]
  cases h <;> cases q <;> rfl

theorem Live.captureReport_seq_of_none (hplan : l.seq.planCapture h = none) (axle : Nat) :
    (l.captureReport T h c reason axle).seq = l.seq := by
  have hsame : l.seqCaptureEnd T h c reason axle = l := by simp only [Live.seqCaptureEnd, hplan]
  rw [Live.captureReport, hsame]
  exact Live.setRoller_seq _ _ _

/-- The release timer is no matter of the seat. -/
theorem Live.releaseTimer_unseat (l : Live) (r q : Roller) :
    ((l.setRoller r { l.roller r with seated := false }).roller q).releaseTimer = (l.roller q).releaseTimer := by
  cases r <;> cases q <;> rfl

theorem Live.stationState_unseat (l : Live) (r : Roller) (p : Station) :
    (l.setRoller r { l.roller r with seated := false }).stationState p = l.stationState p :=
  l.setRoller_stationState r (by rfl) p

theorem Live.losesMeasuring_lost (hfree : l.seqFree) : LostMeasuring T h c r l (l.losesMeasuring T h c r) := by
  let stopped := l.captureStop T h c .axleLost fun _ => .releasing
  let gone := (stopped.reportExit T r).1
  have hstop : Quiet l stopped := Live.captureStop_quiet (.refl l) h c .axleLost _
  have hleaves : AxleLeaves r (stopped.setRoller r { stopped.roller r with seated := false }) gone :=
    Live.reportExit_leaves (hfree.captureStop h c .axleLost)
  have hreport : Quiet gone (l.losesMeasuring T h c r) := Live.captureReport_quiet (.refl gone) h c .axleLost _
  have hroller : ∀ q, (l.losesMeasuring T h c r).roller q =
      { gone.roller q with capture := ((l.losesMeasuring T h c r).roller q).capture } := gone.captureReport_roller _
  have hgone : ∀ q, gone.roller q = (stopped.setRoller r { stopped.roller r with seated := false }).roller q :=
    hleaves.still.roller
  have hstate : ∀ p, (l.losesMeasuring T h c r).stationState p = stopped.stationState p := fun p =>
    (Live.captureReport_stationState gone h c .axleLost _ p).trans
      ((hleaves.still.stationState p).trans (stopped.stationState_unseat r p))
  have hbound : ∀ p, (l.losesMeasuring T h c r).bound p = gone.bound p := Live.bound_of_tracker hreport.tracker
  have hseq : gone.seq = l.seq :=
    hleaves.seq.trans ((Live.setRoller_seq _ _ _).trans (Live.captureStop_seq_of_free hfree))
  refine ⟨?_, ?_, (hbound _).trans hleaves.own, fun q hq => ⟨?_, ?_⟩, fun p hp => ?_, fun p hp => ?_, fun q hq j a hb ha halone => ?_,
    ?_, ?_, fun hplan => ?_⟩
  · exact congrArg RollerStation.capture (Live.roller_setRoller _ _ _)
  · rw [hroller, hgone, Live.roller_setRoller]
  · rw [Live.roller_state, hstate, Live.captureStop_stationState, stationRoller_stationOf]
    exact if_pos hq
  · rw [hroller, hgone, Live.releaseTimer_unseat]
    exact Live.captureStop_releaseTimer hq
  · rw [hbound, hleaves.others p hp, Live.bound_setRoller, Live.bound_of_tracker hstop.tracker]
  · rw [hstate, Live.captureStop_stationState]
    cases hq : stationRoller p with
    | none => rfl
    | some q => exact if_neg fun hmem => hp (mem_captureStations_map.2 ⟨q, hq, hmem⟩)
  · have hwritten : (stopped.setRoller r { stopped.roller r with seated := false }).axle? j =
        some (a.setBrake c.settings.part (l.endPart T h c .axleLost q a)) :=
      (Live.axle?_of_slots (congrArg Records.slots (Live.setRoller_records _ _ _)) j).trans
        (Live.captureStop_axle? _ hq hb ha halone)
    obtain ⟨b, hb, hsame⟩ := hleaves.parts j _ hwritten
    refine ⟨b, (Live.captureReport_axle? _ _).trans hb, (hsame _).trans ?_⟩
    rw [AxleRecord.brake_setBrake, Live.endPart, if_neg (by decide), interruptPart_eq]
  · obtain ⟨more, hmore⟩ := hleaves.up
    obtain ⟨more', hmore', -⟩ := Live.captureReport_up (T := T) (l := gone) (h := h) (c := c) (reason := .axleLost)
      (l.boundOrZero (stationOf h))
    obtain ⟨hup, -⟩ := Live.captureStop_up (T := T) (h := h) (c := c) (reason := .axleLost) (fun _ => .releasing)
      (show l.seqApart from fun hw => absurd hw hfree.1)
    refine ⟨more ++ more', hmore'.trans ?_⟩
    rw [hmore, Live.setRoller_chain, hup, originated_append, List.append_assoc]
  · exact hreport.faults.trans (hleaves.faults.trans ((Live.setRoller_faults _ _ _).trans hstop.faults))
  · exact (Live.captureReport_seq_of_none (by rw [hseq, hplan]) _).trans hseq

end
end Sys2Proof.Machine
end

section
/-! ## The obligation on the drum timers, drum samples and a lost axle (R63 to R67, R143; O53) -/

namespace Sys2Proof.Machine
section
variable {T : Tables} {l m : Live} {s : State} {r h q : Roller} {c : Capture}

/-! ### A load sample before the loss -/

/-- A load sample writes a history; everything that the loss speaks of stands as it stood. -/
theorem Live.joinLoad_capture (l : Live) (r q : Roller) (d : Side) (v : Int) :
    ((l.setRoller r ((l.roller r).joinLoad d v)).roller q).capture = (l.roller q).capture := by
  cases d <;> cases r <;> cases q <;> rfl

theorem Live.captureHolder_of_captures (hsame : ∀ q, (m.roller q).capture = (l.roller q).capture) (r : Roller) :
    m.captureHolder r = l.captureHolder r := by
  have hra : m.ra.capture = l.ra.capture := hsame .ra
  simp only [Live.captureHolder, hra, hsame]

theorem RollerStation.joinLoad_state (x : RollerStation) (d : Side) (v : Int) : (x.joinLoad d v).state = x.state := by
  cases d <;> rfl

theorem Live.stationState_joinLoad (l : Live) (r : Roller) (d : Side) (v : Int) (p : Station) :
    (l.setRoller r ((l.roller r).joinLoad d v)).stationState p = l.stationState p :=
  l.setRoller_stationState r (RollerStation.joinLoad_state _ _ _) p

theorem LostTurning.of_joinLoad {d : Side} {v : Int} (hlost : LostTurning T r (l.setRoller r ((l.roller r).joinLoad d v)) m) :
    LostTurning T r l m := by
  obtain ⟨hdrive, hstate, htimer, hseated, honly, hbound, hfaults, hseq⟩ := hlost
  refine ⟨hdrive.congr ?_ (by rw [Live.setRoller_chain]) rfl rfl, hstate, htimer, hseated,
    (l.setRoller_onlyRoller r _).trans honly, hbound, hfaults.trans (Live.setRoller_faults _ _ _),
    hseq.trans (Live.setRoller_seq _ _ _)⟩
  rw [Live.roller_setRoller]
  cases d <;> rfl

theorem LostMeasuring.of_joinLoad {d : Side} {v : Int}
    (hlost : LostMeasuring T h c r (l.setRoller r ((l.roller r).joinLoad d v)) m) : LostMeasuring T h c r l m := by
  obtain ⟨hcapture, hseated, hbound, hreleased, hothers, hstations, hparts, hends, hfaults, hseq⟩ := hlost
  have hsame : ∀ p, (l.setRoller r ((l.roller r).joinLoad d v)).bound p = l.bound p := l.bound_setRoller r _
  have haxle : ∀ j, (l.setRoller r ((l.roller r).joinLoad d v)).axle? j = l.axle? j :=
    Live.axle?_of_slots (congrArg Records.slots (Live.setRoller_records _ _ _))
  refine ⟨hcapture, hseated, hbound, hreleased, fun p hp => (hothers p hp).trans (hsame p),
    fun p hp => (hstations p hp).trans (l.stationState_joinLoad r d v p), fun q hq j a hb ha halone => ?_, ?_,
    hfaults.trans (Live.setRoller_faults _ _ _), fun hplan => ?_⟩
  · exact hparts q hq j a ((hsame _).trans hb) ((haxle j).trans ha) fun w hw hne => by rw [hsame]; exact halone w hw hne
  · obtain ⟨more, hmore⟩ := hends
    refine ⟨more, hmore.trans ?_⟩
    simp only [captureEnds, Live.boundOrZero, hsame, Live.setRoller_chain]
  · rw [Live.setRoller_seq] at hseq
    exact hseq hplan

/-- Settles O53: the three timers by whether they are due; a drum sample by the station's state and the counts; a load sample below
the empty limit by whether a capture runs. -/
theorem drumTimersReleaseTheStation : Obligations.DrumTimersReleaseTheStation := by
  refine ⟨fun s r hawake => ?_, fun s src ch x i e c r d hsampled hst => ?_⟩
  · intro y st axle released
    have hreleased : s.live.seqFree → released (s.live.enterReleasing s.tables r) := fun hfree => by
      have hmoved := Live.enterReleasing_moved (T := s.tables) (r := r) hfree
      exact ⟨hmoved.quiet, hmoved.only, Live.enterReleasing_seq_of_free hfree, hmoved.drive, hmoved.entered⟩
    refine ⟨fun hearly => ?_, fun n hy htimer hdue hfree => ?_, fun hearly => ?_, fun n hy htimer hdue hfree => ?_,
      fun hearly => ?_, fun n hy htimer hdue => ?_⟩
    · rw [exec_spinTimeout hawake, if_neg (show ¬ s.live.spinDue r = true from not_due hearly), State.withLive_self]
    · rw [exec_spinTimeout hawake, if_pos (show s.live.spinDue r = true from due_iff.2 ⟨hy, n, htimer, hdue⟩)]
      exact ⟨_, _, rfl, hreleased hfree, (hreleased hfree).1.raise_station _ _ _⟩
    · rw [exec_readyLapsed hawake, if_neg (show ¬ s.live.readyDue r = true from not_due hearly), State.withLive_self]
    · rw [exec_readyLapsed hawake, if_pos (show s.live.readyDue r = true from due_iff.2 ⟨hy, n, htimer, hdue⟩)]
      exact ⟨_, hreleased hfree, rfl⟩
    · rw [exec_releaseTimeout hawake, if_neg (show ¬ s.live.releaseDue r = true from not_due hearly), State.withLive_self]
    · rw [exec_releaseTimeout hawake, if_pos (show s.live.releaseDue r = true from due_iff.2 ⟨hy, n, htimer, hdue⟩),
        Live.releaseExpires_eq]
      exact ⟨_, _, rfl, (s.live.restop_quiet r).raise_station _ _ _, s.live.restop_quiet r,
        (s.live.offerDrive_onlyRoller r false).trans (Live.setRoller_onlyRoller _ _ _),
        (Live.setRoller_seq _ _ _).trans (Live.offerDrive_seq _ _), s.live.restop_made r, s.live.restop_roller r⟩
  · intro v l y st sum goes stilled
    have hroller : l.roller r = y := by cases r <;> rfl
    let joined := l.setRoller r ((l.roller r).joinLoad d v)
    have hjoined : (joined.roller r).state = y.state := by
      rw [Live.roller_setRoller, RollerStation.joinLoad_state, hroller]
    have hbound : ∀ p, joined.bound p = s.live.bound p := l.bound_setRoller r _
    have haxle : joined.boundOrZero st = s.live.boundOrZero st := congrArg (·.getD 0) (hbound st)
    have hplace : (s.live.bound st = none ∨ r = .rb ∨ s.tables.present .rb = false ∨ s.live.tracker.g2.length < 4) →
        joined.tracksExit s.tables r := fun h => by
      unfold Live.tracksExit
      rw [hbound, Live.setRoller_tracker]
      exact h
    have hloses : e.role = (match d with | .left => .loadL | .right => .loadR) →
        y.state ∈ [StationState.spinning, .ready, .measuring] → sum < s.tables.settings.empty →
        goes (joined.axleLost s.tables r) := fun hrole hy hlow => by
      have htare : (l.roller r).state ≠ .taring := fun ht => by
        rw [hroller] at ht
        simp [ht] at hy
      have hlow' : joined.loadSum s.tables r < s.tables.settings.empty := by rwa [Live.loadSum_setRoller]
      change exec (.sampleFrame src ch [x]) s = _
      rw [hsampled.exec_eq, Live.deliver_load hst hrole htare, Live.judgeLoad_loses (by rwa [hjoined]) hlow']
    refine ⟨fun hrole => ?_, fun hrole hturns hlow hfree htracks => ?_, fun h k hrole hy hlow hfree hh hk htracks => ?_⟩
    · intro counted y' stopped
      have hy' : y.countReady s.tables d v = y' := by cases d <;> rfl
      have hexec : ∀ {m}, (y.state = .taring → ∀ k, y.tare.context = some k → ∀ z ∈ k.channels, z.entry ≠ i) →
          l.takeDrum s.tables r d v = m → goes m := fun htare h => by
        have htare' : l.stationState (stationOf r) = .taring → ∀ k, (l.tare (stationOf r)).context = some k →
            ∀ z ∈ k.channels, z.entry ≠ i := by
          cases r <;> exact htare
        change exec (.sampleFrame src ch [x]) s = _
        rw [hsampled.exec_eq, Live.deliver_drum hst hrole (Live.tareTake_of_other htare' _), h]
      have hother : ∀ {w}, y.state = w → w ≠ .taring →
          y.state = .taring → ∀ k, y.tare.context = some k → ∀ z ∈ k.channels, z.entry ≠ i :=
        fun hw hne ht => absurd (hw.symm.trans ht) hne
      have hstopped : l.drumsStopped s.tables r = true ↔ stopped := Live.drumsStopped_iff
      refine ⟨fun hy htare => ?_, fun hy hcount => ?_, fun hy hleft hright hfree hs => ?_, fun hy hturns => ?_,
        fun hy hstop hfree => ?_⟩
      · exact hexec htare (Live.takeDrum_of_resting (by rwa [hroller]) d v)
      · refine hexec (hother hy (by decide)) ?_
        rw [Live.takeDrum_of_spinning (by rwa [hroller]), hroller, hy']
        exact if_neg fun ⟨hleft, hright⟩ => hcount.elim (Nat.not_lt.2 hleft) (Nat.not_lt.2 hright)
      · have hfree' : (l.setRoller r y').seqFree := Live.seqFree.setRoller (l := l) hfree r y'
        refine hexec (hother hy (by decide)) ?_
        rw [Live.takeDrum_of_spinning (by rwa [hroller]), hroller, hy']
        refine (if_pos ⟨hleft, hright⟩).trans ?_
        rw [Live.enterReady_of_free hfree', Live.setRoller_setRoller, Live.roller_setRoller]
        exact Live.judgeSilence_of_noneSilent
          ((State.sampledAs_noneSilent hs hsampled.channel v).of_steer (Live.setRoller_steer _ _ _)) _
      · refine hexec (hother hy (by decide)) ?_
        rw [Live.takeDrum_of_releasing (by rwa [hroller]), if_neg fun hstop => hturns (hstopped.1 hstop)]
      · have hcomplete : ∀ {m}, l.releaseComplete s.tables r = m → goes m := fun h => by
          refine hexec (hother hy (by decide)) ?_
          rw [Live.takeDrum_of_releasing (by rwa [hroller]), if_pos (hstopped.2 hstop), h]
        refine ⟨fun hlow => ?_, fun hload hs => ?_, fun hload hs hhigh => ?_, fun hload hs hbetween => ?_⟩
        · exact hroller ▸ hcomplete (Live.releaseComplete_empty (l := l) hfree hlow)
        · exact hroller ▸ hcomplete (Live.releaseComplete_seated (l := l) hfree (Int.not_lt.2 hload) (hroller ▸ hs))
        · exact hroller ▸ hcomplete (Live.releaseComplete_settles (l := l) hfree (Int.not_lt.2 hload) (hroller ▸ hs) hhigh)
        · exact hroller ▸ hcomplete (Live.releaseComplete_between (l := l) hfree (Int.not_lt.2 hload) (hroller ▸ hs) hbetween)
    · have hfree' : joined.seqFree := Live.seqFree.setRoller (l := l) hfree r _
      have hgoes := hloses hrole (hturns.elim (fun hy => by simp [hy]) fun hy => by simp [hy]) hlow
      have hother : (joined.roller r).state ≠ .measuring := fun hm => by
        rw [hjoined] at hm
        rcases hturns with hy | hy <;> exact absurd (hy.symm.trans hm) (by decide)
      rw [Live.axleLost_turning hfree' hother (hplace htracks), haxle] at hgoes
      obtain ⟨hdrive, hstate, htimer, hseated, honly, hunbound, hfaults, hseq⟩ :=
        LostTurning.of_joinLoad (Live.losesTurning_lost (T := s.tables) (r := r) hfree')
      exact ⟨_, _, hgoes, Live.raiseWith_raised _ _ _ _ _ _, hdrive, hstate, htimer, hseated, honly, hunbound, hfaults, hseq⟩
    · have hfree' : joined.seqFree := Live.seqFree.setRoller (l := l) hfree r _
      have hgoes := hloses hrole (by simp [hy]) hlow
      have hcapture : ∀ q, (joined.roller q).capture = (s.live.roller q).capture := fun q =>
        (l.joinLoad_capture r q d v).trans (by cases q <;> rfl)
      rw [Live.axleLost_measuring hfree' (hjoined.trans hy) ((Live.captureHolder_of_captures hcapture r).trans hh)
        ((hcapture h).trans hk) (hplace htracks), haxle] at hgoes
      obtain ⟨hnone, hseated, hunbound, hreleased, hothers, hstations, hparts, hends, hfaults, hseq⟩ :=
        LostMeasuring.of_joinLoad (Live.losesMeasuring_lost (T := s.tables) (h := h) (c := k) (r := r) hfree')
      exact ⟨_, _, hgoes, Live.raiseWith_raised _ _ _ _ _ _, hnone, hseated, hunbound, hreleased,
        fun p hp => ⟨hothers p hp, hstations p⟩, hparts, hends, hfaults, hseq⟩

end
end Sys2Proof.Machine
end

section
/-! ## The sequencer at a unit of its plan (R61, R128, R129; O48) -/

namespace Sys2Proof.Machine
section
variable {T : Tables} {old l m : Live} {s : State} {p : Plan} {u : PlanUnit} {r : Roller} {st : Station}

/-! ### The unit and its end -/

theorem exec_sequencerTakeUnit (hawake : s.awake) (hrun : s.live.seq.state = .running) :
    exec .sequencerTakeUnit s = .next (s.withLive (s.live.takeUnit s.tables)) :=
  (congrArg Host.Outcome.next (State.onLive_awake _ hawake)).trans (by rw [if_pos hrun])

/-- The step pointer stands at a unit of the record's plan. -/
structure AtUnit (T : Tables) (p : Plan) (u : PlanUnit) (l : Live) : Prop where
  plan : l.plan? T = some p
  unit : p.unitAt l.seq.pointer = some u

/-- Nothing waits for the end of the step. -/
structure Seq.Plain (q : Seq) : Prop where
  prompt : q.stepEndPrompt = none
  pause : q.pausePending = false
  again : q.pendingRepeat = false

theorem AtUnit.currentUnit (h : AtUnit T p u l) : l.currentUnit T = some u := by
  rw [Live.currentUnit, h.plan, Option.bind_some, h.unit]

theorem AtUnit.setSeq (h : AtUnit T p u l) {q : Seq} (hq : q.pointer = l.seq.pointer) : AtUnit T p u (l.setSeq q) :=
  ⟨h.plan, (congrArg p.unitAt hq).trans h.unit⟩

/-- The plan of the OPEN record is no matter of the stations. -/
theorem Quiet.plan? (h : Quiet old l) : l.plan? T = old.plan? T := by
  have hplan : ∀ o : Option VehicleRecord, (o.map (·.bare)).bind (·.plan) = o.bind (·.plan) := fun o => by cases o <;> rfl
  have hopen : l.openRecord.bind (·.plan) = old.openRecord.bind (·.plan) := by
    unfold Live.openRecord
    rw [Live.openSlot_of_slotState h.slots]
    cases old.openSlot with
    | none => rfl
    | some i => rw [Option.bind_some, Option.bind_some, ← hplan, h.records i, hplan]
  rw [Live.plan?, hopen, Live.plan?]

theorem AtUnit.quiet (h : AtUnit T p u old) (hq : Quiet old l) (hseq : l.seq.pointer = old.seq.pointer) : AtUnit T p u l :=
  ⟨hq.plan?.trans h.plan, (congrArg p.unitAt hseq).trans h.unit⟩

theorem Live.plan?_of_records (h : m.records = l.records) : m.plan? T = l.plan? T := by
  rw [Live.plan?, Live.openRecord_of_slots (congrArg Records.slots h), Live.plan?]

/-- The sequencer's items after a step that is done at once (R128, R129). -/
def Seq.stepped (q : Seq) (u : PlanUnit) : Seq :=
  { q with pointer := u.step + 1, mods := none, state := .running, held := none, wait := none, awaitTimer := none }

theorem Live.stepDone_plain (hat : AtUnit T p u l) (hplain : l.seq.Plain) : l.stepDone T = l.setSeq (l.seq.stepped u) := by
  obtain ⟨hprompt, hpause, hagain⟩ := hplain
  have hend : l.endStepPrompt T u = l := by
    unfold Live.endStepPrompt
    rw [hprompt]
    split
    · rfl
    · cases ‹none = some _›
    · rfl
  simp only [Live.stepDone, hat.currentUnit, hend]
  refine (if_neg (Bool.eq_false_iff.1 (show (Live.setSeq _ l).seq.pausePending = false from hpause))).trans ?_
  exact if_neg (Bool.eq_false_iff.1 hagain)

/-- A HALTED step sends EVENT STEP_HALTED with its step and its station's axle (R61). -/
theorem Live.seqHalt_at (hat : AtUnit T p u l) : l.seqHalt T = (l.setSeq
    { l.seq with state := .halted, held := none, wait := none, awaitTimer := none }).event .stepHalted u.station
      ((u.station.map l.boundOrZero).getD 0) u.step := by
  simp only [Live.seqHalt, hat.currentUnit]

/-! ### The answer to a step's request (R61, R128) -/

/-- The sequencer's items after an accepted request: it waits where the step's wait flag is set. -/
def Seq.accepted (q : Seq) (u : PlanUnit) (w : Bool) (on : SeqWait) : Seq :=
  if w then { q with state := .waiting, wait := some on } else q.stepped u

theorem Live.seqAnswered_accepted (hat : AtUnit T p u l) (hplain : l.seq.Plain) (w : Bool) {on : SeqWait}
    (hquiet : (l.setSeq { l.seq with state := .waiting, wait := some on }).waitSees T st =
      l.setSeq { l.seq with state := .waiting, wait := some on }) :
    l.seqAnswered T st (whenSet w on) .accepted = l.setSeq (l.seq.accepted u w on) := by
  cases w with
  | true => exact hquiet
  | false => exact Live.stepDone_plain hat hplain

/-- A wait for the drums to come up goes on while they do. -/
theorem Live.waitSees_spin (hwait : l.seq.wait = some (.spin st)) (hx : l.stationState st = .spinning) : l.waitSees T st = l := by
  simp [Live.waitSees, hwait, hx]

/-- A wait for the drums to stop goes on while they do. -/
theorem Live.waitSees_release (hwait : l.seq.wait = some (.release st)) (hx : l.stationState st = .releasing) :
    l.waitSees T st = l := by
  simp [Live.waitSees, hwait, hx]

theorem Live.waitSees_tare {p : Station} (hwait : l.seq.wait = some (.tare p)) : l.waitSees T st = l := by
  simp only [Live.waitSees, hwait]

theorem Live.waitSees_capture {h : Roller} (hwait : l.seq.wait = some (.capture h)) : l.waitSees T st = l := by
  simp only [Live.waitSees, hwait]

/-! ### Taking the unit (R128) -/

/-- The sequencer takes the step's modifiers. -/
def Live.choose (u : PlanUnit) (l : Live) : Live := l.setSeq { l.seq with mods := some u.mods }

theorem Live.takeUnit_at (hat : AtUnit T p u l) (hlevel : l.level < 2) : l.takeUnit T = (l.choose u).judgeUnit T p u := by
  have hlock : ¬ l.level = 3 := by omega
  have hstop : ¬ l.level = 2 := by omega
  simp only [Live.takeUnit, hat.plan, hat.unit, if_neg hlock, if_neg hstop]
  rfl

/-- A step with a request to a station that is not FAULTED is taken, unless the armed skip has reached it. -/
theorem Live.judgeUnit_takes (hu : u.station = some st) (hx : l.stationState st ≠ .faulted) (hneeds : u.record.needsStation = false)
    (hskip : (∃ o b, u.record = .capture o b) → l.seq.armedSkip ≠ some l.seq.pointer) :
    l.judgeUnit T p u = l.takeStep T p u := by
  have hnone : u.station.filter (fun st => l.stationState st == .faulted) = none := by
    rw [hu, Option.filter_some, if_neg (by simpa using hx)]
  have htaken : (if (u.record.needsStation && l.unitStationIs u .offline) = true then l.seqHalt T else l.takeStep T p u) =
      l.takeStep T p u := by
    rw [hneeds, Bool.false_and, if_neg (by decide)]
  unfold Live.judgeUnit
  rw [hnone]
  dsimp only
  split
  · rename_i o b hrecord harmed
    exact absurd (beq_iff_eq.1 harmed) (hskip ⟨o, b, hrecord⟩)
  · exact htaken

theorem Live.onRoller_roller (f : Roller → Live → Live) (r : Roller) : l.onRoller T (stationOf r) f = f r l := by
  cases r <;> rfl

end
end Sys2Proof.Machine
end

section
/-! ## The requests of the steps SPIN, RELEASE, TARE and CAPTURE (R61, R128, R129, R136; O48) -/

namespace Sys2Proof.Machine
section
variable {T : Tables} {old l m : Live} {s : State} {p : Plan} {u : PlanUnit} {r : Roller} {st : Station}
variable {c : CaptureSettings} {marks : Marks}

theorem Live.noneSilent.setSeq (h : l.noneSilent) (q : Seq) : (l.setSeq q).noneSilent := h

/-! ### Accepted requests -/

theorem Live.takeSpin_accepted (hat : AtUnit T p u l) (hplain : l.seq.Plain) (hfree : l.seqFree) (hlevel : l.level < 2)
    (hx : (l.roller r).state = .seated) (hs : l.noneSilent) (w : Bool) : l.takeSpin T r w =
      (l.acceptSpin T r false).setSeq (l.seq.accepted u w (.spin (stationOf r))) := by
  have hmoved := Live.acceptSpin_moved (T := T) (r := r) hfree false
  have hseq := Live.acceptSpin_seq (T := T) (r := r) hfree false
  have hspinning : (l.acceptSpin T r false).stationState (stationOf r) = .spinning := by
    rw [← Live.roller_state]
    exact hmoved.entered.state
  have hanswered := Live.seqAnswered_accepted (T := T) (st := stationOf r) (on := .spin (stationOf r))
    (hat.quiet hmoved.quiet (congrArg Seq.pointer hseq)) (hseq ▸ hplain) w
    (Live.waitSees_spin rfl (((Live.setSeq_still (.refl _) _).stationState _).trans hspinning))
  unfold Live.takeSpin
  rw [Live.requestSpin_of_level hlevel, hx, if_pos rfl]
  refine (congrArg (·.startWork T (stationOf r) .accepted) hanswered).trans ?_
  rw [hseq]
  exact Live.startWork_of_noneSilent ((hmoved.quiet.noneSilent hs).setSeq _) _ _

theorem Live.takeRelease_accepted (hat : AtUnit T p u l) (hplain : l.seq.Plain) (hfree : l.seqFree)
    (hx : (l.roller r).state = .spinning ∨ (l.roller r).state = .ready) (w : Bool) : l.takeRelease T r w =
      (l.enterReleasing T r).setSeq (l.seq.accepted u w (.release (stationOf r))) := by
  have hmoved := Live.enterReleasing_moved (T := T) (r := r) hfree
  have hseq := Live.enterReleasing_seq_of_free (T := T) (r := r) hfree
  have hreleasing : (l.enterReleasing T r).stationState (stationOf r) = .releasing := by
    rw [← Live.roller_state]
    exact hmoved.entered.state
  have hanswered := Live.seqAnswered_accepted (T := T) (st := stationOf r) (on := .release (stationOf r))
    (hat.quiet hmoved.quiet (congrArg Seq.pointer hseq)) (hseq ▸ hplain) w
    (Live.waitSees_release rfl (((Live.setSeq_still (.refl _) _).stationState _).trans hreleasing))
  unfold Live.takeRelease
  rw [Live.requestRelease_of_turning hx]
  exact hanswered.trans (by rw [hseq])

/-- The tare of a station that begins (R95). -/
def Live.tareBegins (T : Tables) (st : Station) (l : Live) : Live :=
  (l.setTare st { l.tare st with context := some (tareBegun T st false), bar := false }).putState st .taring

theorem Live.tareBegins_quiet (l : Live) (st : Station) : Quiet l (l.tareBegins T st) :=
  Live.putState_quiet (Live.setTare_quiet (.refl l) st _) st _

theorem Live.tareBegins_seq (l : Live) (st : Station) : (l.tareBegins T st).seq = l.seq :=
  (Live.putState_seq _ _ _).trans (Live.setTare_seq _ _ _)

theorem Live.tareBegins_tare (l : Live) (st : Station) : (l.tareBegins T st).tare st =
    { l.tare st with context := some (tareBegun T st false), bar := false } := by
  rw [Live.tareBegins, Live.tare_putState, Live.tare_setTare]

theorem Live.tareBegins_stationState (l : Live) (st q : Station) :
    (l.tareBegins T st).stationState q = if q = st then .taring else l.stationState q := by
  rw [Live.tareBegins, Live.putState_stationState, Live.setTare_stationState]

theorem Live.takeTare_accepted (hat : AtUnit T p u l) (hplain : l.seq.Plain) (hfree : l.seqFree) (hx : l.stationState st = .idle)
    (hchannels : tareChannels T st ≠ []) (hs : l.noneSilent) (w : Bool) : l.takeTare T st w =
      (l.tareBegins T st).setSeq (l.seq.accepted u w (.tare st)) := by
  have hbegun : l.acceptTare T st (l.stationState st == .offline) true = l.tareBegins T st := by
    rw [Live.acceptTare_of_free hfree, hx, Bool.not_true, Bool.and_false]
    rfl
  have hseq := l.tareBegins_seq (T := T) st
  have hquiet := l.tareBegins_quiet (T := T) st
  have hanswered := Live.seqAnswered_accepted (T := T) (st := st) (on := .tare st)
    (hat.quiet hquiet (congrArg Seq.pointer hseq)) (hseq ▸ hplain) w (Live.waitSees_tare (p := st) rfl)
  unfold Live.takeTare
  rw [Live.requestTare_accepted (.inl hx), hbegun]
  refine (congrArg (·.beginTare T st .accepted) hanswered).trans ?_
  rw [hseq]
  refine Live.beginTare_of_channels (c := tareBegun T st false) ?_ hchannels ((hquiet.noneSilent hs).setSeq _) _
  rw [(Live.setSeq_still (.refl _) _).tare, Live.tareBegins_tare]

/-- What an accepted CAPTURE leaves, with the capture that its holder holds. -/
structure CaptureBegun (h : Roller) (k : Capture) (old l : Live) : Prop where
  stations : ∀ x, l.stationState x = if x ∈ (captureStations h k).map stationOf then .measuring else old.stationState x
  capture : (l.roller h).capture = some k
  order : l.nextStart = old.nextStart + 1
  seq : l.seq = old.seq
  records : l.records = old.records
  steer : l.steer = old.steer

theorem Live.acceptCapture_begun (hfree : l.seqFree) (r : Roller) :
    CaptureBegun (holderOf c r) (Capture.start c marks l.nextStart) l (l.acceptCapture T (holderOf c r) c marks) := by
  cases hj : c.joint with
  | false =>
    have hholder : holderOf c r = r := if_neg (by simp [hj])
    have hstations : captureStations r (Capture.start c marks l.nextStart) = [r] := if_neg (by simp [Capture.start, hj])
    rw [hholder, Live.acceptCapture_single hfree hj]
    refine ⟨fun x => ?_, ?_, Live.setRoller_nextStart _ _ _, Live.setRoller_seq _ _ _, Live.setRoller_records _ _ _,
      Live.setRoller_steer _ _ _⟩
    · rw [hstations]
      cases r <;> cases x <;> rfl
    · rw [Live.roller_setRoller]
      rfl
  | true =>
    have hholder : holderOf c r = .ra := if_pos hj
    have hstations : captureStations .ra (Capture.start c marks l.nextStart) = [.ra, .rb] := if_pos hj
    rw [hholder, Live.acceptCapture_joint hfree hj]
    refine ⟨fun x => ?_, rfl, rfl, rfl, rfl, rfl⟩
    rw [hstations]
    cases x <;> rfl

theorem Live.requestCapture_accepted (hready : ∀ x ∈ (if c.joint then [Roller.ra, .rb] else [r]), (l.roller x).state = .ready) :
    l.requestCapture T r c marks = (.accepted, l.acceptCapture T (holderOf c r) c marks) := by
  cases hj : c.joint with
  | false =>
    rw [hj] at hready
    rw [show holderOf c r = r from if_neg (by simp [hj])]
    exact Live.requestCapture_ready hj (hready r (List.mem_singleton.2 rfl))
  | true =>
    rw [hj] at hready
    rw [show holderOf c r = .ra from if_pos hj]
    exact Live.requestCapture_joint_ready hj (hready .ra (by simp)) (hready .rb (by simp))

/-- The mark of a repeat is taken by the CAPTURE step that it stands at (R139). -/
def Seq.marksTaken (q : Seq) : Seq := { q with repeatMark := if q.repeatMark = some q.pointer then none else q.repeatMark }

theorem Live.marksTaken_eq (l : Live) :
    (if (l.seq.repeatMark == some l.seq.pointer) = true then l.setSeq { l.seq with repeatMark := none } else l) =
      l.setSeq l.seq.marksTaken := by
  unfold Seq.marksTaken
  by_cases h : l.seq.repeatMark = some l.seq.pointer
  · rw [if_pos (beq_iff_eq.2 h), if_pos h]
  · rw [if_neg (by simpa using h), if_neg h]
    rfl

/-- An accepted request is recorded as the plan capture of its holder (R136). -/
def Live.recordsCapture (h : Roller) (k : PlanCapture) (x : Answer × Live) : Live :=
  match x.1 with
  | .accepted => x.2.setSeq (x.2.seq.setPlanCapture h (some k))
  | _ => x.2

theorem Live.recordsCapture_accepted (h : Roller) (k : PlanCapture) :
    Live.recordsCapture h k (.accepted, m) = m.setSeq (m.seq.setPlanCapture h (some k)) := rfl

theorem Live.recordsCapture_unaccepted (h : Roller) (k : PlanCapture) {a : Answer} (ha : a ≠ .accepted) :
    Live.recordsCapture h k (a, m) = m := by
  cases a with
  | accepted => exact absurd rfl ha
  | _ => rfl

/-- A CAPTURE step makes its request once the mark is taken. -/
theorem Live.takeCapture_eq (l : Live) (p : Plan) (u : PlanUnit) (r : Roller) (b : List Byte) :
    let c := captureSettings b u.mods.part u.mods.limitRow
    let x := (l.setSeq l.seq.marksTaken).requestCapture T r c
      { repeated := l.seq.repeatMark == some l.seq.pointer, manual := false }
    let k := { step := u.step, restart := p.restartPoint l.seq.pointer u.station }
    l.takeCapture T p u r b = ((Live.recordsCapture (holderOf c r) k x).seqAnswered T (stationOf r)
      (whenSet (captureWait b) (.capture (holderOf c r))) x.1).startCapture T r c x.1 := by
  intro c x k
  rw [Live.takeCapture, Live.marksTaken_eq]
  rfl

theorem Seq.setPlanCapture_plain {q : Seq} (h : q.Plain) (x : Roller) (k : Option PlanCapture) : (q.setPlanCapture x k).Plain := by
  cases x <;> exact ⟨h.prompt, h.pause, h.again⟩

theorem Seq.setPlanCapture_pointer (q : Seq) (x : Roller) (k : Option PlanCapture) : (q.setPlanCapture x k).pointer = q.pointer := by
  cases x <;> rfl

/-- An accepted CAPTURE step is recorded as the plan capture of its holder (R136). -/
theorem Live.takeCapture_accepted (hat : AtUnit T p u l) (hplain : l.seq.Plain) (hfree : l.seqFree) (hs : l.noneSilent)
    {b : List Byte} (hready : ∀ x ∈ (if (captureSettings b u.mods.part u.mods.limitRow).joint then [Roller.ra, .rb] else [r]),
      (l.roller x).state = .ready) :
    let c := captureSettings b u.mods.part u.mods.limitRow
    let h := holderOf c r
    ∃ m, CaptureBegun h (Capture.start c { repeated := l.seq.repeatMark == some l.seq.pointer, manual := false } l.nextStart)
        (l.setSeq l.seq.marksTaken) m
      ∧ l.takeCapture T p u r b = m.setSeq ((l.seq.marksTaken.setPlanCapture h
        (some { step := u.step, restart := p.restartPoint l.seq.pointer u.station })).accepted u (captureWait b) (.capture h)) := by
  intro c h
  let marked := l.setSeq l.seq.marksTaken
  let recorded := l.seq.marksTaken.setPlanCapture h (some { step := u.step, restart := p.restartPoint l.seq.pointer u.station })
  have hbegun := Live.acceptCapture_begun (T := T) (c := c)
    (marks := { repeated := l.seq.repeatMark == some l.seq.pointer, manual := false }) (l := marked) hfree r
  have hrequest := Live.requestCapture_accepted (T := T) (l := marked) (r := r) (c := c)
    (marks := { repeated := l.seq.repeatMark == some l.seq.pointer, manual := false })
    (fun x hx => (congrArg RollerStation.state ((Live.setSeq_still (.refl l) _).roller x)).trans (hready x hx))
  refine ⟨_, hbegun, ?_⟩
  generalize marked.acceptCapture T (holderOf c r) c _ = m at hbegun hrequest
  have hat' : AtUnit T p u (m.setSeq recorded) :=
    ⟨(Live.plan?_of_records hbegun.records).trans hat.plan, (congrArg p.unitAt (Seq.setPlanCapture_pointer _ _ _)).trans hat.unit⟩
  have hanswered := Live.seqAnswered_accepted (T := T) (st := stationOf r) (on := .capture h) hat'
    (Seq.setPlanCapture_plain (q := l.seq.marksTaken) ⟨hplain.prompt, hplain.pause, hplain.again⟩ _ _) (captureWait b)
    (Live.waitSees_capture (h := h) rfl)
  have hsilent : m.noneSilent := Live.noneSilent.of_steer (l := marked) hs hbegun.steer
  rw [Live.takeCapture_eq, hrequest]
  dsimp only
  rw [Live.recordsCapture_accepted, hbegun.seq]
  refine (congrArg (·.startCapture T r c .accepted) hanswered).trans ?_
  exact Live.startCapture_of_noneSilent (hsilent.setSeq (recorded.accepted u (captureWait b) (.capture h))) _ _

end
end Sys2Proof.Machine
end

section
/-! ## The obligation on the requests of the steps (R61, R128, R129, R136; O48) -/

namespace Sys2Proof.Machine
section
variable {T : Tables} {l m : Live} {s : State} {p : Plan} {u : PlanUnit} {r : Roller} {st : Station} {o : Option Station} {w : Bool}
variable {b : List Byte} {a : Answer}

/-! ### Requests that are not accepted (R61, R73, R128) -/

theorem Live.takeStep_spin (hrecord : u.record = .spin o w) (hu : u.station = some (stationOf r)) :
    l.takeStep T p u = l.takeSpin T r w := by
  simp only [Live.takeStep, hrecord, hu, Live.onRoller_roller]

theorem Live.takeStep_release (hrecord : u.record = .release o w) (hu : u.station = some (stationOf r)) :
    l.takeStep T p u = l.takeRelease T r w := by
  simp only [Live.takeStep, hrecord, hu, Live.onRoller_roller]

theorem Live.takeStep_tare (hrecord : u.record = .tare o w) (hu : u.station = some st) : l.takeStep T p u = l.takeTare T st w := by
  simp only [Live.takeStep, hrecord, hu]

theorem Live.takeStep_capture (hrecord : u.record = .capture o b) (hu : u.station = some (stationOf r)) :
    l.takeStep T p u = l.takeCapture T p u r b := by
  simp only [Live.takeStep, hrecord, hu, Live.onRoller_roller]

/-- To the plate station such a request is answered ARG (R73). -/
theorem Live.takeStep_plate (hu : u.station = some .ps)
    (hrecord : (∃ o w, u.record = .spin o w ∨ u.record = .release o w) ∨ ∃ o b, u.record = .capture o b) :
    l.takeStep T p u = l.seqHalt T := by
  rcases hrecord with ⟨o, w, h | h⟩ | ⟨o, b, h⟩ <;> simp only [Live.takeStep, h, hu, Live.onRoller, stationRoller]

theorem Live.takeSpin_unaccepted (hlevel : l.level < 2) (hx : spinAnswer (l.roller r).state = a) (ha : a ≠ .accepted) (w : Bool) :
    l.takeSpin T r w = l.seqAnswered T (stationOf r) (whenSet w (.spin (stationOf r))) a := by
  have hseated : (l.roller r).state ≠ .seated := fun h => ha (by rw [← hx, h]; rfl)
  unfold Live.takeSpin
  rw [Live.requestSpin_of_level hlevel, if_neg hseated, hx]
  exact Live.startWork_of_not_accepted ha _

theorem Live.takeRelease_offline (hx : (l.roller r).state = .offline) (w : Bool) : l.takeRelease T r w = l.seqHalt T := by
  unfold Live.takeRelease
  rw [Live.requestRelease_of_offline hx]
  rfl

theorem Live.takeTare_refused (hx : ¬ l.takesTare T st) (ht : l.stationState st ≠ .taring) (hf : l.stationState st ≠ .faulted)
    (w : Bool) : l.takeTare T st w = l.seqHalt T := by
  unfold Live.takeTare
  rw [Live.requestTare_refused hx ht hf]
  rfl

theorem Live.takeCapture_unaccepted (ha : a ≠ .accepted)
    (hrequest : ∀ marks, (l.setSeq l.seq.marksTaken).requestCapture T r (captureSettings b u.mods.part u.mods.limitRow) marks =
      (a, l.setSeq l.seq.marksTaken)) : l.takeCapture T p u r b = (l.setSeq l.seq.marksTaken).seqAnswered T (stationOf r)
        (whenSet (captureWait b) (.capture (holderOf (captureSettings b u.mods.part u.mods.limitRow) r))) a := by
  have hwork : ∀ x : Live, x.startCapture T r (captureSettings b u.mods.part u.mods.limitRow) a = x := fun x =>
    List.foldl_fixed' (fun _ => Live.startWork_of_not_accepted ha _) _
  rw [Live.takeCapture_eq, hrequest]
  dsimp only
  rw [Live.recordsCapture_unaccepted _ _ ha, hwork]

/-! ### What the refusals leave (R61, R128) -/

/-- The sequencer's items as a step makes its request: a CAPTURE step takes the mark of a repeat. -/
def Seq.asking (q : Seq) (u : PlanUnit) : Seq :=
  { q with
    mods := some u.mods
    repeatMark := match u.record with
      | .capture _ _ => if q.repeatMark = some q.pointer then none else q.repeatMark
      | _ => q.repeatMark }

theorem Live.asking_of_plain (hno : ∀ o b, u.record ≠ .capture o b) : l.setSeq (l.seq.asking u) = l.choose u := by
  unfold Seq.asking
  split
  · exact absurd ‹_› (hno _ _)
  · rfl

theorem Live.asking_of_capture (hrecord : u.record = .capture o b) :
    l.setSeq (l.seq.asking u) = (l.choose u).setSeq (l.choose u).seq.marksTaken := by
  simp only [Seq.asking, hrecord]
  rfl

theorem Live.choose_roller (l : Live) (u : PlanUnit) (r : Roller) : ((l.choose u).roller r).state = l.stationState (stationOf r) := by
  rw [← Live.roller_state]
  exact congrArg RollerStation.state ((Live.setSeq_still (.refl l) _).roller r)

theorem Live.takeStep_spin_busy (hrecord : u.record = .spin o w) (hu : u.station = some (stationOf r)) (hlevel : l.level < 2)
    (hx : l.stationState (stationOf r) ∈ [StationState.settling, .releasing, .taring]) : (l.choose u).takeStep T p u =
      l.setSeq { l.seq.asking u with state := .waiting, wait := some (.busy (stationOf r)) } := by
  rw [Live.takeStep_spin hrecord hu, Live.takeSpin_unaccepted (l := l.choose u) (a := .busy) hlevel
    (spinAnswer_of_busy (by rwa [Live.choose_roller])) (by decide), ← Live.asking_of_plain (by simp [hrecord])]
  rfl

theorem Live.takeStep_spin_refused (hrecord : u.record = .spin o w) (hu : u.station = some (stationOf r)) (hlevel : l.level < 2)
    (hx : l.stationState (stationOf r) ∈ [StationState.idle, .offline]) :
    (l.choose u).takeStep T p u = (l.setSeq (l.seq.asking u)).seqHalt T := by
  rw [Live.takeStep_spin hrecord hu, Live.takeSpin_unaccepted (l := l.choose u) (a := .state) hlevel
    (spinAnswer_of_resting (by rwa [Live.choose_roller])) (by decide), ← Live.asking_of_plain (by simp [hrecord])]
  rfl

theorem Live.takeStep_capture_busy (hrecord : u.record = .capture o b) (hu : u.station = some (stationOf r))
    (hj : (captureSettings b u.mods.part u.mods.limitRow).joint = false) (hx : l.stationState (stationOf r) = .measuring) :
    (l.choose u).takeStep T p u =
      l.setSeq { l.seq.asking u with state := .waiting, wait := some (.busy (stationOf r)) } := by
  have hbusy : ∀ marks, ((l.choose u).setSeq (l.choose u).seq.marksTaken).requestCapture T r
      (captureSettings b u.mods.part u.mods.limitRow) marks = (.busy, (l.choose u).setSeq (l.choose u).seq.marksTaken) :=
    fun _ => Live.requestCapture_measuring hj ((l.choose_roller u r).trans hx)
  rw [Live.takeStep_capture hrecord hu, Live.takeCapture_unaccepted (by decide) hbusy, ← Live.asking_of_capture hrecord]
  rfl

theorem Live.takeStep_capture_refused (hrecord : u.record = .capture o b) (hu : u.station = some (stationOf r))
    (hx : if (captureSettings b u.mods.part u.mods.limitRow).joint then l.ra.state ≠ .ready ∨ l.rb.state ≠ .ready
      else l.stationState (stationOf r) ∉ [StationState.ready, .measuring])
    (hf : l.stationState (stationOf r) ≠ .faulted) :
    (l.choose u).takeStep T p u = (l.setSeq (l.seq.asking u)).seqHalt T := by
  have hrefused : ∀ marks, ((l.choose u).setSeq (l.choose u).seq.marksTaken).requestCapture T r
      (captureSettings b u.mods.part u.mods.limitRow) marks = (.state, (l.choose u).setSeq (l.choose u).seq.marksTaken) := by
    intro marks
    split at hx
    · exact Live.requestCapture_joint_refused ‹_› hx
    · refine Live.requestCapture_refused (Bool.eq_false_iff.2 ‹_›) ?_
      have hstate : (((l.choose u).setSeq (l.choose u).seq.marksTaken).roller r).state = l.stationState (stationOf r) :=
        l.choose_roller u r
      rw [hstate]
      simp only [List.mem_cons, List.not_mem_nil, or_false, not_or] at hx ⊢
      exact ⟨hx.1, hx.2, hf⟩
  rw [Live.takeStep_capture hrecord hu, Live.takeCapture_unaccepted (by decide) hrefused, ← Live.asking_of_capture hrecord]
  rfl

theorem Live.takeStep_release_refused (hrecord : u.record = .release o w) (hu : u.station = some (stationOf r))
    (hx : l.stationState (stationOf r) = .offline) : (l.choose u).takeStep T p u = (l.setSeq (l.seq.asking u)).seqHalt T := by
  rw [Live.takeStep_release hrecord hu, Live.takeRelease_offline ((l.choose_roller u r).trans hx),
    ← Live.asking_of_plain (by simp [hrecord])]

theorem Live.takeStep_tare_refused (hrecord : u.record = .tare o w) (hu : u.station = some st)
    (hx : l.stationState st ∉ [StationState.idle, .taring])
    (hoff : l.stationState st = .offline → l.mode ≠ .service ∨ T.present st = false) (hf : l.stationState st ≠ .faulted) :
    (l.choose u).takeStep T p u = (l.setSeq (l.seq.asking u)).seqHalt T := by
  simp only [List.mem_cons, List.not_mem_nil, or_false, not_or] at hx
  obtain ⟨hidle, htaring⟩ := hx
  have hstate : (l.choose u).stationState st = l.stationState st := (Live.setSeq_still (.refl l) _).stationState st
  have hno : ¬ (l.choose u).takesTare T st := by
    rintro (h | ⟨h, hm, hp⟩)
    · exact hidle (hstate.symm.trans h)
    · rcases hoff (hstate.symm.trans h) with hmode | habsent
      · exact hmode hm
      · cases habsent.symm.trans hp
  rw [Live.takeStep_tare hrecord hu, Live.takeTare_refused hno (by rwa [hstate]) (by rwa [hstate]),
    ← Live.asking_of_plain (by simp [hrecord])]

/-! ### The steps -/

theorem exists_stationOf (h : st ≠ .ps) : ∃ r, st = stationOf r := by
  cases st with
  | ps => exact absurd rfl h
  | ra => exact ⟨.ra, rfl⟩
  | rb => exact ⟨.rb, rfl⟩

/-- The unit of a step with a request to a station that can answer is taken. -/
theorem exec_sequencerTakeUnit_step (hawake : s.awake) (hrun : s.live.seq.state = .running) (hat : AtUnit s.tables p u s.live)
    (hlevel : s.live.level < 2) (hu : u.station = some st) (hx : s.live.stationState st ≠ .faulted)
    (hneeds : u.record.needsStation = false)
    (hskip : (∃ o b, u.record = .capture o b) → s.live.seq.armedSkip ≠ some s.live.seq.pointer)
    (hm : (s.live.choose u).takeStep s.tables p u = m) : exec .sequencerTakeUnit s = .next (s.withLive m) := by
  have hx' : (s.live.choose u).stationState st ≠ .faulted := fun h =>
    hx (((Live.setSeq_still (.refl _) _).stationState st).symm.trans h)
  rw [exec_sequencerTakeUnit hawake hrun, Live.takeUnit_at hat hlevel, Live.judgeUnit_takes hu hx' hneeds hskip, hm]

/-- Settles O48: an accepted request of each kind, the refusals by the answer, and the waits that a state ends. -/
theorem sequencerMakesTheStepsRequest : Obligations.SequencerMakesTheStepsRequest := by
  refine ⟨fun s p u hawake => ?_, fun T l st x w => ?_⟩
  · intro q hrun hplan hunit hlevel hprompt hpause hagain chosen after goes
    have hat : AtUnit s.tables p u s.live := ⟨hplan, hunit⟩
    have hat' : AtUnit s.tables p u (s.live.choose u) := hat.setSeq rfl
    have hplain : (s.live.choose u).seq.Plain := ⟨hprompt, hpause, hagain⟩
    have hfree : (s.live.choose u).seqFree :=
      ⟨fun h => absurd (hrun.symm.trans h) (by decide), fun h => absurd (hrun.symm.trans h) (by decide)⟩
    have hstill : Still s.live (s.live.choose u) := Live.setSeq_still (.refl _) _
    have hgoes := fun {st : Station} {m : Live} => exec_sequencerTakeUnit_step (st := st) (m := m) hawake hrun hat hlevel
    have hafter : ∀ w on, (s.live.choose u).seq.accepted u w on = after chosen w on := fun w on => by cases w <;> rfl
    have hafterCapture : ∀ x k w on, ((s.live.choose u).seq.marksTaken.setPlanCapture x k).accepted u w on =
        after (Seq.setPlanCapture x k { chosen with repeatMark := if q.repeatMark = some q.pointer then none else q.repeatMark })
          w on := fun x k w on => by cases x <;> cases w <;> rfl
    refine ⟨fun o r w hrecord hu hx hs => ?_, fun o r w hrecord hu hx => ?_, fun o st w hrecord hu hx hchannels hs => ?_,
      fun o r b hrecord hu hskip hs => ?_, fun st hu hx hskip => ?_⟩
    · have haccepted := Live.takeSpin_accepted (r := r) hat' hplain hfree hlevel (by rw [hstill.roller]; exact hx) hs w
      obtain ⟨hquiet, honly, hdrive, hentered⟩ := ((Live.acceptSpin_moved (T := s.tables) (r := r) hfree false).of_setSeq).setSeq
        ((s.live.choose u).seq.accepted u w (.spin (stationOf r)))
      exact ⟨_, hgoes hu (by rw [← Live.roller_state, hx]; decide) (by rw [hrecord]; rfl)
        (fun ⟨_, _, h⟩ => by cases (hrecord.symm.trans h)) ((Live.takeStep_spin hrecord hu).trans haccepted),
        hquiet, honly, hdrive, hentered, hafter w _⟩
    · have haccepted := Live.takeRelease_accepted (r := r) hat' hplain hfree (by rw [hstill.roller]; exact hx) w
      obtain ⟨hquiet, honly, hdrive, hentered⟩ := ((Live.enterReleasing_moved (T := s.tables) (r := r) hfree).of_setSeq).setSeq
        ((s.live.choose u).seq.accepted u w (.release (stationOf r)))
      exact ⟨_, hgoes hu (by rw [← Live.roller_state]; rcases hx with h | h <;> rw [h] <;> decide) (by rw [hrecord]; rfl)
        (fun ⟨_, _, h⟩ => by cases (hrecord.symm.trans h)) ((Live.takeStep_release hrecord hu).trans haccepted),
        hquiet, honly, hdrive, hentered, hafter w _⟩
    · have haccepted := Live.takeTare_accepted hat' hplain hfree ((hstill.stationState st).trans hx) hchannels hs w
      have hfinal : Still ((s.live.choose u).tareBegins s.tables st)
          (((s.live.choose u).tareBegins s.tables st).setSeq ((s.live.choose u).seq.accepted u w (.tare st))) :=
        Live.setSeq_still (.refl _) _
      refine ⟨_, hgoes hu (by rw [hx]; decide) (by rw [hrecord]; rfl) (fun ⟨_, _, h⟩ => by cases (hrecord.symm.trans h))
        ((Live.takeStep_tare hrecord hu).trans haccepted), ?_, ?_, fun y hy => ?_, ?_, hafter w _⟩
      · exact Live.setSeq_quiet ((Live.setSeq_quiet (.refl s.live) _).trans (Live.tareBegins_quiet (s.live.choose u) st)) _
      · rw [hfinal.stationState, Live.tareBegins_stationState, if_pos rfl]
      · rw [hfinal.stationState, Live.tareBegins_stationState, if_neg hy, hstill.stationState]
      · rw [hfinal.tare, Live.tareBegins_tare, hstill.tare]
        rfl
    · intro c h hready
      obtain ⟨m, hbegun, htaken⟩ := Live.takeCapture_accepted (l := s.live.choose u) (r := r) (b := b) hat' hplain hfree hs
        (fun x hx => by rw [hstill.roller]; exact hready x hx)
      have hmem : r ∈ (if c.joint then [Roller.ra, .rb] else [r]) := by
        split <;> cases r <;> simp
      have hmarked : Still s.live ((s.live.choose u).setSeq (s.live.choose u).seq.marksTaken) := ⟨rfl, rfl, rfl⟩
      obtain ⟨hstations, hcapture, horder, -, -, -⟩ := hbegun
      refine ⟨_, _, hgoes hu (by rw [← Live.roller_state, hready r hmem]; decide) (by rw [hrecord]; rfl) (fun _ => hskip)
        ((Live.takeStep_capture hrecord hu).trans htaken), fun x => ?_, ?_, horder, rfl, ?_⟩
      · rw [(Live.setSeq_still (.refl m) _).stationState, hstations, hmarked.stationState]
        rfl
      · rw [(Live.setSeq_still (.refl m) _).roller]
        exact hcapture
      · exact hafterCapture _ _ _ _
    · intro y joint busy refused marks mine
      have hstep : ∀ {m}, u.record.needsStation = false → (s.live.choose u).takeStep s.tables p u = m → goes m :=
        fun hneeds hm => hgoes hu hx hneeds (fun _ => hskip) hm
      have hhalt : (s.live.setSeq (q.asking u)).seqHalt s.tables =
          Live.event .stepHalted (some st) (s.live.boundOrZero st) u.step
            { s.live with seq := { mine with state := .halted, held := none, wait := none, awaitTimer := none } } := by
        rw [Live.seqHalt_at (hat.setSeq (q := q.asking u) rfl), hu]
        rfl
      refine ⟨fun hps hbusy => ?_, fun hst hrefused => ?_, fun hps hrecord => ?_⟩
      · obtain ⟨r, rfl⟩ := exists_stationOf hps
        rcases hbusy with ⟨⟨o, w, hrecord⟩, hy⟩ | ⟨o, b, hrecord, hj, hy⟩
        · exact hstep (by rw [hrecord]; rfl) (Live.takeStep_spin_busy hrecord hu hlevel hy)
        · exact hstep (by rw [hrecord]; rfl) (Live.takeStep_capture_busy hrecord hu hj hy)
      · have hroller : (∀ o w, u.record ≠ .tare o w) → ∃ r, st = stationOf r := fun hno =>
          exists_stationOf (hst.resolve_right fun ⟨o, w, htare⟩ => hno o w htare)
        rcases hrefused with ⟨⟨o, w, hrecord⟩, hy⟩ | ⟨o, b, hrecord, hy⟩ | ⟨⟨o, w, hrecord⟩, hy⟩ |
          ⟨⟨o, w, hrecord⟩, hy, hoff⟩
        · obtain ⟨r, rfl⟩ := hroller (by simp [hrecord])
          exact hstep (by rw [hrecord]; rfl) ((Live.takeStep_spin_refused hrecord hu hlevel hy).trans hhalt)
        · obtain ⟨r, rfl⟩ := hroller (by simp [hrecord])
          exact hstep (by rw [hrecord]; rfl) ((Live.takeStep_capture_refused hrecord hu hy hx).trans hhalt)
        · obtain ⟨r, rfl⟩ := hroller (by simp [hrecord])
          exact hstep (by rw [hrecord]; rfl) ((Live.takeStep_release_refused hrecord hu hy).trans hhalt)
        · exact hstep (by rw [hrecord]; rfl) ((Live.takeStep_tare_refused hrecord hu hy hoff hx).trans hhalt)
      · subst hps
        refine hstep (by rcases hrecord with ⟨o, w, h | h⟩ | ⟨o, b, h⟩ <;> rw [h] <;> rfl)
          ((Live.takeStep_plate hu hrecord).trans ?_)
        rw [Live.seqHalt_at hat', hu]
        rfl
  · intro held rests
    refine ⟨rfl, fun hwaiting hwait => ?_⟩
    have hseq : (l.putState st x).seq = l.seq := Live.putState_seq _ _ _
    simp only [Live.enter, Live.seqSees, hseq, hwaiting, Live.waitSees, hwait, if_true, Live.seqRest]
    rfl

end
end Sys2Proof.Machine
end

section
/-! ## A capture that is ended whole: CAPTURE_TIMEOUT and the remote's buttons (R83 to R89, R130, R137 to R140; O18, O19, O54) -/

namespace Sys2Proof.Machine

section
variable {T : Tables} {l m : Live} {s : State} {h r : Roller} {c : Capture} {reason : EndReason}

/-! ### The end of a capture, and the READY stations judged after it (R49, R87) -/

/-- While no channel is silent, the stations that become READY at the end of a capture raise nothing. -/
theorem Live.endCapture_judgeReady (hs : l.noneSilent) (h : Roller) (reason : EndReason) (how : Roller → Leaving) :
    (l.endCapture T h reason how).judgeReady T = l.endCapture T h reason how :=
  Live.judgeReady_of_noneSilent (hs.of_steer (Live.endCapture_quiet (.refl l) h reason how).steer)

/-- A capture ends normally: its stations leave as the reason and auto-release ask (R85, R87, R92). -/
theorem Live.endCapture_ended (hc : (l.roller h).capture = some c) (hn : reason.normal = true) :
    CaptureEnded T h c reason l (l.endCapture T h reason fun _ => normalLeaving c.settings reason) := by
  refine Live.endCapture_over hc (fun _ _ => normalLeaving_state _ _) fun q a => ?_
  rw [Live.endPart, if_pos hn]
  cases q <;> rfl

/-- A capture is skipped: its stations leave as at a normal end, and it writes nothing (R88, R92, R140). -/
theorem Live.endCapture_skipped (hc : (l.roller h).capture = some c) :
    CaptureAborted h c .skip (if c.settings.autoRelease then .releasing else .ready) l
      (l.endCapture T h .skip fun _ => normalLeaving c.settings .skip) := by
  refine Live.endCapture_over hc (fun _ _ => ?_) fun q a => ?_
  · rw [normalLeaving_state]
    simp
  · rw [Live.endPart, if_neg (by decide), interruptPart_eq]

/-! ### CAPTURE_TIMEOUT (R83) -/

theorem exec_captureTimeout_of_due (hawake : s.awake) (hdue : s.live.captureDue r = some c) :
    exec (.captureTimeout r) s = .next (s.withLive
      ((s.live.endCapture s.tables r .timeout fun _ => normalLeaving c.settings .timeout).judgeReady s.tables)) :=
  (congrArg Host.Outcome.next (State.onLive_awake _ hawake)).trans (by rw [hdue])

theorem exec_captureTimeout_of_not_due (hawake : s.awake) (hdue : s.live.captureDue r = none) :
    exec (.captureTimeout r) s = .next s :=
  (congrArg Host.Outcome.next (State.onLive_awake _ hawake)).trans (by rw [hdue, State.withLive_self])

theorem Live.captureDue_of_none (hc : (l.roller r).capture = none) : l.captureDue r = none := by
  rw [Live.captureDue, hc, Option.filter_none]

theorem Live.captureDue_of_early (hc : (l.roller r).capture = some c) (ht : c.timer < 30000) : l.captureDue r = none := by
  rw [Live.captureDue, hc, Option.filter_some, if_neg (by rw [decide_eq_true_eq]; exact Nat.not_le.2 ht)]

theorem Live.captureDue_of_reached (hc : (l.roller r).capture = some c) (ht : 30000 ≤ c.timer) : l.captureDue r = some c := by
  rw [Live.captureDue, hc, Option.filter_some, if_pos (decide_eq_true (show Config.captureLimit ≤ c.timer from ht))]

/-- Settles O54: a capture by whether its timer has reached the limit, and then the end of a capture with TIMEOUT. -/
theorem captureTimeoutEndsTheCapture : Obligations.CaptureTimeoutEndsTheCapture := by
  intro s r hawake x
  refine ⟨fun hnone => exec_captureTimeout_of_not_due hawake (Live.captureDue_of_none hnone), fun c hc =>
    ⟨fun ht => exec_captureTimeout_of_not_due hawake (Live.captureDue_of_early hc ht), fun ht hs => ?_⟩⟩
  rw [exec_captureTimeout_of_due hawake (Live.captureDue_of_reached hc ht), Live.endCapture_judgeReady hs]
  exact ⟨_, rfl, Live.endCapture_ended hc rfl⟩

/-! ### A button of the remote (R8, R137) -/

/-- A BUTTON frame of the remote reaches the sequencer with its code. -/
theorem Live.takeDown_button {src : Byte} (code : Byte) (hr : T.isRemote src.toNat = true) :
    l.takeDown (headFrame src kindButton [code]) T = l.button T code.toNat := by
  have hgood : frameBad .down (headFrame src kindButton [code]) = false := Laws.GoodFrames.button_good src code
  have hdest : (headFrame src kindButton [code]).dest = 0 := rfl
  have hkind : (headFrame src kindButton [code]).kind = kindButton := rfl
  have hsrc : (headFrame src kindButton [code]).src = src := rfl
  have hsample : ¬ kindButton = kindSample := by decide
  have hstatus : ¬ kindButton = kindHeadStatus := by decide
  simp only [Live.takeDown, hgood, if_pos hdest, hkind, if_neg hsample, if_neg hstatus, hsrc, hr, Bool.false_eq_true, if_false,
    if_true]
  rfl

section
variable {src : Byte}

theorem exec_button {i : Instr} {code : Byte} (hawake : s.awake) (hr : s.tables.isRemote src.toNat = true)
    (hexec : exec i s = .next (s.onLive (Live.takeDown (headFrame src kindButton [code])))) :
    exec i s = .next (s.withLive (s.live.button s.tables code.toNat)) := by
  rw [hexec, State.onLive_awake _ hawake, Live.takeDown_button code hr]

theorem exec_buttonConfirm (hawake : s.awake) (hr : s.tables.isRemote src.toNat = true) :
    exec (.buttonConfirm src) s = .next (s.withLive (s.live.takeConfirm s.tables)) :=
  exec_button (code := byte buttonConfirmCode) hawake hr rfl

theorem exec_buttonRepeat (hawake : s.awake) (hr : s.tables.isRemote src.toNat = true) :
    exec (.buttonRepeat src) s = .next (s.withLive (s.live.takeRepeat s.tables)) :=
  exec_button (code := byte buttonRepeatCode) hawake hr rfl

theorem exec_buttonSkip (hawake : s.awake) (hr : s.tables.isRemote src.toNat = true) :
    exec (.buttonSkip src) s = .next (s.withLive (s.live.takeSkip s.tables)) :=
  exec_button (code := byte buttonSkipCode) hawake hr rfl

theorem exec_buttonUnknown {code : Byte} (hawake : s.awake) (hr : s.tables.isRemote src.toNat = true)
    (hcode : noButton code = true) :
    exec (.buttonUnknown src code) s = .next (s.withLive (s.live.buttonIgnored code.toNat)) := by
  rw [exec_button hawake hr rfl]
  have hge : 4 ≤ code.toNat := of_decide_eq_true hcode
  have hnot : ∀ n, n < 4 → ¬ code.toNat = n := fun n hn he => by omega
  rw [Live.button, if_neg (hnot _ (by decide)), if_neg (hnot _ (by decide)), if_neg (hnot _ (by decide)),
    if_neg (hnot _ (by decide))]

end

/-! ### CONFIRM (R84, R130, R138) -/

theorem Live.operatorCapture?_of_some (hc : (l.roller r).capture = some c) (ho : c.settings.operator = true) :
    l.operatorCapture? r = some (c.startOrder, r, c) := by
  simp only [Live.operatorCapture?, hc, ho, if_true]

/-- A capture that CONFIRM may end is one in progress that holds OPERATOR. -/
theorem Live.of_operatorCapture? {x : Nat × Roller × Capture} (hx : l.operatorCapture? r = some x) :
    ∃ k, (l.roller r).capture = some k ∧ k.settings.operator = true ∧ x = (k.startOrder, r, k) := by
  unfold Live.operatorCapture? at hx
  split at hx
  · next k hk =>
    split at hx
    · next ho => exact ⟨k, hk, ho, (Option.some.inj hx).symm⟩
    · cases hx
  · cases hx

/-- CONFIRM ends the operator capture that started last (R84). -/
theorem Live.latestOperatorCapture_of_greatest (hc : (l.roller h).capture = some c) (ho : c.settings.operator = true)
    (hlast : ∀ q k, q ≠ h → (l.roller q).capture = some k → k.settings.operator = true → k.startOrder < c.startOrder) :
    l.latestOperatorCapture = some (h, c) := by
  have hown := Live.operatorCapture?_of_some hc ho
  cases h with
  | ra =>
    cases hother : l.operatorCapture? .rb with
    | none => simp only [Live.latestOperatorCapture, hown, hother]
    | some x =>
      obtain ⟨k, hk, hko, rfl⟩ := Live.of_operatorCapture? hother
      have hlt := hlast .rb k (by decide) hk hko
      simp only [Live.latestOperatorCapture, hown, hother, if_neg (show ¬ c.startOrder < k.startOrder by omega)]
  | rb =>
    cases hother : l.operatorCapture? .ra with
    | none => simp only [Live.latestOperatorCapture, hown, hother]
    | some x =>
      obtain ⟨k, hk, hko, rfl⟩ := Live.of_operatorCapture? hother
      have hlt := hlast .ra k (by decide) hk hko
      simp only [Live.latestOperatorCapture, hown, hother, if_pos hlt]

theorem Live.takeConfirm_of_capture (hc : l.latestOperatorCapture = some (h, c)) : l.takeConfirm T =
    (l.endCapture T h .operator fun _ => normalLeaving c.settings .operator).judgeReady T := by
  simp only [Live.takeConfirm, hc]

theorem Live.takeConfirm_of_none (hc : l.latestOperatorCapture = none) : l.takeConfirm T =
    if l.seq.awaitsConfirm then l.stepDone T else l.buttonIgnored buttonConfirmCode := by
  simp only [Live.takeConfirm, hc]

theorem Seq.awaitsConfirm_of_wait {q : Seq} {st : Station} {timeout : Nat} {halt : Bool} (hstate : q.state = .waiting)
    (hwait : q.wait = some (.await .confirm st timeout halt)) : q.awaitsConfirm = true := by
  simp [Seq.awaitsConfirm, hstate, hwait]

/-- The unit that the sequencer stands at, with the plan that it is of. -/
theorem Live.atUnit_of_currentUnit {u : PlanUnit} (hu : l.currentUnit T = some u) : ∃ p, AtUnit T p u l := by
  obtain ⟨p, hp, hunit⟩ := Option.bind_eq_some_iff.1 hu
  exact ⟨p, hp, hunit⟩

/-- The states in which the sequencer takes REPEAT and SKIP (R139, R140). -/
theorem SeqState.takesButtons_iff {x : SeqState} :
    x.takesButtons = true ↔ x ∈ [SeqState.running, .waiting, .halted] := by
  cases x <;> decide

/-- Settles O18: the buttons that nothing takes, and CONFIRM by whether an operator capture is in progress. -/
theorem confirmIsTakenOrIgnored : Obligations.ConfirmIsTakenOrIgnored := by
  refine ⟨fun s src hawake _ hremote => ?_,
    fun s src st timeout halt u hawake _ hremote hnone hstate hwait hu hprompt hpause hagain => ?_,
    fun s src h c hawake _ hremote hs hc ho hlast => ?_⟩
  · refine ⟨fun code hcode => exec_buttonUnknown hawake hremote hcode, fun hnone hwait => ?_, fun hout => ?_, fun hout => ?_⟩
    · rw [exec_buttonConfirm hawake hremote, Live.takeConfirm_of_none hnone, if_neg (by simp [hwait])]
      rfl
    · rw [exec_buttonRepeat hawake hremote, Live.takeRepeat, if_neg (mt SeqState.takesButtons_iff.1 hout)]
      rfl
    · rw [exec_buttonSkip hawake hremote, Live.takeSkip, if_neg (mt SeqState.takesButtons_iff.1 hout)]
      rfl
  · obtain ⟨p, hat⟩ := Live.atUnit_of_currentUnit hu
    rw [exec_buttonConfirm hawake hremote, Live.takeConfirm_of_none hnone, if_pos (Seq.awaitsConfirm_of_wait hstate hwait),
      Live.stepDone_plain hat ⟨hprompt, hpause, hagain⟩]
    rfl
  · rw [exec_buttonConfirm hawake hremote,
      Live.takeConfirm_of_capture (Live.latestOperatorCapture_of_greatest hc ho hlast), Live.endCapture_judgeReady hs]
    exact ⟨_, rfl, Live.endCapture_ended hc rfl⟩

/-! ### REPEAT (R139) -/

theorem Live.takeRepeat_of_taken (hb : l.seq.state.takesButtons = true) : l.takeRepeat T =
    if l.seq.inside then
      if l.seq.pendingRepeat then l.buttonIgnored buttonRepeatCode else l.setSeq { l.seq with pendingRepeat := true }
    else l.actRepeat T :=
  if_pos hb

theorem Live.takeRepeat_of_outside (hb : l.seq.state.takesButtons = true) (hin : l.seq.inside = false) :
    l.takeRepeat T = l.actRepeat T := by
  rw [Live.takeRepeat_of_taken hb, if_neg (by simp [hin])]

section
variable {k : LastCapture} {p : Plan} {a : AxleRecord}

/-- The last normal capture, whose axle is still bound to its station, so that REPEAT may repeat it (R139). -/
structure Live.Repeats (T : Tables) (l : Live) (k : LastCapture) (p : Plan) (a : AxleRecord) : Prop where
  last : l.seq.last = some k
  plan : l.plan? T = some p
  bound : k.axle ≠ 0 ∧ l.bound (stationOf k.roller) = some k.axle
  axle : l.axle? k.axle = some a

theorem Live.Repeats.fits (hr : l.Repeats T k p a) : ¬ (k.axle = 0 ∨ l.bound (stationOf k.roller) ≠ some k.axle) :=
  not_or.2 ⟨hr.bound.1, not_not.2 hr.bound.2⟩

/-- A repeat sends the sequencer back to the restart point, and the capture's unit is marked. -/
theorem Live.actRepeat_of_repeats (hr : l.Repeats T k p a) (hrep : (a.brake k.part).repeats ≠ 3) : l.actRepeat T = l.setSeq
    { l.seq with
      state := .running, pointer := k.restart, mods := none, wait := none, awaitTimer := none, armedSkip := none,
      repeatMark := some (unitStartOf p.used k.step) } := by
  simp only [Live.actRepeat, hr.last, hr.plan, if_neg hr.fits, hr.axle, Option.map_some, Option.some.injEq, if_neg hrep]

/-- The third repeat is the last one: the prompt of no more repeats, where there is one. -/
theorem Live.actRepeat_of_prompt (hr : l.Repeats T k p a) (hrep : (a.brake k.part).repeats = 3) {n : Nat}
    (hn : T.settings.noMoreRepeats = some n) : l.actRepeat T = l.postPrompt T n .step false [] := by
  simp only [Live.actRepeat, hr.last, hr.plan, if_neg hr.fits, hr.axle, Option.map_some, hrep, if_true, hn]

theorem Live.actRepeat_of_no_prompt (hr : l.Repeats T k p a) (hrep : (a.brake k.part).repeats = 3)
    (hn : T.settings.noMoreRepeats = none) : l.actRepeat T = l := by
  simp only [Live.actRepeat, hr.last, hr.plan, if_neg hr.fits, hr.axle, Option.map_some, hrep, if_true, hn]

/-- There is no capture to repeat (R139). -/
theorem Live.actRepeat_of_none
    (hno : ∀ k, l.seq.last = some k → k.axle = 0 ∨ l.bound (stationOf k.roller) ≠ some k.axle) :
    l.actRepeat T = l.buttonIgnored buttonRepeatCode := by
  unfold Live.actRepeat
  split
  · next k _ hk _ => exact if_pos (hno k hk)
  · rfl

end

/-! ### SKIP (R88, R140) -/

theorem Live.takeSkip_of_elsewhere (hb : l.seq.state.takesButtons = true) (hno : ∀ r, l.seq.wait ≠ some (.capture r)) :
    l.takeSkip T = l.armSkip T := by
  rw [Live.takeSkip, if_pos hb]
  split
  · next r _ hr => exact absurd hr (hno r)
  · rfl

theorem Live.takeSkip_of_waiting (hstate : l.seq.state = .waiting) (hwait : l.seq.wait = some (.capture r))
    (hc : (l.roller r).capture = some c) :
    l.takeSkip T = (l.endCapture T r .skip fun _ => normalLeaving c.settings .skip).judgeReady T := by
  have hb : l.seq.state.takesButtons = true := by rw [hstate]; rfl
  rw [Live.takeSkip, if_pos hb, hstate, hwait]
  simp only [Live.skipCurrent, hc]

theorem Live.armSkip_of_next {p : Plan} (hp : l.plan? T = some p) {i : Nat} (hi : p.nextCapture l.seq.pointer = some i) :
    l.armSkip T = l.setSeq { l.seq with armedSkip := some (unitStartOf p.used i) } := by
  simp only [Live.armSkip, hp, hi]

theorem Live.armSkip_of_none {p : Plan} (hp : l.plan? T = some p) (hi : p.nextCapture l.seq.pointer = none) :
    l.armSkip T = l.buttonIgnored buttonSkipCode := by
  simp only [Live.armSkip, hp, hi]

/-! ### The sequencer waits on the capture that ends (R129, R136) -/

/-- The sequencer waits on a capture, so that no station's state moves it. -/
def Live.onCapture (l : Live) : Prop := l.seq.state = .waiting ∧ ∃ r, l.seq.wait = some (.capture r)

theorem Live.onCapture.of_seq (hl : l.onCapture) (hm : m.seq = l.seq) : m.onCapture := by
  unfold Live.onCapture
  rw [hm]
  exact hl

theorem Live.enter_seq_of_onCapture (hl : l.onCapture) (st : Station) (x : StationState) : (l.enter T st x).seq = l.seq := by
  have hseq : (l.putState st x).seq = l.seq := l.putState_seq st x
  obtain ⟨hstate, r, hwait⟩ := hl.of_seq hseq
  rw [Live.enter, Live.seqSees, hstate]
  exact (congrArg Live.seq (Live.waitSees_capture hwait)).trans hseq

theorem Live.captureLeave_seq_of_onCapture (hl : l.onCapture) (how : Leaving) : (l.captureLeave T how r).seq = l.seq := by
  have hdrive : (l.offerDrive T r false).seq = l.seq := Live.offerDrive_seq _ _
  have hset : ∀ {m : Live} (x : RollerStation) (y : StationState), m.seq = l.seq →
      ((m.setRoller r x).enter T (stationOf r) y).seq = l.seq := fun x y hm => by
    have hseq := (Live.setRoller_seq _ r x).trans hm
    exact (Live.enter_seq_of_onCapture (hl.of_seq hseq) _ _).trans hseq
  cases how with
  | ready => exact hset _ _ rfl
  | releasing => exact hset _ _ hdrive
  | faulted => exact hset _ _ hdrive

theorem Live.captureLeaves_seq_of_onCapture (how : Roller → Leaving) : ∀ (rs : List Roller) {l : Live}, l.onCapture →
    (rs.foldl (fun x q => x.captureLeave T (how q) q) l).seq = l.seq
  | [], _, _ => rfl
  | q :: rs, _, hl => by
    have hone := Live.captureLeave_seq_of_onCapture (T := T) (r := q) hl (how q)
    exact (Live.captureLeaves_seq_of_onCapture how rs (hl.of_seq hone)).trans hone

theorem Live.captureStop_seq_of_onCapture (hl : l.onCapture) (how : Roller → Leaving) :
    (l.captureStop T h c reason how).seq = l.seq := by
  have hwritten : ((captureStations h c).foldl (fun x r => x.captureWrite T h c reason r) (l.endsWith h c reason)).seq = l.seq :=
    (foldl_field (field := Live.seq) (fun x r => Live.captureWrite_seq _ _ _ _) _ _).trans (Live.setRoller_seq _ _ _)
  exact (foldl_field (field := Live.seq) (fun x r => Live.captureEvent_seq) _ _).trans
    ((Live.captureLeaves_seq_of_onCapture how _ (hl.of_seq hwritten)).trans hwritten)

/-- The plan capture that the sequencer waits on is skipped: the step ends (R129, R140). -/
theorem Live.captureReport_seq_of_skip {p : Plan} {u : PlanUnit} {on : PlanCapture} (hat : AtUnit T p u l)
    (hplain : l.seq.Plain) (hstate : l.seq.state = .waiting) (hwait : l.seq.wait = some (.capture h))
    (hplan : l.seq.planCapture h = some on) (axle : Nat) :
    (l.captureReport T h c .skip axle).seq = (Seq.setPlanCapture h none l.seq).stepped u := by
  let ended := l.setSeq (Seq.setPlanCapture h none l.seq)
  have hwaits : ended.waitsOnCapture h = true := by
    simp [ended, Live.waitsOnCapture, Live.setSeq, hstate, hwait]
  have hsaid : l.seqCaptureEnd T h c .skip axle = ended.stepDone T := by
    simp only [Live.seqCaptureEnd, hplan]
    exact if_pos hwaits
  have hended : AtUnit T p u ended := hat.setSeq (Seq.setPlanCapture_pointer _ _ _)
  rw [Live.captureReport, hsaid, Live.stepDone_plain hended (Seq.setPlanCapture_plain hplain h none)]
  exact Live.setRoller_seq _ _ _

theorem Live.endCapture_seq_of_skip {p : Plan} {u : PlanUnit} {on : PlanCapture} (hat : AtUnit T p u l)
    (hplain : l.seq.Plain) (hstate : l.seq.state = .waiting) (hwait : l.seq.wait = some (.capture h))
    (hc : (l.roller h).capture = some c) (hplan : l.seq.planCapture h = some on) (how : Roller → Leaving) :
    (l.endCapture T h .skip how).seq = (Seq.setPlanCapture h none l.seq).stepped u := by
  have hend : l.endCapture T h .skip how =
      (l.captureStop T h c .skip how).captureReport T h c .skip (l.boundOrZero (stationOf h)) := by
    simp only [Live.endCapture, hc]
  have hseq := Live.captureStop_seq_of_onCapture (T := T) (h := h) (c := c) (reason := .skip) ⟨hstate, h, hwait⟩ how
  have hstopped : AtUnit T p u (l.captureStop T h c .skip how) :=
    hat.quiet (Live.captureStop_quiet (.refl l) _ _ _ _) (congrArg Seq.pointer hseq)
  rw [hend, Live.captureReport_seq_of_skip hstopped (hseq ▸ hplain) (hseq ▸ hstate) (hseq ▸ hwait) (hseq ▸ hplan), hseq]

/-- Settles O19: REPEAT by whether the sequencer is inside a unit and what it last captured, SKIP by whether it waits on a
capture. -/
theorem repeatAndSkipMoveThePlan : Obligations.RepeatAndSkipMoveThePlan := by
  refine ⟨fun s src c p a hawake _ hremote htakes => ?_, fun s src p hawake _ hremote htakes hno hp => ?_,
    fun s src r k on u hawake _ hremote hs => ?_⟩
  · have hb := SeqState.takesButtons_iff.2 htakes
    have hinside : s.live.seq.inside = true → exec (.buttonRepeat src) s = .next (s.withLive
        (if s.live.seq.pendingRepeat then s.live.buttonIgnored buttonRepeatCode
          else s.live.setSeq { s.live.seq with pendingRepeat := true })) := fun hin => by
      rw [exec_buttonRepeat hawake hremote, Live.takeRepeat_of_taken hb, if_pos hin]
    have houtside : s.live.seq.inside = false →
        exec (.buttonRepeat src) s = .next (s.withLive (s.live.actRepeat s.tables)) := fun hin => by
      rw [exec_buttonRepeat hawake hremote, Live.takeRepeat_of_outside hb hin]
    refine ⟨fun hin hnone => ?_, fun hin hsome => ?_, fun hin hlast hp haxle hbound ha hrep => ?_,
      fun hin hlast hp haxle hbound ha hrep => ⟨fun hnone => ?_, fun n hn => ?_⟩, fun hin hnone => ?_⟩
    · rw [hinside hin, if_neg (by simp [hnone])]
      rfl
    · rw [hinside hin, if_pos hsome]
      rfl
    · rw [houtside hin, Live.actRepeat_of_repeats ⟨hlast, hp, ⟨haxle, hbound⟩, ha⟩ hrep]
      rfl
    · rw [houtside hin, Live.actRepeat_of_no_prompt ⟨hlast, hp, ⟨haxle, hbound⟩, ha⟩ hrep hnone,
        State.withLive_self]
    · rw [houtside hin, Live.actRepeat_of_prompt ⟨hlast, hp, ⟨haxle, hbound⟩, ha⟩ hrep hn]
      have hshows := s.live.postPrompt_shows (T := s.tables) n .step false []
      exact ⟨_, rfl, hshows.still, Live.postPrompt_quiet (.refl _) _ _ _ _, hshows.seq, rfl⟩
    · rw [houtside hin, Live.actRepeat_of_none hnone]
      rfl
  · have hexec : exec (.buttonSkip src) s = .next (s.withLive (s.live.armSkip s.tables)) := by
      rw [exec_buttonSkip hawake hremote, Live.takeSkip_of_elsewhere (SeqState.takesButtons_iff.2 htakes) hno]
    refine ⟨fun i hi => ?_, fun hnone => ?_⟩
    · rw [hexec, Live.armSkip_of_next hp hi]
      rfl
    · rw [hexec, Live.armSkip_of_none hp hnone]
      rfl
  · intro q hstate hwait hk hplan hu hprompt hpause hagain
    obtain ⟨p, hat⟩ := Live.atUnit_of_currentUnit hu
    rw [exec_buttonSkip hawake hremote, Live.takeSkip_of_waiting hstate hwait hk, Live.endCapture_judgeReady hs]
    exact ⟨_, rfl, Live.endCapture_skipped hk,
      Live.endCapture_seq_of_skip hat ⟨hprompt, hpause, hagain⟩ hstate hwait hk hplan _⟩

end
end Sys2Proof.Machine
end

section
/-! ## Writes to the OPEN record (R113, R114)

`OpenChanged f old l`: the slots of `l` are those of `old` but for the OPEN record, which `f` has changed. -/

namespace Sys2Proof.Machine

section
variable {T : Tables} {old l m : Live} {f g : VehicleRecord → VehicleRecord}

/-- Each axle of a vehicle record changed. -/
def VehicleRecord.mapAxles (f : AxleRecord → AxleRecord) (r : VehicleRecord) : VehicleRecord :=
  { r with axles := r.axles.map f }

theorem VehicleRecord.mapAxles_id (r : VehicleRecord) : r.mapAxles id = r := by
  rw [VehicleRecord.mapAxles, List.map_id]

theorem VehicleRecord.mapAxles_mapAxles (f g : AxleRecord → AxleRecord) (r : VehicleRecord) :
    (r.mapAxles f).mapAxles g = r.mapAxles fun a => g (f a) := by
  simp only [VehicleRecord.mapAxles, List.map_map]
  rfl

/-- An axle is read as it was changed, where the change keeps the indices. -/
theorem VehicleRecord.axle?_mapAxles (r : VehicleRecord) {f : AxleRecord → AxleRecord} (hf : ∀ a, (f a).index = a.index)
    (k : Nat) : (r.mapAxles f).axle? k = (r.axle? k).map f := by
  have hindex : ((fun a : AxleRecord => a.index == k) ∘ f) = fun a => a.index == k := funext fun a => by
    rw [Function.comp_apply, hf]
  simp only [VehicleRecord.axle?, VehicleRecord.mapAxles, List.find?_map, hindex]

/-- The OPEN record has been changed by `f`, and no other slot. -/
structure OpenChanged (f : VehicleRecord → VehicleRecord) (old l : Live) : Prop where
  slot : l.openSlot = old.openSlot
  record : l.openRecord = old.openRecord.map f
  others : ∀ j, old.openSlot ≠ some j → l.records.slots.get j = old.records.slots.get j

theorem OpenChanged.of_slots (h : l.records.slots = old.records.slots) : OpenChanged id old l :=
  ⟨by simp only [Live.openSlot, h], by rw [Live.openRecord_of_slots h, Option.map_id, id], fun j _ => by rw [h]⟩

theorem OpenChanged.trans (h : OpenChanged f old l) (k : OpenChanged g l m) : OpenChanged (fun r => g (f r)) old m :=
  ⟨k.slot.trans h.slot, by rw [k.record, h.record, Option.map_map]; rfl,
    fun j hj => (k.others j (by rw [h.slot]; exact hj)).trans (h.others j hj)⟩

/-- A write of anything but the slots, before or after the change. -/
theorem OpenChanged.before (h : OpenChanged f l m) (hl : l.records.slots = old.records.slots) : OpenChanged f old m :=
  (OpenChanged.of_slots hl).trans h

theorem OpenChanged.after (h : OpenChanged f old l) (hm : m.records.slots = l.records.slots) : OpenChanged f old m :=
  h.trans (.of_slots hm)

theorem OpenChanged.congr (h : OpenChanged f old l) (hfg : ∀ r, f r = g r) : OpenChanged g old l := funext hfg ▸ h

theorem Live.updOpen_openChanged (l : Live) (f : VehicleRecord → VehicleRecord) : OpenChanged f l (l.updOpen f) := by
  refine ⟨Live.openSlot_of_slotState (Live.updOpen_slotState f), l.openRecord_updOpen f, fun j hj => ?_⟩
  unfold Live.updOpen
  split
  · next i hi =>
    rw [Live.setSlot_records]
    exact Four.get_set_of_ne _ _ fun he => hj (by rw [hi, he])
  · rfl

/-- What a change of the OPEN record reaches is its slot. -/
theorem Live.updOpen_rest (l : Live) (f : VehicleRecord → VehicleRecord) : (l.updOpen f).chain = l.chain
    ∧ (l.updOpen f).records.pendingResults = l.records.pendingResults ∧ (l.updOpen f).faults = l.faults := by
  unfold Live.updOpen
  split <;> exact ⟨rfl, rfl, rfl⟩

end
end Sys2Proof.Machine
end

section
/-! ## Captures in progress end with the record (R88, R116, R118; O33, O35) -/

namespace Sys2Proof.Machine

section
variable {T : Tables} {l m : Live} {h q : Roller} {c : Capture}

/-! ### The axles that the captures leave marked -/

/-- An axle as a capture that ends with the record leaves it for one of its stations. -/
def Live.marksAxle (l : Live) (c : Capture) (r : Roller) (a : AxleRecord) : AxleRecord :=
  if l.bound (stationOf r) = some a.index then a.setBrake c.settings.part (abortedPart .closed (a.brake c.settings.part)) else a

/-- An axle as the capture that `h` holds, if it holds one, leaves it. -/
def Live.endsAxle (l : Live) (h : Roller) (a : AxleRecord) : AxleRecord :=
  ((l.roller h).capture.map fun c => (captureStations h c).foldl (fun y r => l.marksAxle c r y) a).getD a

@[simp] theorem Live.marksAxle_index (l : Live) (c : Capture) (r : Roller) (a : AxleRecord) :
    (l.marksAxle c r a).index = a.index := by
  unfold Live.marksAxle
  split
  · exact a.setBrake_index _ _
  · rfl

theorem Live.marksAxle_state (l : Live) (c : Capture) (r : Roller) (a : AxleRecord) : (l.marksAxle c r a).state = a.state := by
  unfold Live.marksAxle
  split
  · cases c.settings.part <;> rfl
  · rfl

theorem Live.marksAxle_congr (hb : ∀ st, m.bound st = l.bound st) (c : Capture) (r : Roller) :
    m.marksAxle c r = l.marksAxle c r :=
  funext fun a => by simp only [Live.marksAxle, hb]

/-- A field of an axle that each mark leaves is left by all of them. -/
theorem foldl_marksAxle {α : Type} {field : AxleRecord → α} (l : Live) (c : Capture)
    (hf : ∀ r a, field (l.marksAxle c r a) = field a) : ∀ (rs : List Roller) (a : AxleRecord),
      field (rs.foldl (fun y r => l.marksAxle c r y) a) = field a
  | [], _ => rfl
  | r :: rs, a => (foldl_marksAxle l c hf rs _).trans (hf r a)

theorem Live.endsAxle_field {α : Type} {field : AxleRecord → α} (l : Live)
    (hf : ∀ c r a, field (l.marksAxle c r a) = field a) (h : Roller) (a : AxleRecord) : field (l.endsAxle h a) = field a := by
  unfold Live.endsAxle
  cases (l.roller h).capture with
  | none => rfl
  | some c => exact foldl_marksAxle l c (hf c) _ a

/-- The marks are made for the axle by its index, which none of them changes. -/
theorem foldl_marksAxle_eq (l : Live) (c : Capture) {a : AxleRecord} : ∀ (rs : List Roller) {y : AxleRecord},
    y.index = a.index → rs.foldl (fun y r => if l.bound (stationOf r) = some a.index then
        y.setBrake c.settings.part (abortedPart .closed (y.brake c.settings.part)) else y) y =
      rs.foldl (fun y r => l.marksAxle c r y) y
  | [], _, _ => rfl
  | r :: rs, y, hy => by
    have hone : (if l.bound (stationOf r) = some a.index then
        y.setBrake c.settings.part (abortedPart .closed (y.brake c.settings.part)) else y) = l.marksAxle c r y := by
      rw [Live.marksAxle, hy]
    rw [List.foldl_cons, List.foldl_cons, hone]
    exact foldl_marksAxle_eq l c rs ((l.marksAxle_index c r y).trans hy)

/-- RA's capture ends before RB's. -/
theorem Live.closedAxle_eq (l : Live) (a : AxleRecord) : l.closedAxle a = l.endsAxle .rb (l.endsAxle .ra a) := by
  have hindex : ∀ (c : Capture) (rs : List Roller), (rs.foldl (fun y r => l.marksAxle c r y) a).index = a.index := fun c rs =>
    foldl_marksAxle l c (fun r a => l.marksAxle_index c r a) rs a
  cases hra : (l.roller .ra).capture <;> cases hrb : (l.roller .rb).capture <;>
    simp only [Live.closedAxle, Live.endsAxle, List.foldl_cons, List.foldl_nil, hra, hrb, Option.map_some, Option.map_none,
      Option.getD_some, Option.getD_none, foldl_marksAxle_eq, hindex]

theorem Live.closedAxle_index (l : Live) (a : AxleRecord) : (l.closedAxle a).index = a.index := by
  have hends := l.endsAxle_field (field := AxleRecord.index) (fun c r a => l.marksAxle_index c r a)
  rw [Live.closedAxle_eq, hends, hends]

theorem Live.closedAxle_state (l : Live) (a : AxleRecord) : (l.closedAxle a).state = a.state := by
  have hends := l.endsAxle_field (field := AxleRecord.state) (fun c r a => l.marksAxle_state c r a)
  rw [Live.closedAxle_eq, hends, hends]

theorem Live.closedAxle_congr (hra : m.ra = l.ra) (hrb : m.rb = l.rb) (ht : m.tracker = l.tracker) :
    m.closedAxle = l.closedAxle := by
  have hroller : ∀ h, m.roller h = l.roller h := fun h => by cases h <;> assumption
  have hends : ∀ h, m.endsAxle h = l.endsAxle h := fun h => funext fun a => by
    simp only [Live.endsAxle, hroller, Live.marksAxle_congr (Live.bound_of_tracker ht)]
  funext a
  rw [Live.closedAxle_eq, Live.closedAxle_eq, hends, hends]

/-! ### One capture ends (R88) -/

theorem Live.captureWrite_marks (l : Live) (h r : Roller) (c : Capture) : l.captureWrite T h c .closed r =
    l.markBrake (stationOf r) c.settings.part (interruptPart .closed) :=
  if_neg (by decide)

theorem Live.captureWrite_closed (l : Live) (h r : Roller) (c : Capture) :
    OpenChanged (·.mapAxles (l.marksAxle c r)) l (l.captureWrite T h c .closed r) := by
  rw [Live.captureWrite_marks, Live.markBrake]
  cases hb : l.bound (stationOf r) with
  | none =>
    have hsame : l.marksAxle c r = id := funext fun a => if_neg (by rw [hb]; nofun)
    exact (OpenChanged.of_slots rfl).congr fun x => by rw [hsame, VehicleRecord.mapAxles_id, id]
  | some k =>
    refine (l.updOpen_openChanged _).congr fun x => ?_
    have hmark : l.marksAxle c r = fun a => if a.index = k then
        a.setBrake c.settings.part (interruptPart .closed (a.brake c.settings.part)) else a := funext fun a => by
      simp only [Live.marksAxle, hb, Option.some.injEq, interruptPart_eq, eq_comm]
    rw [hmark]
    rfl

theorem Live.captureWrite_pending (l : Live) (h r : Roller) (c : Capture) :
    (l.captureWrite T h c .closed r).records.pendingResults = l.records.pendingResults := by
  rw [Live.captureWrite_marks, Live.markBrake]
  split
  · exact (l.updOpen_rest _).2.1
  · rfl

theorem Live.captureWrites_closed (l : Live) (h : Roller) (c : Capture) :
    ∀ (rs : List Roller) {x : Live}, x.tracker = l.tracker →
      OpenChanged (·.mapAxles fun a => rs.foldl (fun y r => l.marksAxle c r y) a) x
        (rs.foldl (fun x r => x.captureWrite T h c .closed r) x)
  | [], x, _ => (OpenChanged.of_slots rfl).congr fun v => v.mapAxles_id.symm
  | r :: rs, x, hx => by
    have hone := x.captureWrite_closed (T := T) h r c
    have htracker := (Live.captureWrite_quiet (T := T) (.refl x) h c .closed r).tracker
    rw [Live.marksAxle_congr (Live.bound_of_tracker hx)] at hone
    exact (hone.trans (Live.captureWrites_closed l h c rs (htracker.trans hx))).congr fun v => v.mapAxles_mapAxles _ _

theorem Live.captureStop_closed (l : Live) (h : Roller) (c : Capture) (how : Roller → Leaving) :
    OpenChanged (·.mapAxles fun a => (captureStations h c).foldl (fun y r => l.marksAxle c r y) a) l
        (l.captureStop T h c .closed how)
      ∧ (l.captureStop T h c .closed how).records.pendingResults = l.records.pendingResults := by
  let written := (captureStations h c).foldl (fun x r => x.captureWrite T h c .closed r) (l.endsWith h c .closed)
  have hstart : (l.endsWith h c .closed).records = l.records := Live.setCapture_records _
  have hrecords : (l.captureStop T h c .closed how).records = written.records :=
    (foldl_field (fun _ _ => Live.captureEvent_records) (captureStations h c) _).trans
      (foldl_field (fun _ q => Live.captureLeave_records (how q)) (captureStations h c) written)
  have hpending : written.records.pendingResults = (l.endsWith h c .closed).records.pendingResults :=
    foldl_field (field := fun x => x.records.pendingResults) (fun x r => x.captureWrite_pending h r c) _ _
  refine ⟨OpenChanged.after (OpenChanged.before ?_ (congrArg Records.slots hstart)) (congrArg Records.slots hrecords),
    (congrArg Records.pendingResults hrecords).trans (hpending.trans (congrArg Records.pendingResults hstart))⟩
  exact Live.captureWrites_closed l h c _ (Live.setRoller_tracker _ _ _)

theorem Live.captureReport_records (l : Live) (h : Roller) (c : Capture) (reason : EndReason) (axle : Nat) :
    (l.captureReport T h c reason axle).records = l.records :=
  (Live.setCapture_records _).trans (Live.seqCaptureEnd_reacts _ _ _ _ _).records

theorem Live.endCapture_of_none (hc : (l.roller h).capture = none) (reason : EndReason) (how : Roller → Leaving) :
    l.endCapture T h reason how = l := by
  simp only [Live.endCapture, hc]

theorem Live.endCapture_of_some (hc : (l.roller h).capture = some c) (reason : EndReason) (how : Roller → Leaving) :
    l.endCapture T h reason how =
      (l.captureStop T h c reason how).captureReport T h c reason (l.boundOrZero (stationOf h)) := by
  simp only [Live.endCapture, hc]

/-- A capture that ends with the record marks the axles of its stations. -/
theorem Live.endCapture_closed (l : Live) (h : Roller) (how : Roller → Leaving) :
    OpenChanged (·.mapAxles (l.endsAxle h)) l (l.endCapture T h .closed how)
      ∧ (l.endCapture T h .closed how).records.pendingResults = l.records.pendingResults := by
  cases hc : (l.roller h).capture with
  | none =>
    have hsame : l.endsAxle h = id := funext fun a => by rw [Live.endsAxle, hc]; rfl
    rw [Live.endCapture_of_none hc]
    exact ⟨(OpenChanged.of_slots rfl).congr fun v => by rw [hsame, VehicleRecord.mapAxles_id, id], rfl⟩
  | some c =>
    have hends : l.endsAxle h = fun a => (captureStations h c).foldl (fun y r => l.marksAxle c r y) a :=
      funext fun a => by rw [Live.endsAxle, hc]; rfl
    obtain ⟨hchanged, hpending⟩ := l.captureStop_closed (T := T) h c how
    have hreport := (l.captureStop T h c .closed how).captureReport_records (T := T) h c .closed (l.boundOrZero (stationOf h))
    rw [Live.endCapture_of_some hc, hends]
    exact ⟨hchanged.after (congrArg Records.slots hreport), (congrArg Records.pendingResults hreport).trans hpending⟩

/-! ### The other station's capture goes on -/

theorem Live.captureLeave_capture (l : Live) (how : Leaving) (r q : Roller) :
    ((l.captureLeave T how r).roller q).capture = (l.roller q).capture := by
  have henter : ∀ (x : Live) (y : StationState), ((x.enter T (stationOf r) y).roller q).capture = (x.roller q).capture :=
    fun x y => (congrArg RollerStation.capture ((Live.seqSees_still (.refl _) _).roller q)).trans (by cases r <;> cases q <;> rfl)
  have hset : ∀ (x : Live) (y : RollerStation), y.capture = (x.roller r).capture →
      ((x.setRoller r y).roller q).capture = (x.roller q).capture := fun x y hy => by
    cases r <;> cases q <;> first | exact hy | rfl
  have hdrive : ((l.offerDrive T r false).roller q).capture = (l.roller q).capture := by
    by_cases hq : q = r
    · rw [hq, Live.offerDrive_roller]
    · rw [(l.offerDrive_onlyRoller r false).2 q hq]
  cases how with
  | ready => exact (henter _ _).trans (hset _ _ rfl)
  | releasing => exact (henter _ _).trans ((hset _ _ (by rfl)).trans hdrive)
  | faulted => exact (henter _ _).trans ((hset _ _ (by rfl)).trans hdrive)

theorem Live.setCapture_capture_other (l : Live) (hq : q ≠ h) (o : Option Capture) :
    ((l.setCapture h o).roller q).capture = (l.roller q).capture := by
  cases h <;> cases q <;> first | rfl | exact absurd rfl hq

theorem Live.endCapture_capture_other (l : Live) (hq : q ≠ h) (reason : EndReason) (how : Roller → Leaving) :
    ((l.endCapture T h reason how).roller q).capture = (l.roller q).capture := by
  cases hc : (l.roller h).capture with
  | none => rw [Live.endCapture_of_none hc]
  | some c =>
    have hstill : ∀ {x y : Live}, Still x y → (y.roller q).capture = (x.roller q).capture := fun hxy => by rw [hxy.roller q]
    have hreport : ∀ (x : Live) (axle : Nat), ((x.captureReport T h c reason axle).roller q).capture = (x.roller q).capture :=
      fun x axle => (Live.setCapture_capture_other _ hq none).trans (hstill (Live.seqCaptureEnd_still (.refl x) _ _ _ _))
    rw [Live.endCapture_of_some hc, hreport, Live.captureStop, hstill (Live.captureEvents_still _ _)]
    refine (foldl_field (field := fun x => (x.roller q).capture) (fun x r => x.captureLeave_capture (how r) r q) _ _).trans ?_
    refine (foldl_field (field := fun x => (x.roller q).capture) (fun x r => hstill Live.captureWrite_still) _ _).trans ?_
    exact Live.setCapture_capture_other l hq _

/-! ### Both captures -/

/-- Every capture in progress has ended with the record: the axles are marked, and what the captures sent stands in the up
queue. -/
structure CapturesClosed (old l : Live) : Prop where
  frame : Quiet old l
  axles : OpenChanged (·.mapAxles old.closedAxle) old l
  pending : l.records.pendingResults = old.records.pendingResults
  sent : ∃ before, (old.ra.capture = none → old.rb.capture = none → before = [])
    ∧ l.chain.up = old.chain.up ++ originated before

theorem Live.endAllCaptures_closed (l : Live) : CapturesClosed l (l.endAllCaptures T .closed) := by
  let gone := l.endCapture T .ra .closed fun _ => .releasing
  have hgone : Quiet l gone := Live.endCapture_quiet (.refl l) _ _ _
  have hquiet : Quiet l (l.endAllCaptures T .closed) := Live.endAllCaptures_quiet (.refl l) .closed
  obtain ⟨hra, hpendra⟩ := l.endCapture_closed (T := T) .ra fun _ => .releasing
  obtain ⟨hrb, hpendrb⟩ := gone.endCapture_closed (T := T) .rb fun _ => .releasing
  have hsame : gone.endsAxle .rb = l.endsAxle .rb := funext fun a => by
    simp only [Live.endsAxle, Live.marksAxle_congr (Live.bound_of_tracker hgone.tracker),
      show (gone.roller .rb).capture = (l.roller .rb).capture from l.endCapture_capture_other (by decide) _ _]
  refine ⟨hquiet, (hra.trans hrb).congr fun v => ?_, hpendrb.trans hpendra, ?_⟩
  · rw [VehicleRecord.mapAxles_mapAxles, hsame]
    exact congrArg v.mapAxles (funext fun a => (l.closedAxle_eq a).symm)
  · by_cases hidle : l.ra.capture = none ∧ l.rb.capture = none
    · obtain ⟨hnora, hnorb⟩ := hidle
      have hall : l.endAllCaptures T .closed = l := by
        rw [Live.endAllCaptures, Live.endCapture_of_none (h := .ra) hnora, Live.endCapture_of_none (h := .rb) hnorb]
      exact ⟨[], fun _ _ => rfl, by rw [hall]; exact (List.append_nil _).symm⟩
    · obtain ⟨before, hbefore⟩ := hquiet.up.1
      exact ⟨before, fun hnora hnorb => absurd ⟨hnora, hnorb⟩ hidle, hbefore⟩

end
end Sys2Proof.Machine
end

section
/-! ## The record ends: RESULT frames, VEHICLE_CLOSE and VEHICLE_ABORT (R88, R116 to R120, R127, R148; O33, O35) -/

namespace Sys2Proof.Machine

section
variable {T : Tables} {old l m : Live} {s : State} {i : Fin 4} {q r : VehicleRecord} {up : List UpFrame}
  {waiting : List (Fin 4 × Frame)} {fs : List Frame}

/-! ### RESULT frames made one after another (R119, R120) -/

theorem resultsOffered_nil (i : Fin 4) (l : Live) : resultsOffered i [] l.chain.up l.records.pendingResults l :=
  ⟨by rw [List.take_nil]; exact (List.append_nil _).symm, by rw [List.drop_nil]; exact (List.append_nil _).symm⟩

theorem resultsOffered.congr (h : resultsOffered i fs up waiting l) (hup : m.chain.up = l.chain.up)
    (hpending : m.records.pendingResults = l.records.pendingResults) : resultsOffered i fs up waiting m :=
  ⟨hup.trans h.1, hpending.trans h.2⟩

theorem Live.offerResult_enters (hnone : l.records.pendingResults = []) (hroom : l.chain.up.length < 32) (i : Fin 4) (f : Frame) :
    (l.offerResult i f).chain.up = l.chain.up ++ originated [f] ∧ (l.offerResult i f).records.pendingResults = [] := by
  have hboth : (l.records.pendingResults.isEmpty && decide (l.chain.up.length < Config.upCapacity)) = true := by
    rw [hnone]
    exact decide_eq_true hroom
  rw [Live.offerResult, if_pos hboth]
  exact ⟨rfl, hnone⟩

theorem Live.offerResult_waits (h : l.records.pendingResults ≠ [] ∨ 32 ≤ l.chain.up.length) (i : Fin 4) (f : Frame) :
    (l.offerResult i f).chain.up = l.chain.up
      ∧ (l.offerResult i f).records.pendingResults = l.records.pendingResults ++ [(i, f)] := by
  have hboth : ¬ (l.records.pendingResults.isEmpty && decide (l.chain.up.length < Config.upCapacity)) = true := by
    rw [Bool.and_eq_true, List.isEmpty_iff, decide_eq_true_eq, not_and_or]
    exact h.imp_right Nat.not_lt.2
  rw [Live.offerResult, if_neg hboth]
  exact ⟨rfl, rfl⟩

theorem Live.offerResult_slots (l : Live) (i : Fin 4) (f : Frame) : (l.offerResult i f).records.slots = l.records.slots := by
  unfold Live.offerResult
  split <;> rfl

/-- One more RESULT frame is made behind those before it. -/
theorem resultsOffered.offerResult (h : resultsOffered i fs up waiting l) (f : Frame) :
    resultsOffered i (fs ++ [f]) up waiting (l.offerResult i f) := by
  obtain ⟨hup, hpending⟩ := h
  let room := if waiting = [] then 32 - up.length else 0
  by_cases hroom : fs.length < room
  · have hnone : waiting = [] := by
      by_contra hne
      exact Nat.not_lt_zero _ (lt_of_lt_of_eq hroom (if_neg hne))
    have hroomEq : room = 32 - up.length := if_pos hnone
    have hle : (fs ++ [f]).length ≤ room := by rw [List.length_append]; exact hroom
    rw [List.take_of_length_le hroom.le] at hup
    rw [List.drop_of_length_le hroom.le, hnone] at hpending
    have hlen : l.chain.up.length < 32 := by
      rw [hup, List.length_append, originated, List.length_map]
      omega
    obtain ⟨hup', hpending'⟩ := Live.offerResult_enters hpending hlen i f
    refine ⟨?_, ?_⟩
    · rw [hup', hup, List.take_of_length_le hle, originated_append, List.append_assoc]
    · rw [hpending', List.drop_of_length_le hle, hnone]
      rfl
  · have hle : room ≤ fs.length := Nat.not_lt.1 hroom
    have hwaits : l.records.pendingResults ≠ [] ∨ 32 ≤ l.chain.up.length := by
      by_cases hnone : waiting = []
      · have hroomEq : room = 32 - up.length := if_pos hnone
        right
        rw [hup, List.length_append, originated, List.length_map, List.length_take]
        omega
      · left
        rw [hpending]
        exact fun he => hnone (List.append_eq_nil_iff.1 he).1
    obtain ⟨hup', hpending'⟩ := Live.offerResult_waits hwaits i f
    refine ⟨?_, ?_⟩
    · rw [hup', hup, List.take_append_of_le_length hle]
    · rw [hpending', hpending, List.drop_append_of_le_length hle, List.map_append, List.append_assoc]
      rfl

/-! ### Axles become DONE (R111, R116, R148) -/

/-- An axle as it becomes DONE, with the verdict of its parts. -/
def AxleRecord.finished (rows : List LimitRow) (cls : Nat) (a : AxleRecord) : AxleRecord :=
  { a with state := .done, verdict := axleVerdict rows cls a }

theorem AxleRecord.finished_eq (rows : List LimitRow) (cls : Nat) : AxleRecord.finished rows cls = fun a =>
    { a with state := .done, verdict := axleVerdict rows cls a } := rfl

theorem AxleRecord.finished_index (rows : List LimitRow) (cls : Nat) (a : AxleRecord) : (a.finished rows cls).index = a.index :=
  rfl

/-- The axles of the given indices DONE. -/
def VehicleRecord.finishAxles (rows : List LimitRow) (ns : List Nat) (q : VehicleRecord) : VehicleRecord :=
  q.mapAxles fun a => if a.index ∈ ns then a.finished rows q.cls else a

/-- The RESULT frames of the axles of the given indices as they become DONE. -/
def VehicleRecord.doneResults (rows : List LimitRow) (i : Fin 4) (ns : List Nat) (q : VehicleRecord) : List Frame :=
  ns.filterMap fun n => (q.axle? n).map fun a => axleResult i (a.finished rows q.cls)

/-- One axle DONE, and then the others. -/
theorem VehicleRecord.finishAxles_updAxle (rows : List LimitRow) (n : Nat) (ns : List Nat) (q : VehicleRecord) :
    (q.updAxle n (AxleRecord.finished rows q.cls)).finishAxles rows ns = q.finishAxles rows (n :: ns) := by
  refine (q.mapAxles_mapAxles _ _).trans (congrArg q.mapAxles (funext fun a => ?_))
  by_cases ha : a.index = n
  · simp only [ha, if_true, List.mem_cons, true_or]
    split <;> rfl
  · simp only [ha, if_false, List.mem_cons, false_or]
    rfl

/-- An axle that becomes DONE twice has one RESULT. -/
theorem VehicleRecord.doneResults_updAxle (rows : List LimitRow) (i : Fin 4) (n : Nat) (ns : List Nat) (q : VehicleRecord) :
    (q.updAxle n (AxleRecord.finished rows q.cls)).doneResults rows i ns = q.doneResults rows i ns := by
  refine List.filterMap_congr fun k _ => ?_
  rw [VehicleRecord.axle?_updAxle q n k (AxleRecord.finished_index _ _), Option.map_map]
  refine congrArg (Option.map · _) (funext fun a => ?_)
  rw [Function.comp_apply]
  split <;> rfl

/-- The RESULT of an axle that becomes DONE is that of the axle as the record then holds it. -/
theorem VehicleRecord.doneResults_eq (rows : List LimitRow) (i : Fin 4) (ns : List Nat) (q : VehicleRecord) :
    q.doneResults rows i ns = ns.filterMap fun n => ((q.finishAxles rows ns).axle? n).map (axleResult i) := by
  refine List.filterMap_congr fun n hn => ?_
  rw [VehicleRecord.finishAxles, VehicleRecord.axle?_mapAxles _ (fun a => by split <;> rfl), Option.map_map]
  cases ha : q.axle? n with
  | none => rfl
  | some a =>
    have hmem : a.index ∈ ns := VehicleRecord.index_of_axle? ha ▸ hn
    simp only [Option.map_some, Function.comp_apply, if_pos hmem]

theorem Live.axleDone_openChanged (l : Live) (n : Nat) :
    OpenChanged (fun q => q.updAxle n (AxleRecord.finished T.rows q.cls)) l (l.axleDone T n) := by
  have hchanged := l.updOpen_openChanged (·.updAxle n (AxleRecord.finished T.rows l.openClass))
  have hslots : (l.axleDone T n).records.slots = (l.updAxle n (AxleRecord.finished T.rows l.openClass)).records.slots := by
    simp only [Live.axleDone]
    split
    · exact Live.offerResult_slots _ _ _
    · rfl
  obtain ⟨hslot, hrecord, hothers⟩ := hchanged.after hslots
  refine ⟨hslot, hrecord.trans ?_, hothers⟩
  cases hq : l.openRecord with
  | none => rfl
  | some q => rw [Live.openClass_of_openRecord hq]; rfl

theorem Live.axleDone_faults (l : Live) (n : Nat) : (l.axleDone T n).faults = l.faults := by
  simp only [Live.axleDone]
  split
  · exact (Live.offerResult_same _ _ _).2.2.1.trans (l.updAxle_faults _ _)
  · exact l.updAxle_faults _ _

theorem Live.axleDone_of_axle {n : Nat} {a : AxleRecord}
    (hi : (l.updAxle n (AxleRecord.finished T.rows l.openClass)).openSlot = some i)
    (ha : (l.updAxle n (AxleRecord.finished T.rows l.openClass)).axle? n = some a) :
    l.axleDone T n = (l.updAxle n (AxleRecord.finished T.rows l.openClass)).offerResult i (axleResult i a) := by
  rw [AxleRecord.finished_eq] at hi ha ⊢
  simp only [Live.axleDone, hi, ha]

theorem Live.axleDone_of_none {n : Nat} (hi : (l.updAxle n (AxleRecord.finished T.rows l.openClass)).openSlot = some i)
    (ha : (l.updAxle n (AxleRecord.finished T.rows l.openClass)).axle? n = none) :
    l.axleDone T n = l.updAxle n (AxleRecord.finished T.rows l.openClass) := by
  rw [AxleRecord.finished_eq] at hi ha ⊢
  simp only [Live.axleDone, hi, ha]

/-- An axle that becomes DONE makes its RESULT. -/
theorem Live.axleDone_results (h : resultsOffered i fs up waiting l) (hi : l.openSlot = some i) (hq : l.openRecord = some q)
    (n : Nat) : resultsOffered i (fs ++ q.doneResults T.rows i [n]) up waiting (l.axleDone T n) := by
  let m := l.updAxle n (AxleRecord.finished T.rows l.openClass)
  obtain ⟨hchain, hpending, -⟩ := l.updOpen_rest (·.updAxle n (AxleRecord.finished T.rows l.openClass))
  have hmarked : resultsOffered i fs up waiting m := h.congr (congrArg Chain.up hchain) hpending
  have hslot : m.openSlot = some i := (l.updOpen_openChanged _).slot.trans hi
  have haxle : m.axle? n = (q.axle? n).map (AxleRecord.finished T.rows q.cls) := by
    rw [Live.axle?_updAxle l n n (AxleRecord.finished_index _ _), Live.axle?, hq, Option.bind_some,
      Live.openClass_of_openRecord hq]
    cases ha : q.axle? n with
    | none => rfl
    | some a => rw [Option.map_some, if_pos (VehicleRecord.index_of_axle? ha)]; rfl
  cases ha : q.axle? n with
  | none =>
    rw [Live.axleDone_of_none hslot (haxle.trans (congrArg _ ha))]
    simpa [VehicleRecord.doneResults, ha] using hmarked
  | some a =>
    rw [Live.axleDone_of_axle hslot (haxle.trans (congrArg _ ha))]
    simpa [VehicleRecord.doneResults, ha] using hmarked.offerResult _

theorem Live.axlesDone_openChanged : ∀ (ns : List Nat) (l : Live),
    OpenChanged (·.finishAxles T.rows ns) l (ns.foldl (fun x n => x.axleDone T n) l)
  | [], l => (OpenChanged.of_slots rfl).congr fun q => by
      simp only [VehicleRecord.finishAxles, List.not_mem_nil, if_false]
      exact q.mapAxles_id.symm
  | n :: ns, l => ((l.axleDone_openChanged n).trans (Live.axlesDone_openChanged ns _)).congr fun q =>
      q.finishAxles_updAxle T.rows n ns

theorem Live.axlesDone_results : ∀ (ns : List Nat) {l : Live} {q : VehicleRecord} {fs : List Frame},
    resultsOffered i fs up waiting l → l.openSlot = some i → l.openRecord = some q →
    resultsOffered i (fs ++ q.doneResults T.rows i ns) up waiting (ns.foldl (fun x n => x.axleDone T n) l)
  | [], _, _, _, h, _, _ => by simpa [VehicleRecord.doneResults] using h
  | n :: ns, l, q, fs, h, hi, hq => by
    have hone := l.axleDone_openChanged (T := T) n
    have hrest := Live.axlesDone_results ns (Live.axleDone_results (T := T) h hi hq n) (hone.slot.trans hi)
      (hone.record.trans (congrArg (Option.map _) hq))
    rw [VehicleRecord.doneResults_updAxle, List.append_assoc] at hrest
    have hsplit : q.doneResults T.rows i (n :: ns) = q.doneResults T.rows i [n] ++ q.doneResults T.rows i ns :=
      List.filterMap_append (l := [n]) (l' := ns)
    rwa [hsplit]

/-! ### The slot ends (R116, R118) -/

/-- The slot takes its end state and its record, and the vehicle's RESULT is made. -/
def Live.endSlot (i : Fin 4) (x : SlotState) (f : VehicleRecord) (l : Live) : Live :=
  (l.setSlot i { state := x, record := some f }).offerResult i (vehicleResult i x f)

theorem Live.endSlot_self (l : Live) (i : Fin 4) (x : SlotState) (f : VehicleRecord) :
    (l.endSlot i x f).records.slots.get i = { state := x, record := some f } := by
  rw [Live.endSlot, Live.offerResult_slots, Live.setSlot_records]
  exact Four.get_set_self _ _ _

theorem Live.endSlot_others (l : Live) {j : Fin 4} (hj : j ≠ i) (x : SlotState) (f : VehicleRecord) :
    (l.endSlot i x f).records.slots.get j = l.records.slots.get j := by
  rw [Live.endSlot, Live.offerResult_slots, Live.setSlot_records]
  exact Four.get_set_of_ne _ _ hj

theorem Live.endSlot_results (h : resultsOffered i fs up waiting l) (x : SlotState) (f : VehicleRecord) :
    resultsOffered i (fs ++ [vehicleResult i x f]) up waiting (l.endSlot i x f) :=
  resultsOffered.offerResult (l := l.setSlot i { state := x, record := some f }) h _

theorem Live.endSlot_rest (l : Live) (i : Fin 4) (x : SlotState) (f : VehicleRecord) : (l.endSlot i x f).tracker = l.tracker
    ∧ (l.endSlot i x f).faults = l.faults ∧ (l.endSlot i x f).printer = l.printer := by
  obtain ⟨-, htracker, hfaults, -⟩ := (l.setSlot i { state := x, record := some f }).offerResult_same i (vehicleResult i x f)
  exact ⟨htracker, hfaults, Live.offerResult_printer i _⟩

/-! ### The sequencer is emptied (R127) -/

theorem Live.admitDown?_up {f : DownFrame} (hm : l.admitDown? f = some m) : m.chain.up = l.chain.up := by
  unfold Live.admitDown? at hm
  split at hm <;> cases hm
  rfl

theorem Live.render_up (l : Live) : (l.render T).chain.up = l.chain.up := by
  have hmark : ∀ (x : Live) (k : Fin 4), (x.markLine T k).chain.up = x.chain.up := fun x k => by
    simp only [Live.markLine]
    split <;> rfl
  have hoffer : ∀ (x : Live) (k : Fin 4), (x.offerLine T k).chain.up = x.chain.up := fun x k => by
    simp only [Live.offerLine]
    split
    · split
      · next y hy =>
        have hup := Live.admitDown?_up hy
        exact hup
      · rfl
    · rfl
  have hmarked := foldl_field (field := fun x => x.chain.up) hmark fourIndices l
  simp only [Live.render]
  split
  · exact (foldl_field (field := fun x => x.chain.up) hoffer fourIndices _).trans hmarked
  · exact hmarked

theorem Live.stepEndRemoval_up (l : Live) (n : Nat) : (l.stepEndRemoval T n).chain.up = l.chain.up := by
  simp only [Live.stepEndRemoval, Live.setQueue]
  split
  · rfl
  · exact Live.render_up _

/-- What the sequencer leaves as it is emptied: it removes its step-end prompt from the board, and sends nothing. -/
structure SeqEmptied (old l : Live) : Prop where
  reacts : Reacts old l
  up : l.chain.up = old.chain.up
  rest : l.seq = l.seqAtRest

theorem Live.seqClosed_emptied (l : Live) : SeqEmptied l (l.seqClosed T) := by
  have hempty : SeqEmptied l l.seqEmpty := ⟨l.setSeq_reacts _, rfl, rfl⟩
  unfold Live.seqClosed
  split
  · next n _ =>
    have hshows := l.seqEmpty.stepEndRemoval_shows (T := T) n
    refine ⟨hempty.reacts.trans hshows.toReacts, l.seqEmpty.stepEndRemoval_up n, hshows.seq.trans ?_⟩
    simp only [Live.seqAtRest, Live.level, hshows.faults]
    rfl
  · exact hempty

theorem Reacts.tracker (h : Reacts old l) : l.tracker = old.tracker := by rw [h.rest]

theorem Reacts.printer (h : Reacts old l) : l.printer = old.printer := by rw [h.rest]

/-! ### The OPEN record is closed (R116, R117) -/

/-- The totals are of the record with its axles DONE. -/
def VehicleRecord.closed (rows : List LimitRow) (q : VehicleRecord) : VehicleRecord :=
  finishRecord rows (q.finishAxles rows q.unfinished)

/-- The state in which the record's axles are DONE and its totals are computed. -/
def Live.judgesRecord (T : Tables) (q : VehicleRecord) (l : Live) : Live :=
  (q.unfinished.foldl (fun x n => x.axleDone T n) l.clearTracker).updOpen (finishRecord T.rows)

theorem Live.judgesRecord_openChanged (l : Live) (q : VehicleRecord) :
    OpenChanged (fun v => finishRecord T.rows (v.finishAxles T.rows q.unfinished)) l (l.judgesRecord T q) :=
  ((Live.axlesDone_openChanged _ _).trans (Live.updOpen_openChanged _ _)).before rfl

theorem Live.judgesRecord_results (hi : l.openSlot = some i) (hq : l.openRecord = some q) :
    resultsOffered i (q.doneResults T.rows i q.unfinished) l.chain.up l.records.pendingResults (l.judgesRecord T q) := by
  obtain ⟨hchain, hpending, -⟩ :=
    (q.unfinished.foldl (fun x n => x.axleDone T n) l.clearTracker).updOpen_rest (finishRecord T.rows)
  exact (Live.axlesDone_results (T := T) (l := l.clearTracker) _ (resultsOffered_nil i l) hi hq).congr
    (congrArg Chain.up hchain) hpending

theorem Live.judgesRecord_rest (l : Live) (q : VehicleRecord) : (l.judgesRecord T q).tracker = .reset
    ∧ (l.judgesRecord T q).faults = l.faults ∧ (l.judgesRecord T q).printer = l.printer := by
  refine ⟨(Live.updOpen_tracker _).trans ?_, (Live.updOpen_rest _ _).2.2.trans ?_, (Live.updOpen_printer _).trans ?_⟩
  · exact foldl_field (field := Live.tracker) (fun x n => Live.axleDone_tracker n) _ _
  · exact foldl_field (field := Live.faults) (fun x n => x.axleDone_faults n) _ _
  · exact Live.foldl_axleDone_printer _ _

theorem Live.closeRecord_eq (hi : l.openSlot = some i) (hq : l.openRecord = some q) : l.closeRecord T =
    if T.settings.autoPrint then ((l.judgesRecord T q).endSlot i .closed (q.closed T.rows)).appendPrint i
    else (l.judgesRecord T q).endSlot i .closed (q.closed T.rows) := by
  have hjudged : (l.judgesRecord T q).openRecord = some (q.closed T.rows) :=
    (l.judgesRecord_openChanged q).record.trans (congrArg (Option.map _) hq)
  unfold Live.judgesRecord at hjudged
  simp only [Live.closeRecord, hi, hq, hjudged]
  rfl

/-- What the close of the OPEN record `q` leaves (R116, R117, R119). -/
structure Closes (T : Tables) (i : Fin 4) (q : VehicleRecord) (old l : Live) : Prop where
  slot : l.records.slots.get i = { state := .closed, record := some (q.closed T.rows) }
  others : ∀ j, j ≠ i → l.records.slots.get j = old.records.slots.get j
  rest : l.tracker = .reset ∧ l.faults = old.faults
  printer : l.printer = if T.settings.autoPrint then
    { old.printer with queue := old.printer.queue ++ [{ slot := i, restarts := 0 }] } else old.printer
  results : resultsOffered i (q.doneResults T.rows i q.unfinished ++ [vehicleResult i .closed (q.closed T.rows)])
    old.chain.up old.records.pendingResults l

theorem Live.closeRecord_closes (hi : l.openSlot = some i) (hq : l.openRecord = some q) : Closes T i q l (l.closeRecord T) := by
  let ended := (l.judgesRecord T q).endSlot i .closed (q.closed T.rows)
  have hothers : ∀ j, j ≠ i → ended.records.slots.get j = l.records.slots.get j := fun j hj =>
    (Live.endSlot_others _ hj _ _).trans ((l.judgesRecord_openChanged q).others j fun he => hj (by
      rw [hi] at he
      exact (Option.some.inj he).symm))
  have hresults := Live.endSlot_results (Live.judgesRecord_results (T := T) hi hq) .closed (q.closed T.rows)
  obtain ⟨htracker, hfaults, hprinter⟩ := (l.judgesRecord T q).endSlot_rest i .closed (q.closed T.rows)
  obtain ⟨htracker', hfaults', hprinter'⟩ := l.judgesRecord_rest (T := T) q
  have hself : ended.records.slots.get i = _ := Live.endSlot_self _ i .closed (q.closed T.rows)
  rw [Live.closeRecord_eq hi hq]
  cases hprint : T.settings.autoPrint with
  | true =>
    refine ⟨hself, hothers, ⟨htracker.trans htracker', hfaults.trans hfaults'⟩, ?_, hresults⟩
    rw [hprint, if_pos rfl, if_pos rfl, ← hprinter', ← hprinter]
    rfl
  | false =>
    refine ⟨hself, hothers, ⟨htracker.trans htracker', hfaults.trans hfaults'⟩, ?_, hresults⟩
    rw [hprint]
    exact hprinter.trans hprinter'

/-! ### The captures end, the record is closed, the sequencer is emptied (R88, R116, R127) -/

/-- A capture that ends with the record makes no axle DONE. -/
theorem VehicleRecord.unfinished_mapAxles (l : Live) (q : VehicleRecord) :
    (q.mapAxles l.closedAxle).unfinished = openAxles q := by
  have hstate : ((fun a : AxleRecord => a.state != .done) ∘ l.closedAxle) = fun a => a.state != .done := funext fun a => by
    rw [Function.comp_apply, l.closedAxle_state]
  simp only [VehicleRecord.unfinished, VehicleRecord.mapAxles, openAxles, List.filter_map, hstate, List.map_map]
  exact List.map_congr_left fun a _ => l.closedAxle_index a

theorem VehicleRecord.finishAxles_mapAxles (l : Live) (q : VehicleRecord) :
    (q.mapAxles l.closedAxle).finishAxles T.rows (openAxles q) = { q with axles := closedAxles T q l } := by
  refine (q.mapAxles_mapAxles _ _).trans ?_
  have haxle : ∀ a : AxleRecord, (if (l.closedAxle a).index ∈ openAxles q then
      (l.closedAxle a).finished T.rows (q.mapAxles l.closedAxle).cls else l.closedAxle a) =
        if a.index ∈ openAxles q then (l.closedAxle a).finished T.rows q.cls else l.closedAxle a := fun a => by
    rw [l.closedAxle_index]
    rfl
  rw [funext haxle]
  rfl

theorem VehicleRecord.closed_mapAxles (l : Live) (q : VehicleRecord) : (q.mapAxles l.closedAxle).closed T.rows =
    finishRecord T.rows { q with axles := closedAxles T q l } := by
  rw [VehicleRecord.closed, VehicleRecord.unfinished_mapAxles, VehicleRecord.finishAxles_mapAxles]

theorem VehicleRecord.doneResults_mapAxles (l : Live) (i : Fin 4) (q : VehicleRecord) :
    (q.mapAxles l.closedAxle).doneResults T.rows i (openAxles q) =
      (openAxles q).filterMap fun n => ((closedAxles T q l).find? (·.index == n)).map (axleResult i) := by
  rw [VehicleRecord.doneResults_eq, VehicleRecord.finishAxles_mapAxles]
  rfl

/-- A state that an end of the record in slot `i` meets as it meets another: they agree on all that it reads or leaves but the
OPEN record. -/
structure MetAlike (i : Fin 4) (old l : Live) : Prop where
  ra : l.ra = old.ra
  rb : l.rb = old.rb
  tracker : l.tracker = old.tracker
  slots : ∀ j, j ≠ i → l.records.slots.get j = old.records.slots.get j
  pending : l.records.pendingResults = old.records.pendingResults
  up : l.chain.up = old.chain.up
  faults : l.faults = old.faults
  printer : l.printer = old.printer

theorem MetAlike.closedAxle (h : MetAlike i old l) : l.closedAxle = old.closedAxle :=
  Live.closedAxle_congr h.ra h.rb h.tracker

theorem RecordClosed.of_alike (hc : RecordClosed T i q l m) (h : MetAlike i old l) : RecordClosed T i q old m := by
  have haxles : closedAxles T q l = closedAxles T q old := by simp only [closedAxles, h.closedAxle]
  obtain ⟨slot, record, others, ⟨htracker, hseq, hfaults⟩, printer, before, hnone, results⟩ := hc
  rw [haxles] at record
  rw [h.printer] at printer
  rw [h.ra, h.rb] at hnone
  rw [haxles, h.up, h.pending] at results
  exact ⟨slot, record, fun j hj => (others j hj).trans (h.slots j hj), ⟨htracker, hseq, hfaults.trans h.faults⟩, printer,
    before, hnone, results⟩

theorem RecordAborted.of_alike (hc : RecordAborted i q l m) (h : MetAlike i old l) : RecordAborted i q old m := by
  have haxles : abortedAxles q l = abortedAxles q old := by simp only [abortedAxles, h.closedAxle]
  obtain ⟨slot, record, others, ⟨htracker, hseq, hfaults, hprinter⟩, before, hnone, results⟩ := hc
  rw [haxles] at record
  rw [h.ra, h.rb] at hnone
  rw [haxles, h.up, h.pending] at results
  exact ⟨slot, record, fun j hj => (others j hj).trans (h.slots j hj),
    ⟨htracker, hseq, hfaults.trans h.faults, hprinter.trans h.printer⟩, before, hnone, results⟩

/-- The OPEN record is closed (R116, R117, R119, R120, R127). -/
theorem Live.planClose_closed (hi : l.openSlot = some i) (hq : l.openRecord = some q) : RecordClosed T i q l (l.planClose T) := by
  have hcaptures := l.endAllCaptures_closed (T := T)
  have hcloses := Live.closeRecord_closes (T := T) (hcaptures.axles.slot.trans hi)
    (hcaptures.axles.record.trans (congrArg (Option.map _) hq))
  have hemptied := ((l.endAllCaptures T .closed).closeRecord T).seqClosed_emptied (T := T)
  have hslots : (l.planClose T).records.slots = ((l.endAllCaptures T .closed).closeRecord T).records.slots :=
    congrArg Records.slots hemptied.reacts.records
  obtain ⟨before, hnone, hup⟩ := hcaptures.sent
  obtain ⟨hslot, hothers, ⟨htracker, hfaults⟩, hprinter, hresults⟩ := hcloses
  rw [VehicleRecord.closed_mapAxles, ← hslots] at hslot
  rw [VehicleRecord.closed_mapAxles, VehicleRecord.unfinished_mapAxles, VehicleRecord.doneResults_mapAxles, hup,
    hcaptures.pending] at hresults
  rw [hcaptures.frame.printer] at hprinter
  refine ⟨congrArg RecordSlot.state hslot, congrArg RecordSlot.record hslot, fun j hj => ?_,
    ⟨hemptied.reacts.tracker.trans htracker, hemptied.rest,
      (hemptied.reacts.faults.trans hfaults).trans hcaptures.frame.faults⟩,
    hemptied.reacts.printer.trans hprinter, before, hnone,
    hresults.congr hemptied.up (congrArg Records.pendingResults hemptied.reacts.records)⟩
  rw [hslots, hothers j hj]
  exact hcaptures.axles.others j fun he => hj (Option.some.inj (he.symm.trans hi))

theorem vehicleCloseRequest_of_none (hi : l.openSlot = none) : vehicleCloseRequest T [] l = refuse T l .state := by
  simp only [vehicleCloseRequest, hi]
  rfl

theorem vehicleCloseRequest_of_open (hi : l.openSlot = some i) : vehicleCloseRequest T [] l =
    accept T ((l.updOpen fun r => { r with forced := true }).planClose T) [byte (i.val + 1)] := by
  simp only [vehicleCloseRequest, hi]
  rfl

/-- A request that has been taken, and a change of the OPEN record, are no matter to its end. -/
theorem State.taking_metAlike (s : State) (i : Fin 4) : MetAlike i s.live s.taking :=
  ⟨rfl, rfl, rfl, fun _ _ => rfl, rfl, rfl, rfl, rfl⟩

theorem Live.updOpen_metAlike (hi : l.openSlot = some i) (f : VehicleRecord → VehicleRecord) : MetAlike i l (l.updOpen f) := by
  obtain ⟨hchain, hpending, hfaults⟩ := l.updOpen_rest f
  have hstill := Live.updOpen_still (.refl l) f
  exact ⟨hstill.ra, hstill.rb, Live.updOpen_tracker f,
    fun j hj => (l.updOpen_openChanged f).others j fun he => hj (Option.some.inj (he.symm.trans hi)), hpending,
    congrArg Chain.up hchain, hfaults, Live.updOpen_printer f⟩

/-- Settles O33: without an OPEN record STATE; else FORCED is set, the captures in progress end and the record is closed. -/
theorem vehicleCloseJudgesTheRecord : Obligations.VehicleCloseJudgesTheRecord := by
  intro s hasks _
  refine ⟨fun hi => exec_answered hasks rfl rfl (vehicleCloseRequest_of_none hi), fun i r hi hr => ⟨_,
    exec_answered hasks rfl rfl (vehicleCloseRequest_of_open (l := s.taking) hi), ?_⟩⟩
  let forced := s.taking.updOpen fun r => { r with forced := true }
  have hchanged := s.taking.updOpen_openChanged fun r => { r with forced := true }
  have hclosed : RecordClosed s.tables i { r with forced := true } forced (forced.planClose s.tables) :=
    Live.planClose_closed (hchanged.slot.trans hi) (hchanged.record.trans (congrArg (Option.map _) hr))
  exact (hclosed.of_alike (Live.updOpen_metAlike (l := s.taking) hi _)).of_alike (s.taking_metAlike i)

/-! ### The OPEN record is aborted (R118) -/

theorem Live.abortRecord_eq (hi : l.openSlot = some i) (hq : l.openRecord = some q) :
    l.abortRecord = l.clearTracker.endSlot i .aborted (q.mapAxles AxleRecord.aborted) := by
  simp only [Live.abortRecord, hi, hq]
  rfl

theorem VehicleRecord.aborted_mapAxles (l : Live) (q : VehicleRecord) :
    (q.mapAxles l.closedAxle).mapAxles AxleRecord.aborted = { q with axles := abortedAxles q l } :=
  q.mapAxles_mapAxles _ _

/-- The OPEN record is aborted (R118, R119, R120, R127). -/
theorem Live.endAllCaptures_aborted (hi : l.openSlot = some i) (hq : l.openRecord = some q) :
    RecordAborted i q l (((l.endAllCaptures T .closed).abortRecord).seqClosed T) := by
  let ended := l.endAllCaptures T .closed
  let aborted := ended.clearTracker.endSlot i .aborted { q with axles := abortedAxles q l }
  have hcaptures : CapturesClosed l ended := l.endAllCaptures_closed
  have habort : ended.abortRecord = aborted := by
    rw [Live.abortRecord_eq (hcaptures.axles.slot.trans hi) (hcaptures.axles.record.trans (congrArg (Option.map _) hq)),
      VehicleRecord.aborted_mapAxles]
  have hemptied : SeqEmptied aborted (aborted.seqClosed T) := aborted.seqClosed_emptied
  have hslots := congrArg Records.slots hemptied.reacts.records
  have hslot : (aborted.seqClosed T).records.slots.get i = _ :=
    (congrArg (·.get i) hslots).trans (Live.endSlot_self _ i .aborted { q with axles := abortedAxles q l })
  obtain ⟨before, hnone, hup⟩ := hcaptures.sent
  obtain ⟨htracker, hfaults, hprinter⟩ := ended.clearTracker.endSlot_rest i .aborted { q with axles := abortedAxles q l }
  have hresults := Live.endSlot_results (resultsOffered_nil i ended.clearTracker) .aborted { q with axles := abortedAxles q l }
  rw [show ended.clearTracker.chain.up = _ from hup, show ended.clearTracker.records.pendingResults = _ from hcaptures.pending]
    at hresults
  rw [habort]
  refine ⟨congrArg RecordSlot.state hslot, congrArg RecordSlot.record hslot, fun j hj => ?_,
    ⟨hemptied.reacts.tracker.trans htracker, hemptied.rest,
      (hemptied.reacts.faults.trans hfaults).trans hcaptures.frame.faults,
      (hemptied.reacts.printer.trans hprinter).trans hcaptures.frame.printer⟩, before, hnone,
    hresults.congr hemptied.up (congrArg Records.pendingResults hemptied.reacts.records)⟩
  exact ((congrArg (·.get j) hslots).trans (Live.endSlot_others _ hj _ _)).trans
    (hcaptures.axles.others j fun he => hj (Option.some.inj (he.symm.trans hi)))

theorem vehicleAbortRequest_of_none (hi : l.openSlot = none) : vehicleAbortRequest T [] l = refuse T l .state := by
  simp only [vehicleAbortRequest, hi]
  rfl

theorem vehicleAbortRequest_of_open (hi : l.openSlot = some i) : vehicleAbortRequest T [] l =
    accept T (((l.endAllCaptures T .closed).abortRecord).seqClosed T) [byte (i.val + 1)] := by
  simp only [vehicleAbortRequest, hi]
  rfl

/-- Settles O35: without an OPEN record STATE; else the captures in progress end and the record is aborted. -/
theorem vehicleAbortLeavesNoVerdict : Obligations.VehicleAbortLeavesNoVerdict := by
  intro s hasks _
  exact ⟨fun hi => exec_answered hasks rfl rfl (vehicleAbortRequest_of_none hi), fun i r hi hr => ⟨_,
    exec_answered hasks rfl rfl (vehicleAbortRequest_of_open (l := s.taking) hi),
    (Live.endAllCaptures_aborted (l := s.taking) hi hr).of_alike (s.taking_metAlike i)⟩⟩

end
end Sys2Proof.Machine
end

section
/-! ## What a raise leaves of the stations and of the sequencer (R71, R72, R133 to R136, R154, R157; O43, O50)

`Ordered old s`: the orders of a raise move a station to FAULTED or RELEASING or not at all, and of its tare they drop at most the
context. Nor do they make a sequencer wait that does not. -/

namespace Sys2Proof.Machine

section
variable {T : Tables} {old s t : Live}

/-! ### The tare of a station beside its other items -/

theorem Live.tare_setRoller (s : Live) (r : Roller) {x : RollerStation} (h : x.tare = (s.roller r).tare) (p : Station) :
    (s.setRoller r x).tare p = s.tare p := by
  cases r <;> cases p <;> first | rfl | exact h

theorem Live.enter_tare (s : Live) (st : Station) (x : StationState) (p : Station) : (s.enter T st x).tare p = s.tare p :=
  ((Live.seqSees_still (.refl _) st).tare p).trans (Live.tare_putState s st p x)

/-! ### What orders do to the stations -/

/-- What the orders of a raise do to the stations of `old`: a tare may lose its context, and a station may be told to stop. -/
structure Ordered (old s : Live) : Prop where
  tare : ∀ st, { s.tare st with context := none } = { old.tare st with context := none }
  state : ∀ st, s.stationState st = old.stationState st ∨ s.stationState st ∈ [StationState.faulted, .releasing]

theorem Ordered.refl (s : Live) : Ordered s s := ⟨fun _ => rfl, fun _ => .inl rfl⟩

theorem Ordered.trans (h : Ordered old s) (k : Ordered s t) : Ordered old t := by
  refine ⟨fun st => (k.tare st).trans (h.tare st), fun st => ?_⟩
  rcases k.state st with hk | hk
  · rw [hk]
    exact h.state st
  · exact .inr hk

theorem Still.ordered (h : Still old s) : Ordered old s :=
  ⟨fun st => by rw [h.tare], fun st => .inl (h.stationState st)⟩

theorem Ordered.foldl {α : Type} {f : Live → α → Live} (hf : ∀ x a, Ordered x (f x a)) :
    ∀ (l : List α) (s : Live), Ordered s (l.foldl f s)
  | [], s => .refl s
  | a :: l, s => (hf s a).trans (Ordered.foldl hf l (f s a))

/-- The marks of a tare outlast orders. -/
theorem Ordered.stale (h : Ordered old s) (st : Station) : (s.tare st).stale = (old.tare st).stale := by
  have hmarks := congrArg Tare.stale (h.tare st)
  exact hmarks

theorem Live.setRoller_ordered (s : Live) (r : Roller) {x : RollerStation} (hstate : x.state = (s.roller r).state)
    (htare : x.tare = (s.roller r).tare) : Ordered s (s.setRoller r x) :=
  ⟨fun st => by rw [s.tare_setRoller r htare], fun st => .inl (s.setRoller_stationState r hstate st)⟩

theorem Live.enter_ordered (s : Live) (st : Station) {x : StationState} (hx : x ∈ [StationState.faulted, .releasing]) :
    Ordered s (s.enter T st x) := by
  refine ⟨fun p => by rw [Live.enter_tare], fun p => ?_⟩
  rw [Live.enter_stationState]
  split
  · exact .inr hx
  · exact .inl rfl

theorem Live.enterStill_ordered (s : Live) (r : Roller) {x : StationState} (hx : x ∈ [StationState.faulted, .releasing]) :
    Ordered s (s.enterStill T r x) :=
  (s.setRoller_ordered r (by rfl) (by rfl)).trans (Live.enter_ordered _ _ hx)

theorem Live.offerDrive_ordered (s : Live) (r : Roller) (start : Bool) : Ordered s (s.offerDrive T r start) := by
  obtain ⟨held, down, h⟩ := s.offerDrive_eq (T := T) r start
  rw [h]
  exact (s.setRoller_ordered r (by rfl) (by rfl)).trans (Still.ordered ⟨rfl, rfl, rfl⟩)

theorem Live.faultDriven_ordered (s : Live) (r : Roller) : Ordered s (s.faultDriven T r) :=
  (s.offerDrive_ordered r false).trans (Live.enterStill_ordered _ r (by simp))

theorem Live.enterReleasing_ordered (s : Live) (r : Roller) : Ordered s (s.enterReleasing T r) :=
  ((s.offerDrive_ordered r false).trans (Live.setRoller_ordered _ r (by rfl) (by rfl))).trans (Live.enter_ordered _ _ (by simp))

/-- The end of a capture that sends none of its stations to READY. -/
theorem Live.endCapture_ordered (s : Live) (h : Roller) (reason : EndReason) {how : Roller → Leaving}
    (hhow : ∀ q, how q ≠ .ready) : Ordered s (s.endCapture T h reason how) := by
  unfold Live.endCapture
  split
  · next c _ =>
    have hleave (x : Live) (q : Roller) : Ordered x (x.captureLeave T (how q) q) := by
      unfold Live.captureLeave
      split
      · exact absurd ‹_› (hhow q)
      · exact x.enterReleasing_ordered q
      · exact x.faultDriven_ordered q
    have hset (x : Live) (k : Option Capture) : Ordered x (x.setCapture h k) := x.setRoller_ordered h (by rfl) (by rfl)
    have hstop : Ordered s (s.captureStop T h c reason how) :=
      (((hset s _).trans (Ordered.foldl (fun x q => Still.ordered Live.captureWrite_still) _ _)).trans
        (Ordered.foldl hleave _ _)).trans
          (Ordered.foldl (fun x q => (Live.event_still (.refl x) _ _ _ _).ordered) _ _)
    have hreport (x : Live) (axle : Nat) : Ordered x (x.seqCaptureEnd T h c reason axle) :=
      (Live.seqCaptureEnd_still (.refl x) _ _ _ _).ordered
    exact (hstop.trans (hreport _ _)).trans (hset _ _)
  · exact .refl s

theorem Live.dropTare_ordered (s : Live) (st : Station) : Ordered s (s.dropTare st) := by
  refine ⟨fun p => ?_, fun p => .inl (s.dropTare_stationState st p)⟩
  by_cases hp : p = st
  · subst hp
    rw [Live.dropTare, Live.tare_setTare]
  · rw [Live.dropTare, Live.tare_setTare_other _ hp]

theorem Live.tareAborted_ordered (s : Live) (st : Station) (v : Int) : Ordered s (s.tareAborted T st v) :=
  (s.tareAborted_reacts st v).still.ordered

theorem Live.holdStation_ordered (s : Live) (held : List Station) (st : Station) : Ordered s (s.holdStation T held st) := by
  unfold Live.holdStation
  split
  · exact .refl s
  · split
    · refine s.endCapture_ordered _ _ fun q => ?_
      split <;> decide
    · exact s.faultDriven_ordered _
  · exact s.faultDriven_ordered _
  · exact s.faultDriven_ordered _
  · exact s.faultDriven_ordered _
  · exact ((s.dropTare_ordered _).trans (Live.enterStill_ordered _ _ (by simp))).trans (Live.tareAborted_ordered _ _ _)
  · exact s.enterStill_ordered _ (by simp)
  · exact ((s.dropTare_ordered _).trans (Live.enter_ordered _ _ (by simp))).trans (Live.tareAborted_ordered _ _ _)
  · have hcleared : Ordered s { s with ps := { s.ps with crossing := none } } :=
      ⟨fun p => by cases p <;> rfl, fun p => .inl (by cases p <;> rfl)⟩
    exact hcleared.trans (Live.enter_ordered _ _ (by simp))

theorem Live.stopStation_ordered (s : Live) (r : Roller) : Ordered s (s.stopStation T r) := by
  unfold Live.stopStation
  split
  · exact s.enterReleasing_ordered r
  · exact s.enterReleasing_ordered r
  · split
    · exact s.endCapture_ordered _ _ fun _ => by decide
    · exact s.enterReleasing_ordered r
  · exact .refl s

theorem Live.giveOrders_ordered (s : Live) (e : FaultEntry) : Ordered s (s.giveOrders T e) := by
  have hholds (x : Live) : Ordered x (x.holdStations T (heldBy T e)) :=
    Ordered.foldl (fun y st => y.holdStation_ordered _ st) _ x
  unfold Live.giveOrders
  split
  · exact hholds s
  · exact (Live.pauseOrder_still (.refl s)).ordered.trans (Ordered.foldl Live.stopStation_ordered _ _)
  · exact (Live.lockOrder_still (.refl s)).ordered.trans (hholds _)
  · exact .refl s
  · exact .refl s

/-! ### A raise -/

variable {src : Source} {scope : Scope} {axle detail : Nat}

theorem Live.raiseWith_ordered (s : Live) (src : Source) (scope : Scope) (axle detail : Nat) :
    Ordered s (s.raiseWith T src scope axle detail) := by
  have hevent (x : Live) (f : Frame) : Ordered x (x.offerEvent f) := (x.offerEvent_reacts f).still.ordered
  unfold Live.raiseWith
  split
  · exact (hevent s _).trans (Still.ordered ⟨rfl, rfl, rfl⟩)
  · split
    · exact .refl s
    · exact hevent s _
    · have hlisted (e : FaultEntry) : Ordered s { s with faults := s.faults ++ [e] } := Still.ordered ⟨rfl, rfl, rfl⟩
      exact (((hlisted _).trans (Live.giveOrders_ordered _ _)).trans (Live.makeEntry_posts _ s).still.ordered).trans (hevent _ _)

/-! ### A sequencer that does not wait (R128, R133 to R136) -/

/-- The sequencer waits on nothing. -/
def Live.notWaiting (s : Live) : Prop := s.seq.state ≠ .waiting

theorem Live.makeRestart_notWaiting (s : Live) (x : Restart) : (s.makeRestart T x).notWaiting := by
  unfold Live.notWaiting Live.makeRestart
  dsimp only
  split <;> exact nofun

theorem Live.judgeRestart_notWaiting (s : Live) (b x : Restart) : (s.judgeRestart T b x).notWaiting := by
  unfold Live.judgeRestart
  split
  · exact nofun
  · split
    · exact nofun
    · split
      · exact nofun
      · exact s.makeRestart_notWaiting x

theorem Live.heldEnds_notWaiting (s : Live) : (s.heldEnds T).notWaiting := by
  unfold Live.heldEnds
  split
  · exact nofun
  · split
    · exact nofun
    · split
      · exact s.makeRestart_notWaiting _
      · exact nofun

theorem Live.captureBroken_notWaiting (h : s.notWaiting) (b : Restart) : (s.captureBroken T b).notWaiting := by
  unfold Live.captureBroken
  split
  · exact h
  · exact Live.judgeRestart_notWaiting _ _ _

theorem notWaiting_stands : StandsThrough T Live.notWaiting where
  same hseq _ h := by
    unfold Live.notWaiting
    rw [hseq]
    exact h
  sees {s} st h := by
    unfold Live.seqSees
    split
    · exact absurd ‹_› h
    · split
      · exact s.heldEnds_notWaiting
      · exact h
    · exact h
  captureEnd {s} r c axle h := by
    rcases Live.seqCaptureEnd_fault (T := T) (s := s) r c axle with heq | ⟨b, heq⟩
    · rw [heq]; exact h
    · rw [heq]
      refine Live.captureBroken_notWaiting ?_ b
      unfold Live.notWaiting
      rw [Live.setSeq_seq, Seq.setPlanCapture_state]
      exact h
  tareEnd st h := by rw [Live.seqTareEnd_of_not_waiting h]; exact h

theorem Live.pauseOrder_notWaiting (h : s.notWaiting) : s.pauseOrder.notWaiting := by
  unfold Live.pauseOrder
  split
  · exact h
  · split
    · exact nofun
    · exact nofun
    · exact nofun
    all_goals exact h

theorem Live.giveOrders_notWaiting (h : s.notWaiting) (e : FaultEntry) : (s.giveOrders T e).notWaiting := by
  unfold Live.giveOrders
  split
  · exact notWaiting_stands.holdStations h _
  · exact notWaiting_stands.stopStations (Live.pauseOrder_notWaiting h)
  · exact notWaiting_stands.holdStations (s := s.lockOrder) nofun _
  · exact h
  · exact h

theorem Live.raiseWith_notWaiting (h : s.notWaiting) (src : Source) (scope : Scope) (axle detail : Nat) :
    (s.raiseWith T src scope axle detail).notWaiting := by
  have hevent {x : Live} (hx : x.notWaiting) (f : Frame) : (x.offerEvent f).notWaiting := by
    unfold Live.notWaiting
    rw [Live.offerEvent_seq]
    exact hx
  unfold Live.raiseWith
  split
  · exact hevent h _
  · split
    · exact h
    · exact hevent h _
    · refine hevent ?_ _
      unfold Live.notWaiting
      rw [(Live.makeEntry_posts _ s).seq]
      exact Live.giveOrders_notWaiting (s := { s with faults := s.faults ++ [_] }) h _

end
end Sys2Proof.Machine
end

section
/-! ## Stations released from hold, and CLEAR_LOCKOUT (R72, R100, R103, R135, R157, R161; O43) -/

namespace Sys2Proof.Machine

section
variable {T : Tables} {old l m : Live} {s : State} {st : Station}

/-! ### A station is released (R72) -/

theorem Live.enterSettling_tare (l : Live) (r : Roller) (p : Station) : (l.enterSettling T r).tare p = l.tare p := by
  unfold Live.enterSettling
  dsimp only
  rw [Live.enter_tare]
  refine l.tare_setRoller r ?_ p
  split <;> rfl

theorem Live.enterOffline_tare (l : Live) (st p : Station) : (l.enterOffline T st).tare p = l.tare p := by
  cases st with
  | ps => exact (Live.enter_tare _ _ _ p).trans (by cases p <;> rfl)
  | ra => exact (Live.enter_tare _ _ _ p).trans (l.tare_setRoller .ra (by rfl) p)
  | rb => exact (Live.enter_tare _ _ _ p).trans (l.tare_setRoller .rb (by rfl) p)

/-- What a release from hold does to its station: it is at rest, or settles. -/
structure LetGo (st : Station) (old l : Live) : Prop where
  tare : ∀ p, l.tare p = old.tare p
  self : l.stationState st ∈ [StationState.idle, .settling, .offline]
  others : ∀ p, p ≠ st → l.stationState p = old.stationState p
  seq : old.seqFree → l.seq = old.seq

theorem Live.enterOffline_letGo (l : Live) (st : Station) : LetGo st l (l.enterOffline T st) := by
  refine ⟨l.enterOffline_tare st, by simp, fun p hp => by simp [hp], fun hfree => ?_⟩
  exact Live.leaveTaring_seq_of_free hfree true

theorem Live.enterIdle_letGo (l : Live) (st : Station) : LetGo st l (l.enter T st .idle) :=
  ⟨l.enter_tare st .idle, by simp, fun p hp => by simp [hp], fun hfree => by rw [Live.enter_of_free hfree, Live.putState_seq]⟩

theorem Live.enterSettling_letGo (l : Live) (r : Roller) : LetGo (stationOf r) l (l.enterSettling T r) :=
  ⟨l.enterSettling_tare r, by simp, fun p hp => by simp [hp],
    fun hfree => by rw [Live.enterSettling_of_free hfree, Live.setRoller_seq]⟩

theorem Live.releaseHold_letGo (l : Live) (st : Station) : LetGo st l (l.releaseHold T st) := by
  unfold Live.releaseHold
  split
  · exact l.enterOffline_letGo st
  · split
    · exact l.enterIdle_letGo st
    · next r hr =>
      obtain rfl := stationRoller_some hr
      dsimp only
      split
      · exact l.enterSettling_letGo r
      · exact l.enterIdle_letGo _

/-! ### The stations that no entry covers any more (R157) -/

/-- One step of the releases: a FAULTED station that no entry covers is let go. -/
def Live.releaseUncovered (T : Tables) (l : Live) (st : Station) : Live :=
  if l.stationState st = .faulted ∧ l.covered T st = false then l.releaseHold T st else l

theorem Live.releaseStations_eq (l : Live) : l.releaseStations T = stations.foldl (Live.releaseUncovered T) l := rfl

theorem Live.releaseUncovered_quiet (l : Live) (st : Station) : Quiet l (l.releaseUncovered T st) := by
  unfold Live.releaseUncovered
  split
  · exact Live.releaseHold_quiet (.refl l) st
  · exact .refl l

theorem Live.releaseUncovered_tare (l : Live) (st p : Station) : (l.releaseUncovered T st).tare p = l.tare p := by
  unfold Live.releaseUncovered
  split
  · exact (l.releaseHold_letGo st).tare p
  · rfl

theorem Live.releaseUncovered_seq (hfree : l.seqFree) (st : Station) : (l.releaseUncovered T st).seq = l.seq := by
  unfold Live.releaseUncovered
  split
  · exact (l.releaseHold_letGo st).seq hfree
  · rfl

theorem Live.releaseUncovered_other (l : Live) {p : Station} (hp : p ≠ st) :
    (l.releaseUncovered T st).stationState p = l.stationState p := by
  unfold Live.releaseUncovered
  split
  · exact (l.releaseHold_letGo st).others p hp
  · rfl

/-- What a release makes of a station by itself: it is let go where it was FAULTED and is covered no more. -/
def releasedState (uncovered : Bool) (before after : StationState) : Prop :=
  if before = .faulted ∧ uncovered = false then after ∈ [StationState.idle, .settling, .offline] else after = before

theorem Live.releaseUncovered_self (l : Live) (st : Station) :
    releasedState (l.covered T st) (l.stationState st) ((l.releaseUncovered T st).stationState st) := by
  unfold Live.releaseUncovered releasedState
  split
  · exact (l.releaseHold_letGo st).self
  · rfl

theorem Live.releaseStations_stationState (l : Live) (p : Station) :
    releasedState (l.covered T p) (l.stationState p) ((l.releaseStations T).stationState p) := by
  have hcovered (x : Live) (st : Station) : (x.releaseUncovered T st).covered T p = x.covered T p :=
    (x.releaseUncovered_quiet st).covered p
  have hself := fun x => Live.releaseUncovered_self (T := T) x p
  simp only [Live.releaseStations_eq, stations, List.foldl_cons, List.foldl_nil]
  cases p with
  | ps =>
    rw [Live.releaseUncovered_other _ (by decide), Live.releaseUncovered_other _ (by decide)]
    exact hself l
  | ra =>
    rw [Live.releaseUncovered_other _ (by decide), ← hcovered l .ps,
      ← Live.releaseUncovered_other (T := T) (st := .ps) l (by decide)]
    exact hself _
  | rb =>
    rw [← hcovered l .ps, ← hcovered _ .ra, ← Live.releaseUncovered_other (T := T) (st := .ps) l (by decide),
      ← Live.releaseUncovered_other (T := T) (st := .ra) _ (by decide)]
    exact hself _

theorem Live.releaseStations_tare (l : Live) (p : Station) : (l.releaseStations T).tare p = l.tare p := by
  simp only [Live.releaseStations_eq, stations, List.foldl_cons, List.foldl_nil, Live.releaseUncovered_tare]

theorem Live.foldl_releaseUncovered_seq : ∀ (sts : List Station) {l : Live}, l.seqFree →
    (sts.foldl (Live.releaseUncovered T) l).seq = l.seq
  | [], _, _ => rfl
  | st :: sts, _, hfree =>
    (Live.foldl_releaseUncovered_seq sts (hfree.of_seq (Live.releaseUncovered_seq hfree st))).trans
      (Live.releaseUncovered_seq hfree st)

theorem Live.releaseStations_seq (hfree : l.seqFree) : (l.releaseStations T).seq = l.seq :=
  Live.foldl_releaseUncovered_seq stations hfree

/-- The releases after a removal that has touched no station. -/
theorem Live.releaseStations_after {gone : FaultEntry → Bool}
    (hquiet : Quiet { old with faults := old.faults.filter fun e => !gone e } l)
    (hstate : ∀ p, l.stationState p = old.stationState p) : ReleasedAfter T gone old (l.releaseStations T) := by
  have hreleased : Quiet l (l.releaseStations T) := Live.releaseStations_quiet (.refl l)
  refine ⟨hquiet.trans hreleased, fun p => ?_⟩
  have hp := l.releaseStations_stationState (T := T) p
  rw [hreleased.covered, ← hstate]
  exact hp

/-! ### Entries removed (R155, R167) -/

theorem Live.unlink_shows (l : Live) (src : Source) (scope : Scope) : Shows l (l.unlink T src scope) := l.setQueue_shows _

theorem Live.removeEntries_shows (l : Live) (gone : FaultEntry → Bool) :
    Shows { l with faults := l.faults.filter fun e => !gone e } (l.removeEntries T gone) :=
  Shows.foldl (fun x (e : FaultEntry) => x.unlink_shows e.source e.scope) _ _

theorem Live.removeEntries_quiet (l : Live) (gone : FaultEntry → Bool) :
    Quiet { l with faults := l.faults.filter fun e => !gone e } (l.removeEntries T gone) :=
  Quiet.foldl (fun _ (e : FaultEntry) hx => Live.unlink_quiet hx e.source e.scope) _ (.refl _)

/-! ### A tare becomes STALE (R100, R103) -/

theorem Live.tare_setTare_eq (l : Live) (st p : Station) (x : Tare) :
    (l.setTare st x).tare p = if p = st then x else l.tare p := by
  by_cases hp : p = st
  · subst hp
    rw [if_pos rfl, Live.tare_setTare]
  · rw [if_neg hp, Live.tare_setTare_other _ hp]

/-- A tare becomes STALE: the mark is set, and TARE_STALE is raised where it was not and the station is present. -/
theorem Live.makeStale_eq (l : Live) (st : Station) : l.makeStale T st =
    if (l.tare st).stale = false ∧ T.present st = true then
      (l.setTare st { l.tare st with stale := true }).raise T .tareStale (.station st) 0
    else l.setTare st { l.tare st with stale := true } := rfl

theorem Live.makeStale_faults (l : Live) (st : Station) : (l.makeStale T st).faults = staleRaised T l l.faults st := by
  rw [Live.makeStale_eq, staleRaised]
  split
  · refine (Live.raiseWith_raised T _ _ _ _ _).frame.faults.trans ?_
    rw [Live.setTare_faults]
  · exact Live.setTare_faults _ _ _

theorem Live.makeStale_stale (l : Live) (st p : Station) :
    ((l.makeStale T st).tare p).stale = if p = st then true else (l.tare p).stale := by
  have hmark : ((l.setTare st { l.tare st with stale := true }).tare p).stale = if p = st then true else (l.tare p).stale := by
    rw [Live.tare_setTare_eq]
    split <;> rfl
  rw [Live.makeStale_eq]
  split
  · exact ((Live.raiseWith_ordered _ _ _ _ _).stale p).trans hmark
  · exact hmark

/-- Every tare has become STALE, the raises in the order of the stations (log 54). -/
theorem Live.makeStales_stale (l : Live) (p : Station) : ((stations.foldl (Live.makeStale T) l).tare p).stale = true := by
  simp only [stations, List.foldl_cons, List.foldl_nil, Live.makeStale_stale]
  cases p <;> rfl

theorem staleRaised_congr (h : (m.tare st).stale = (l.tare st).stale) (list : List FaultEntry) :
    staleRaised T m list st = staleRaised T l list st := by
  rw [staleRaised, staleRaised, h]

/-- One station's raise is no matter to the freshness of the next one's tare. -/
theorem Live.makeStales_faults (l : Live) :
    (stations.foldl (Live.makeStale T) l).faults = stations.foldl (staleRaised T l) l.faults := by
  have hra : ((l.makeStale T .ps).tare .ra).stale = (l.tare .ra).stale := l.makeStale_stale .ps .ra
  have hrb : (((l.makeStale T .ps).makeStale T .ra).tare .rb).stale = (l.tare .rb).stale :=
    (Live.makeStale_stale _ .ra .rb).trans (l.makeStale_stale .ps .rb)
  simp only [stations, List.foldl_cons, List.foldl_nil, Live.makeStale_faults, staleRaised_congr hra, staleRaised_congr hrb]

/-! ### Tares marked without a raise that makes or marks an entry -/

/-- A tare becomes STALE and no entry is made or marked: it is STALE already, its station is absent, or TARE_STALE is no more than
a note and has no entry. -/
def Live.stalesQuietly (T : Tables) (l : Live) (st : Station) : Prop :=
  (l.tare st).stale = true ∨ T.present st = false
    ∨ ((T.actionFor .tareStale = .ignore ∨ T.actionFor .tareStale = .note) ∧ l.faults.any (·.is .tareStale (.station st)) = false)

/-- The marks of tares have been set or cleared, EVENTs have been offered, and that is all. -/
structure TaresMarked (old l : Live) : Prop where
  quiet : Quiet old l
  state : ∀ p, l.stationState p = old.stationState p
  age : ∀ p, (l.tare p).age = (old.tare p).age
  seq : l.seq = old.seq

theorem TaresMarked.refl (l : Live) : TaresMarked l l := ⟨.refl l, fun _ => rfl, fun _ => rfl, rfl⟩

theorem TaresMarked.trans (h : TaresMarked old l) (k : TaresMarked l m) : TaresMarked old m :=
  ⟨h.quiet.trans k.quiet, fun p => (k.state p).trans (h.state p), fun p => (k.age p).trans (h.age p), k.seq.trans h.seq⟩

theorem Live.setTare_marked (l : Live) (st : Station) {x : Tare} (hx : x.age = (l.tare st).age) :
    TaresMarked l (l.setTare st x) := by
  refine ⟨Live.setTare_quiet (.refl l) st x, l.setTare_stationState st x, fun p => ?_, l.setTare_seq st x⟩
  rw [Live.tare_setTare_eq]
  split
  · next hp => rw [hx, hp]
  · rfl

/-- A raise that makes no entry and finds none (R154). -/
theorem Live.raise_marked {src : Source} {scope : Scope} (hact : T.actionFor src = .ignore ∨ T.actionFor src = .note)
    (hnew : l.faults.any (·.is src scope) = false) (detail : Nat) : TaresMarked l (l.raise T src scope detail) := by
  have hkept : faultsAfter T src scope l.faults = l.faults := by
    rcases hact with hact | hact <;> simp [faultsAfter, hnew, hact]
  have hraised : Raised T src scope (l.scopeAxle scope) detail l (l.raise T src scope detail) :=
    Live.raise_raised_of_axle rfl
  have hquiet := hraised.frame
  rw [hkept] at hquiet
  obtain ⟨hstill, hseq, -⟩ := hraised.noEntry (congrArg List.length hquiet.faults)
  exact ⟨hquiet, hstill.stationState, fun p => by rw [hstill.tare], hseq⟩

theorem Live.makeStale_marked (h : l.stalesQuietly T st) : TaresMarked l (l.makeStale T st) := by
  have hmark : TaresMarked l (l.setTare st { l.tare st with stale := true }) := l.setTare_marked st rfl
  rw [Live.makeStale_eq]
  split
  · next hraises =>
    rcases h with h | h | ⟨hact, hnew⟩
    · exact absurd (h.symm.trans hraises.1) nofun
    · exact absurd (h.symm.trans hraises.2) nofun
    · exact hmark.trans (Live.raise_marked hact (by rw [Live.setTare_faults]; exact hnew) 0)
  · exact hmark

/-- A tare that may become STALE quietly still may, once others have. -/
theorem Live.stalesQuietly.of_makeStale (h : l.stalesQuietly T st) {q : Station} (hmarked : TaresMarked l (l.makeStale T q)) :
    (l.makeStale T q).stalesQuietly T st := by
  rcases h with h | h | h
  · refine .inl ?_
    rw [Live.makeStale_stale, h, ite_self]
  · exact .inr (.inl h)
  · refine .inr (.inr ?_)
    rw [hmarked.quiet.faults]
    exact h

theorem Live.makeStales_marked : ∀ (sts : List Station) {l : Live}, (∀ st, l.stalesQuietly T st) →
    TaresMarked l (sts.foldl (Live.makeStale T) l)
  | [], l, _ => .refl l
  | q :: sts, _, h =>
    have hmarked := Live.makeStale_marked (h q)
    hmarked.trans (Live.makeStales_marked sts fun st => (h st).of_makeStale hmarked)

/-! ### The bars of auto-tare are lifted (R103) -/

/-- No auto-tare is barred any more. -/
def Live.liftBars (l : Live) : Live := stations.foldl (fun x st => x.setTare st { x.tare st with bar := false }) l

theorem Live.liftBars_tare (l : Live) (p : Station) : l.liftBars.tare p = { l.tare p with bar := false } := by cases p <;> rfl

theorem Live.liftBars_marked (l : Live) : TaresMarked l l.liftBars := by
  have hlift (x : Live) (st : Station) : TaresMarked x (x.setTare st { x.tare st with bar := false }) := x.setTare_marked st rfl
  exact ((hlift l .ps).trans (hlift _ .ra)).trans (hlift _ .rb)

/-! ### CLEAR_LOCKOUT (R161) -/

theorem Live.seqUnlock_reacts (l : Live) : Reacts l l.seqUnlock := by
  unfold Live.seqUnlock
  split
  · exact l.seqRest_reacts _
  · exact .refl l

/-- Every tare marked and every bar lifted, the LOCK entries gone. -/
def Live.unlockedTares (T : Tables) (l : Live) : Live := (stations.foldl (Live.makeStale T) (l.removeEntries T isLock)).liftBars

theorem Live.clearLocks_eq (l : Live) : l.clearLocks T = ((l.unlockedTares T).releaseStations T).seqUnlock := rfl

theorem Live.clearLocks_tare (l : Live) (p : Station) : (l.clearLocks T).tare p = (l.unlockedTares T).tare p := by
  rw [Live.clearLocks_eq, (Live.seqUnlock_reacts _).still.tare, Live.releaseStations_tare]

theorem Live.unlockedTares_marks (l : Live) (p : Station) :
    ((l.unlockedTares T).tare p).stale = true ∧ ((l.unlockedTares T).tare p).bar = false := by
  rw [Live.unlockedTares, Live.liftBars_tare]
  exact ⟨Live.makeStales_stale _ p, rfl⟩

theorem Live.removeEntries_tare (l : Live) (gone : FaultEntry → Bool) (p : Station) :
    (l.removeEntries T gone).tare p = l.tare p :=
  ((l.removeEntries_shows gone).still.tare p).trans (Still.tare (l := l) ⟨rfl, rfl, rfl⟩ p)

theorem Live.clearLocks_faults (l : Live) :
    (l.clearLocks T).faults = stations.foldl (staleRaised T l) (l.faults.filter fun e => !isLock e) := by
  have hfresh : staleRaised T (l.removeEntries T isLock) = staleRaised T l :=
    funext fun list => funext fun st => staleRaised_congr (congrArg Tare.stale (l.removeEntries_tare isLock st)) list
  rw [Live.clearLocks_eq, (Live.seqUnlock_reacts _).faults, (Live.releaseStations_quiet (.refl _)).faults, Live.unlockedTares,
    (Live.liftBars_marked _).quiet.faults, Live.makeStales_faults, hfresh, (l.removeEntries_shows isLock).faults]

/-- The plan of the OPEN record outlasts what leaves the header of every record (R114, R123). -/
theorem Quiet.openPlan (h : Quiet old l) : l.openRecord.bind (·.plan) = old.openRecord.bind (·.plan) := by
  have hslot : l.openSlot = old.openSlot := Live.openSlot_of_slotState h.slots
  have hplan : ∀ o : Option VehicleRecord, o.bind (·.plan) = (o.map (·.bare)).bind (·.plan) := fun o => by cases o <;> rfl
  rw [hplan, hplan old.openRecord, Live.openRecord, Live.openRecord, hslot]
  cases old.openSlot with
  | none => rfl
  | some i => exact congrArg (·.bind (·.plan)) (h.records i)

/-- Where no entry is made or marked, the FAULTED stations are released and a LOCKED sequencer is at rest. -/
theorem Live.clearLocks_quietly (h : ∀ st, l.stalesQuietly T st) : ReleasedAfter T isLock l (l.clearLocks T)
    ∧ (∀ p, ((l.clearLocks T).tare p).age = (l.tare p).age)
    ∧ (l.seq.state = .locked → (l.clearLocks T).seq = { l.seq with
        state := if (l.openRecord.bind (·.plan)).isSome then .paused else .standby, held := none, wait := none,
        awaitTimer := none }) := by
  have hremoved := l.removeEntries_shows (T := T) isLock
  have hquietly (st : Station) : (l.removeEntries T isLock).stalesQuietly T st := by
    rcases h st with hst | hst | ⟨hact, hnew⟩
    · exact .inl (by rw [Live.removeEntries_tare]; exact hst)
    · exact .inr (.inl hst)
    · refine .inr (.inr ⟨hact, ?_⟩)
      rw [hremoved.faults, List.any_eq_false] at *
      exact fun e he => hnew e (List.mem_of_mem_filter he)
  have hmarked : TaresMarked (l.removeEntries T isLock) (l.unlockedTares T) :=
    (Live.makeStales_marked stations hquietly).trans (Live.liftBars_marked _)
  have hquiet : Quiet { l with faults := l.faults.filter fun e => !isLock e } (l.unlockedTares T) :=
    (l.removeEntries_quiet isLock).trans hmarked.quiet
  have hstate (p : Station) : (l.unlockedTares T).stationState p = l.stationState p :=
    (hmarked.state p).trans ((hremoved.still.stationState p).trans (by cases p <;> rfl))
  have hseq : (l.unlockedTares T).seq = l.seq := hmarked.seq.trans hremoved.seq
  have hreleased := Live.releaseStations_after (T := T) hquiet hstate
  have hunlock := Live.seqUnlock_reacts ((l.unlockedTares T).releaseStations T)
  refine ⟨⟨Live.seqUnlock_quiet hreleased.frame, fun p => ?_⟩, fun p => ?_, fun hlocked => ?_⟩
  · have hp := hreleased.stations p
    rw [Live.clearLocks_eq, hunlock.still.stationState, Live.covered, hunlock.faults]
    exact hp
  · rw [Live.clearLocks_tare, hmarked.age, Live.removeEntries_tare]
  · have hfree : (l.unlockedTares T).seqFree := by
      unfold Live.seqFree
      rw [hseq, hlocked]
      exact ⟨nofun, nofun⟩
    have hstands : ((l.unlockedTares T).releaseStations T).seq = l.seq := (Live.releaseStations_seq hfree).trans hseq
    have hplan : ((l.unlockedTares T).releaseStations T).openRecord.bind (·.plan) = l.openRecord.bind (·.plan) :=
      hreleased.frame.openPlan
    rw [Live.clearLocks_eq, Live.seqUnlock, hstands, hlocked]
    simp only [Live.seqRest, Live.setSeq_seq, hstands, hplan]

theorem clearLockoutRequest_of_estop (h : l.lines.estop = true) :
    clearLockoutRequest T [] l = { refuse T l .state with data := [byte (sourceCode .estop)] } := by
  rw [clearLockoutRequest, if_neg (by simp), if_pos h]

theorem clearLockoutRequest_of_present {e : FaultEntry} (h : l.lines.estop = false)
    (he : l.faults.find? (fun d => isLock d && d.present) = some e) :
    clearLockoutRequest T [] l = { refuse T l .state with data := [byte (sourceCode e.source)] } := by
  rw [clearLockoutRequest, if_neg (by simp), if_neg (by simp [h]), he]

theorem clearLockoutRequest_of_ended (h : l.lines.estop = false)
    (hended : ∀ e ∈ l.faults, e.action = .lock → e.present = false) : clearLockoutRequest T [] l =
      if l.faults.any isLock then accept T (l.clearLocks T) [byte (l.faults.countP isLock)]
      else { refuse T l .state with data := [0xFF] } := by
  have hnone : l.faults.find? (fun e => isLock e && e.present) = none := by
    rw [List.find?_eq_none]
    intro e he
    rw [Bool.and_eq_true, isLock, beq_iff_eq]
    rintro ⟨hlock, hpresent⟩
    rw [hended e he hlock] at hpresent
    cases hpresent
  rw [clearLockoutRequest, if_neg (by simp), if_neg (by simp [h]), hnone]

/-- Settles O43: the refusals in their order; an accepted one by what its steps leave of the tares and of the fault list. -/
theorem clearLockoutUnlocksTheLane : Obligations.ClearLockoutUnlocksTheLane := by
  intro s hasks lock refused ended still
  have hexec {x : Answered} (hx : clearLockoutRequest s.tables [] s.taking = x) :
      exec .clearLockout s = .next (s.answered 19 x.tables x.live x.status x.data) := exec_answered hasks rfl rfl hx
  refine ⟨fun hestop => hexec (clearLockoutRequest_of_estop (l := s.taking) hestop),
    fun e hestop he => hexec (clearLockoutRequest_of_present (l := s.taking) hestop he), fun hended hnone => ?_,
    fun hended hsome => ⟨s.taking.clearLocks s.tables, ?_, fun st => ?_, ?_, fun hquietly => ?_⟩⟩
  · have hlocks : ¬ s.taking.faults.any isLock = true := by
      rw [List.any_eq_true]
      rintro ⟨e, he, hlock⟩
      exact hnone e he (beq_iff_eq.1 hlock)
    exact hexec ((clearLockoutRequest_of_ended (l := s.taking) hended.1 hended.2).trans (if_neg hlocks))
  · exact hexec ((clearLockoutRequest_of_ended (l := s.taking) hended.1 hended.2).trans (if_pos hsome))
  · rw [Live.clearLocks_tare]
    exact Live.unlockedTares_marks _ st
  · exact s.taking.clearLocks_faults
  · exact Live.clearLocks_quietly (l := s.taking) hquietly

end
end Sys2Proof.Machine
end

section
/-! ## Auto-tare and the age of a tare (R100, R102; O50) -/

namespace Sys2Proof.Machine

section
variable {T : Tables} {l : Live} {s : State} {st : Station}

/-! ### AUTO_TARE (R102) -/

/-- The conditions under which a station tares by itself (R102). -/
def Live.taresItself (T : Tables) (st : Station) (l : Live) : Prop :=
  T.valid .lane = true ∧ T.settings.autoTare = true ∧ l.stationState st = .idle ∧ l.bound st = none
    ∧ (match st with | .ps => True | .ra => l.tracker.g1 = [] | .rb => l.tracker.g2 = []) ∧ l.mode ≠ .service
    ∧ ((l.tare st).stale = true ∨ ∃ a, (l.tare st).age = some a ∧ T.settings.tareInterval / 2 ≤ a) ∧ (l.tare st).bar = false

theorem Live.feedEmpty_iff : l.feedEmpty st = true ↔
    (match st with | .ps => True | .ra => l.tracker.g1 = [] | .rb => l.tracker.g2 = []) := by
  cases st <;> simp [Live.feedEmpty]

theorem Tare.halfway_iff {t : Tare} : t.halfway T = true ↔ ∃ a, t.age = some a ∧ T.settings.tareInterval / 2 ≤ a := by
  unfold Tare.halfway
  cases t.age <;> simp

theorem Live.autoTareDue_iff : l.autoTareDue T st = true ↔ l.taresItself T st := by
  simp only [Live.autoTareDue, Live.taresItself, Bool.and_eq_true, Bool.or_eq_true, beq_iff_eq, bne_iff_ne, Bool.not_eq_true',
    Option.isNone_iff_eq_none, Live.feedEmpty_iff, Tare.halfway_iff, and_assoc, ne_eq]

theorem exec_autoTare (hawake : s.awake) : exec (.autoTare st) s = .next (s.withLive (if s.live.autoTareDue s.tables st then
    let x := s.live.requestTare s.tables st false
    x.2.beginTare s.tables st x.1
    else s.live)) :=
  congrArg Host.Outcome.next (State.onLive_awake _ hawake)

/-- An IDLE station that tares by itself: its bar is left as it is. -/
theorem Live.beginTare_of_idle (hidle : l.stationState st = .idle) (hfree : l.seqFree) (hsilent : l.noneSilent)
    (hchannels : tareChannels T st ≠ []) :
    (l.requestTare T st false).2.beginTare T st (l.requestTare T st false).1 =
      (l.setTare st { l.tare st with
        context := some { service := false, channels := tareChannels T st } }).putState st .taring := by
  have hbegun : l.acceptTare T st false false = (l.setTare st { l.tare st with context := some (tareBegun T st false) }).putState st
      .taring := by
    rw [Live.acceptTare_of_free hfree, Bool.not_false, Bool.and_true]
  have haccepted : l.requestTare T st false = (.accepted, l.acceptTare T st false false) := by
    rw [Live.requestTare_accepted (.inl hidle), hidle]
    rfl
  rw [haccepted, hbegun]
  refine Live.beginTare_of_channels (c := tareBegun T st false) ?_ hchannels (hsilent.of_steer ?_) _
  · rw [Live.tare_putState, Live.tare_setTare]
  · rw [Live.putState_steer, Live.setTare_steer]

/-! ### TARE_AGE_TICK (R100) -/

theorem Live.setTare_setTare (l : Live) (st : Station) (x y : Tare) : (l.setTare st x).setTare st y = l.setTare st y := by
  cases st <;> rfl

theorem Live.tareAgeDue_iff : l.tareAgeDue st = true ↔ (∃ a, (l.tare st).age = some a) ∧ 1000 ≤ (l.tare st).ageMs := by
  simp only [Live.tareAgeDue, Bool.and_eq_true, decide_eq_true_eq, Option.isSome_iff_exists]
  rfl

theorem exec_tareAgeTick (hawake : s.awake) : exec (.tareAgeTick st) s = .next (s.withLive (if s.live.tareAgeDue st then
    s.live.tareTick s.tables st else s.live)) :=
  congrArg Host.Outcome.next (State.onLive_awake _ hawake)

/-- A tare one second older. -/
def Tare.agedTo (t : Tare) (a : Nat) : Tare := { t with age := some a, ageMs := t.ageMs - 1000 }

theorem Tare.older_eq {t : Tare} {a : Nat} (h : t.age = some a) : t.older = t.agedTo (min 65535 (a + 1)) := by
  rw [Tare.older, h]
  rfl

theorem Tare.due_agedTo (t : Tare) (a : Nat) : (t.agedTo a).due T = decide (T.settings.tareInterval ≤ a) := rfl

theorem Live.tareTick_eq {a : Nat} (h : (l.tare st).age = some a) : l.tareTick T st =
    let aged := l.setTare st ((l.tare st).agedTo (min 65535 (a + 1)))
    if T.settings.tareInterval ≤ min 65535 (a + 1) then aged.makeStale T st else aged := by
  simp only [Live.tareTick, Tare.older_eq h, Live.tare_setTare, Tare.due_agedTo, decide_eq_true_eq]

/-- A tare that becomes STALE as it ages: TARE_STALE is raised where it was fresh at a present station. -/
theorem Live.makeStale_setTare (x : Tare) : (l.setTare st x).makeStale T st =
    if x.stale = false ∧ T.present st = true then
      (l.setTare st { x with stale := true }).raise T .tareStale (.station st) 0
    else l.setTare st { x with stale := true } := by
  rw [Live.makeStale_eq, Live.tare_setTare, Live.setTare_setTare]

end
end Sys2Proof.Machine
end

section
/-! ## A tare takes its values (R95 to R98; O50)

`Live.deliver_tared` says what becomes of a value of a tared channel: the tare takes it, and of the station itself it changes no
more than a load history, for a station in a tare or just out of it is not at work. -/

namespace Sys2Proof.Machine

section
variable {T : Tables} {old l m : Live} {st : Station} {r : Roller} {e : ChannelEntry} {k : TareContext} {i : Nat} {cal v : Int}

/-! ### A station alone moves to a state -/

/-- One station has moved to a state under a sequencer that waits on nothing. -/
structure Moves (st : Station) (x : StationState) (old l : Live) : Prop where
  quiet : Quiet old l
  state : ∀ p, l.stationState p = if p = st then x else old.stationState p
  tare : ∀ p, l.tare p = old.tare p
  chain : l.chain = old.chain
  seq : l.seq = old.seq

theorem Live.putState_moves (l : Live) (st : Station) (x : StationState) : Moves st x l (l.putState st x) :=
  ⟨Live.putState_quiet (.refl l) st x, l.putState_stationState st x, fun p => l.tare_putState st p x, l.putState_chain st x,
    l.putState_seq st x⟩

/-- A roller station rewritten but for its tare, then entering a state. -/
theorem Live.setRoller_enter_moves (hfree : l.seqFree) (r : Roller) {x : RollerStation} (h : x.tare = (l.roller r).tare)
    (y : StationState) : Moves (stationOf r) y l ((l.setRoller r x).enter T (stationOf r) y) := by
  rw [Live.setRoller_enter_of_free hfree]
  exact ⟨Live.setRoller_quiet (.refl l) r _, fun p => by cases r <;> cases p <;> rfl, l.tare_setRoller r h, l.setRoller_chain r _,
    l.setRoller_seq r _⟩

theorem Live.enterSettling_moves (hfree : l.seqFree) (r : Roller) : Moves (stationOf r) .settling l (l.enterSettling T r) := by
  unfold Live.enterSettling
  dsimp only
  refine Live.setRoller_enter_moves hfree r ?_ .settling
  split <;> rfl

theorem Live.enterOffline_moves (hfree : l.seqFree) (st : Station) : Moves st .offline l (l.enterOffline T st) := by
  cases st with
  | ps =>
    rw [Live.enterOffline_ps_of_free hfree]
    exact ⟨(Quiet.refl l).ps _, fun p => by cases p <;> rfl, fun p => by cases p <;> rfl, rfl, rfl⟩
  | ra => exact Live.setRoller_enter_moves hfree .ra (by rfl) .offline
  | rb => exact Live.setRoller_enter_moves hfree .rb (by rfl) .offline

/-- A station that has done with its tare is IDLE, or OFFLINE after a service tare (R56, R96, R97). -/
theorem Live.leaveTaring_moves (hfree : l.seqFree) (st : Station) (service : Bool) :
    Moves st (if service then .offline else .idle) l (l.leaveTaring T st service) := by
  cases service with
  | true => exact Live.enterOffline_moves hfree st
  | false =>
    rw [Live.leaveTaring, if_neg Bool.false_ne_true, Live.enter_of_free hfree]
    exact l.putState_moves st .idle

/-! ### The tare (R95 to R97) -/

/-- The channels of a tare once a value of an entry has been taken. -/
def TareContext.takes (i : Nat) (cal : Int) (k : TareContext) : TareContext :=
  { k with channels := k.channels.map (TareChannel.take i cal) }

/-- A tare with the context given. -/
def Live.taresOn (st : Station) (k : TareContext) (l : Live) : Live := l.setTare st { l.tare st with context := some k }

/-- Some channel of the tare still takes values of an entry. -/
def TareContext.awaits (i : Nat) (k : TareContext) : Prop := ∃ y ∈ k.channels, y.entry = i ∧ y.count < 64

theorem TareContext.awaits_iff : k.channels.any (fun y => y.entry == i && decide (y.count < Config.tareCount)) = true ↔
    k.awaits i := by
  simp only [List.any_eq_true, Bool.and_eq_true, beq_iff_eq, decide_eq_true_eq]
  rfl

/-- A value that no channel awaits changes none. -/
theorem TareContext.takes_of_not_awaits (h : ¬ k.awaits i) : k.takes i cal = k := by
  have hsame : k.channels.map (TareChannel.take i cal) = k.channels := by
    conv_rhs => rw [← List.map_id k.channels]
    exact List.map_congr_left fun y hy => if_neg fun hc => h ⟨y, hy, hc⟩
  rw [TareContext.takes, hsame]

theorem Live.setTare_self (l : Live) (st : Station) : l.setTare st (l.tare st) = l := by cases st <;> rfl

theorem Live.taresOn_self (hk : (l.tare st).context = some k) : l.taresOn st k = l := by
  rw [Live.taresOn, ← hk]
  exact l.setTare_self st

/-- A tare whose channels all have their values: it fails by the first mean out of range, or completes. -/
def Live.tareJudged (T : Tables) (st : Station) (k : TareContext) (l : Live) : Live :=
  match k.channels.find? (·.fails T) with
  | some y => l.tareRange T st k y.entry
  | none => l.tareDone T st k

theorem Live.tareJudged_of_fails {y : TareChannel} (h : k.channels.find? (·.fails T) = some y) :
    l.tareJudged T st k = l.tareRange T st k y.entry := by
  rw [Live.tareJudged, h]

theorem Live.tareJudged_of_passes (h : k.channels.find? (·.fails T) = none) : l.tareJudged T st k = l.tareDone T st k := by
  rw [Live.tareJudged, h]

section
variable (hst : l.stationState st = .taring) (hk : (l.tare st).context = some k)
include hst hk

theorem Live.tareTake_eq : l.tareTake T st i cal =
    if k.channels.any (fun y => y.entry == i && decide (y.count < Config.tareCount)) then
      if (k.takes i cal).channels.all (fun y => y.count == Config.tareCount) then l.tareJudged T st (k.takes i cal)
      else l.taresOn st (k.takes i cal)
    else l := by
  unfold Live.tareTake
  rw [hst, hk]
  rfl

/-- A tare goes on while a channel has not had its 64 values. -/
theorem Live.tareTake_of_open (hopen : ∃ y ∈ (k.takes i cal).channels, y.count ≠ 64) :
    l.tareTake T st i cal = l.taresOn st (k.takes i cal) := by
  obtain ⟨y, hy, hcount⟩ := hopen
  have hall : ¬ (k.takes i cal).channels.all (fun z => z.count == Config.tareCount) = true := by
    rw [List.all_eq_true]
    exact fun h => hcount (beq_iff_eq.1 (h y hy))
  rw [Live.tareTake_eq hst hk, if_neg hall]
  split
  · rfl
  · next hnone =>
    rw [TareContext.awaits_iff] at hnone
    rw [TareContext.takes_of_not_awaits hnone, Live.taresOn_self hk]

/-- With the 64th value of its last channel a tare is judged. -/
theorem Live.tareTake_of_full (hawaits : k.awaits i) (hfull : ∀ y ∈ (k.takes i cal).channels, y.count = 64) :
    l.tareTake T st i cal = l.tareJudged T st (k.takes i cal) := by
  have hall : (k.takes i cal).channels.all (fun y => y.count == Config.tareCount) = true :=
    List.all_eq_true.2 fun y hy => beq_iff_eq.2 (hfull y hy)
  rw [Live.tareTake_eq hst hk, if_pos (TareContext.awaits_iff.2 hawaits), if_pos hall]

end

/-- The limit of the mean of a tared channel (R96); no entry, no limit that a mean exceeds. -/
def TareChannel.limit (T : Tables) (y : TareChannel) : Nat := (T.entries[y.entry]?.map (·.tareLimit)).getD 65536

theorem TareChannel.fails_of_entry {y : TareChannel} (h : T.entries[y.entry]? ≠ none) :
    y.fails T = decide (y.limit T < y.mean.natAbs) := by
  unfold TareChannel.fails TareChannel.limit
  cases hentry : T.entries[y.entry]? with
  | none => exact absurd hentry h
  | some e => rfl

theorem TareChannel.passes {y : TareChannel} (h : y.mean.natAbs ≤ y.limit T) : y.fails T = false := by
  by_cases hentry : T.entries[y.entry]? = none
  · simp only [TareChannel.fails, hentry]
  · rw [TareChannel.fails_of_entry hentry]
    exact decide_eq_false (Nat.not_lt.2 h)

theorem TareChannel.take_entry (y : TareChannel) : (y.take i cal).entry = y.entry := by
  unfold TareChannel.take
  split <;> rfl

/-- Where every channel's entry is in the map, the first that fails is the first whose mean exceeds its limit. -/
theorem TareContext.find_fails (h : ∀ z ∈ k.channels, T.entries[z.entry]? ≠ none) :
    (k.takes i cal).channels.find? (·.fails T) =
      (k.takes i cal).channels.find? fun y => decide (y.limit T < y.mean.natAbs) := by
  refine List.find?_congr fun y hy => ?_
  obtain ⟨z, hz, rfl⟩ := List.mem_map.1 hy
  exact TareChannel.fails_of_entry (by rw [TareChannel.take_entry]; exact h z hz)

/-! ### Completion and range failure (R96, R97) -/

/-- A tare that completes, its station still to leave TARING: the offsets are replaced and TARE_STALE's condition has ended. -/
def Live.tareFresh (st : Station) (k : TareContext) (l : Live) : Live :=
  (l.setTare st ((l.tare st).completed k)).endCondition .tareStale (.station st)

theorem Live.tareFresh_tare (l : Live) (st : Station) (k : TareContext) : (l.tareFresh st k).tare st = (l.tare st).completed k :=
  (Still.tare (l := l.setTare st ((l.tare st).completed k)) ⟨rfl, rfl, rfl⟩ st).trans (l.tare_setTare st _)

theorem Live.tareFresh_seq (l : Live) (st : Station) (k : TareContext) : (l.tareFresh st k).seq = l.seq := l.setTare_seq st _

theorem Live.tareDone_of_free (hfree : l.seqFree) (st : Station) (k : TareContext) : l.tareDone T st k =
    ((l.tareFresh st k).leaveTaring T st k.service).event .tareDone (some st) 0 0 := by
  have hleft := (Live.leaveTaring_moves (T := T) (hfree.of_seq (l.tareFresh_seq st k)) st k.service).seq
  refine Live.seqTareEnd_of_not_waiting (s := ((l.tareFresh st k).leaveTaring T st k.service).event .tareDone (some st) 0 0) ?_ st
    .done
  rw [Live.event_seq, hleft, Live.tareFresh_seq]
  exact hfree.1

/-- A tare out of range: its context is dropped and auto-tare is barred. -/
def Live.tareBarred (T : Tables) (st : Station) (service : Bool) (l : Live) : Live :=
  (l.setTare st { l.tare st with context := none, bar := true }).leaveTaring T st service

theorem Live.tareBarred_moves (hfree : l.seqFree) (st : Station) (service : Bool) : Moves st (if service then .offline else .idle)
    (l.setTare st { l.tare st with context := none, bar := true }) (l.tareBarred T st service) :=
  Live.leaveTaring_moves (hfree.of_seq (l.setTare_seq st _)) st service

/-- The sequencer does not wait on a tare out of range, nor does TARE_RANGE make it wait. -/
theorem Live.tareRange_of_free (hfree : l.seqFree) (st : Station) (k : TareContext) (entry : Nat) : l.tareRange T st k entry =
    (l.tareBarred T st k.service).raise T .tareRange (.station st) entry := by
  have hbarred : (l.tareBarred T st k.service).notWaiting := by
    unfold Live.notWaiting
    rw [(Live.tareBarred_moves hfree st k.service).seq, Live.setTare_seq]
    exact hfree.1
  exact Live.seqTareEnd_of_not_waiting (Live.raiseWith_notWaiting hbarred _ _ _ _) st .range

/-! ### The station takes the value after its tare (R58, R80, R95) -/

/-- The roles that a station's tare takes from (R97). -/
def isTared (st : Station) (e : ChannelEntry) : Prop :=
  if st = .ps then e.role = .plateDisp else e.role ∈ [Role.forceL, .forceR, .loadL, .loadR]

/-- A LOAD value joins the history of its side; any other value leaves the station alone. -/
def Live.joinsHistory (st : Station) (role : Role) (v : Int) (l : Live) : Live :=
  match stationRoller st, role with
  | some r, .loadL => l.setRoller r ((l.roller r).joinLoad .left v)
  | some r, .loadR => l.setRoller r ((l.roller r).joinLoad .right v)
  | _, _ => l

theorem RollerStation.joinLoad_tare (x : RollerStation) (d : Side) (v : Int) : (x.joinLoad d v).tare = x.tare := by
  cases d <;> rfl

/-- What a load history's growth leaves alone. -/
structure HistoryGrown (old l : Live) : Prop where
  quiet : Quiet old l
  state : ∀ p, l.stationState p = old.stationState p
  tare : ∀ p, l.tare p = old.tare p
  chain : l.chain = old.chain
  seq : l.seq = old.seq

theorem Live.joinLoad_grown (l : Live) (r : Roller) (d : Side) (v : Int) :
    HistoryGrown l (l.setRoller r ((l.roller r).joinLoad d v)) :=
  ⟨Live.setRoller_quiet (.refl l) r _, l.setRoller_stationState r (RollerStation.joinLoad_state (l.roller r) d v),
    l.tare_setRoller r (RollerStation.joinLoad_tare _ d v), l.setRoller_chain r _, l.setRoller_seq r _⟩

theorem Live.joinsHistory_grown (l : Live) (st : Station) (role : Role) (v : Int) :
    HistoryGrown l (l.joinsHistory st role v) := by
  unfold Live.joinsHistory
  split
  · exact l.joinLoad_grown _ .left v
  · exact l.joinLoad_grown _ .right v
  · exact ⟨.refl l, fun _ => rfl, fun _ => rfl, rfl, rfl⟩

theorem Live.offerEvent_setRoller (l : Live) (f : Frame) (r : Roller) (x : RollerStation) :
    (l.offerEvent f).setRoller r x = (l.setRoller r x).offerEvent f := by
  unfold Live.offerEvent
  rw [Live.setRoller_chain, Live.setRoller_mgmt]
  split <;> cases r <;> rfl

theorem Live.offerEvent_joinsHistory (l : Live) (f : Frame) (st : Station) (role : Role) (v : Int) :
    (l.offerEvent f).joinsHistory st role v = (l.joinsHistory st role v).offerEvent f := by
  unfold Live.joinsHistory
  split
  · rw [Live.offerEvent_setRoller, (l.offerEvent_reacts f).roller]
  · rw [Live.offerEvent_setRoller, (l.offerEvent_reacts f).roller]
  · rfl

/-- The LOAD role of a side. -/
def loadRole : Side → Role
  | .left => .loadL
  | .right => .loadR

theorem Live.deliver_forceRole {d : Side} (hs : e.station = some (stationOf r)) (hrole : e.role = forceRole d) :
    l.deliver T i e cal v = (l.tareTake T (stationOf r) i cal).takeForce T r d v := by
  cases d <;> cases r <;> simp only [Live.deliver, hrole, hs, forceRole, stationOf, Live.deliverRoller]

theorem Live.deliver_loadRole {d : Side} (hs : e.station = some (stationOf r)) (hrole : e.role = loadRole d) :
    l.deliver T i e cal v =
      ((l.tareTake T (stationOf r) i cal).joinsHistory (stationOf r) (loadRole d) v).judgeLoad T r := by
  cases d <;> cases r <;> simp only [Live.deliver, hrole, hs, loadRole, stationOf, Live.deliverRoller] <;> rfl

theorem Live.deliver_plateDisp (hrole : e.role = .plateDisp) : l.deliver T i e cal v = l.takeDisplacement T i cal v := by
  simp only [Live.deliver, hrole]

/-- A roller station tares its FORCE and LOAD channels (R97). -/
theorem isTared_roller (h : isTared (stationOf r) e) : (∃ d, e.role = forceRole d) ∨ ∃ d, e.role = loadRole d := by
  have hroller : stationOf r ≠ .ps := by cases r <;> exact nofun
  rw [isTared, if_neg hroller] at h
  simp only [List.mem_cons, List.not_mem_nil, or_false] at h
  rcases h with h | h | h | h
  · exact .inl ⟨.left, h⟩
  · exact .inl ⟨.right, h⟩
  · exact .inr ⟨.left, h⟩
  · exact .inr ⟨.right, h⟩

theorem Live.joinsHistory_force (l : Live) (st : Station) (d : Side) (v : Int) : l.joinsHistory st (forceRole d) v = l := by
  cases st <;> cases d <;> rfl

theorem Live.takeForce_of_not_measuring (h : l.stationState (stationOf r) ≠ .measuring) (d : Side) (v : Int) :
    l.takeForce T r d v = l := by
  rw [← Live.roller_state] at h
  simp only [Live.takeForce, Live.measuringCapture_of_not_measuring h]

theorem Live.takeDisplacement_of_not_crossing (h : (l.tareTake T .ps i cal).stationState .ps ≠ .crossing) :
    l.takeDisplacement T i cal v = l.tareTake T .ps i cal := by
  unfold Live.takeDisplacement
  dsimp only
  split
  · exact absurd ‹_› h
  · rfl

/-- A load that does not rise to the seat threshold is no matter to a station that is TARING or at rest. -/
theorem Live.judgeLoad_of_low (hx : l.stationState (stationOf r) ∈ [StationState.taring, .idle, .offline])
    (hlow : ¬ T.settings.seat ≤ l.loadSum T r) : l.judgeLoad T r = l := by
  rw [← Live.roller_state] at hx
  simp only [List.mem_cons, List.not_mem_nil, or_false] at hx
  rcases hx with hx | hx | hx
  · simp only [Live.judgeLoad, hx, decide_eq_false hlow, Bool.false_eq_true, if_false, ge_iff_le]
  · exact Live.judgeLoad_still (.inr (.inl ⟨hx, hlow⟩))
  · exact Live.judgeLoad_still (.inl hx)

theorem Live.loadSum_of_steer (h : m.steer = l.steer) (r : Roller) : m.loadSum T r = l.loadSum T r := by
  simp only [Live.loadSum, Live.latest, h]

/-- A LOAD value brings the load sum of its station to the seat threshold (R98). -/
def Live.loadRises (T : Tables) (st : Station) (e : ChannelEntry) (r : Roller) (l : Live) : Prop :=
  st = stationOf r ∧ (e.role = .loadL ∨ e.role = .loadR) ∧ T.settings.seat ≤ l.loadSum T r

/-- A value of a tared channel: the tare takes it, and a LOAD value joins its history, where the station is then not at work and the
load does not rise. -/
theorem Live.deliver_tared (hs : e.station = some st) (htared : isTared st e)
    (hmeasuring : (l.tareTake T st i cal).stationState st ≠ .measuring)
    (hcrossing : (l.tareTake T st i cal).stationState st ≠ .crossing)
    (hload : e.role = .loadL ∨ e.role = .loadR → (l.tareTake T st i cal).stationState st ∈ [StationState.taring, .idle, .offline]
      ∧ ∀ r, ¬ (l.tareTake T st i cal).loadRises T st e r) :
    l.deliver T i e cal v = (l.tareTake T st i cal).joinsHistory st e.role v := by
  cases hr : stationRoller st with
  | none =>
    obtain rfl := stationRoller_none hr
    have hrole : e.role = .plateDisp := htared
    rw [Live.deliver_plateDisp hrole, Live.takeDisplacement_of_not_crossing hcrossing]
    rfl
  | some r =>
    obtain rfl := stationRoller_some hr
    rcases isTared_roller htared with ⟨d, hrole⟩ | ⟨d, hrole⟩
    · rw [Live.deliver_forceRole hs hrole, Live.takeForce_of_not_measuring hmeasuring, hrole, Live.joinsHistory_force]
    · have hside : e.role = .loadL ∨ e.role = .loadR := by rw [hrole]; cases d <;> simp [loadRole]
      obtain ⟨hrest, hrises⟩ := hload hside
      have hgrown := (l.tareTake T (stationOf r) i cal).joinsHistory_grown (stationOf r) (loadRole d) v
      rw [Live.deliver_loadRole hs hrole, hrole, Live.judgeLoad_of_low]
      · rw [hgrown.state]
        exact hrest
      · rw [Live.loadSum_of_steer hgrown.quiet.steer]
        exact fun hhigh => hrises r ⟨rfl, hside, hhigh⟩

theorem Live.loadRises.of_steer (h : m.steer = l.steer) (hrises : m.loadRises T st e r) : l.loadRises T st e r := by
  obtain ⟨hr, hrole, hhigh⟩ := hrises
  rw [Live.loadSum_of_steer h] at hhigh
  exact ⟨hr, hrole, hhigh⟩

end
end Sys2Proof.Machine
end

section
/-! ## What a value makes of a tare (R95 to R98; O50) -/

namespace Sys2Proof.Machine

section
variable {T : Tables} {l : Live} {st : Station} {r : Roller} {e : ChannelEntry} {k : TareContext} {i : Nat} {cal v : Int}

section
variable (hst : l.stationState st = .taring) (hk : (l.tare st).context = some k) (hs : e.station = some st)
include hst hk hs

/-- A value that leaves a tare short of some other: its channel has taken it (R95). -/
theorem Live.deliver_sums (htared : isTared st e) (hopen : ∃ y ∈ (k.takes i cal).channels, y.count ≠ 64)
    (hlow : ∀ r, ¬ l.loadRises T st e r) :
    (l.deliver T i e cal v).tare st = { l.tare st with context := some (k.takes i cal) }
      ∧ (∀ p, (l.deliver T i e cal v).stationState p = l.stationState p) ∧ (l.deliver T i e cal v).faults = l.faults
      ∧ (l.deliver T i e cal v).chain = l.chain ∧ (l.deliver T i e cal v).seq = l.seq := by
  have htake := Live.tareTake_of_open (T := T) hst hk hopen
  have hstate (p : Station) : (l.taresOn st (k.takes i cal)).stationState p = l.stationState p := l.setTare_stationState st _ p
  have hself : (l.taresOn st (k.takes i cal)).stationState st = .taring := (hstate st).trans hst
  have hdeliver : l.deliver T i e cal v = (l.taresOn st (k.takes i cal)).joinsHistory st e.role v := by
    rw [← htake]
    refine Live.deliver_tared hs htared ?_ ?_ fun _ => ⟨?_, fun r hrises => hlow r ?_⟩
    · rw [htake, hself]; exact nofun
    · rw [htake, hself]; exact nofun
    · rw [htake, hself]; exact List.mem_cons_self
    · rw [htake] at hrises
      exact hrises.of_steer (l.setTare_steer st _)
  have hgrown := (l.taresOn st (k.takes i cal)).joinsHistory_grown st e.role v
  rw [hdeliver]
  exact ⟨(hgrown.tare st).trans (l.tare_setTare st _), fun p => (hgrown.state p).trans (hstate p),
    hgrown.quiet.faults.trans (l.setTare_faults st _), hgrown.chain.trans (l.setTare_chain st _),
    hgrown.seq.trans (l.setTare_seq st _)⟩

/-- The 64th value of the last channel, every mean within its limit: the tare completes (R96). -/
theorem Live.deliver_completes (htared : isTared st e) (hawaits : k.awaits i)
    (hfull : ∀ y ∈ (k.takes i cal).channels, y.count = 64)
    (hpasses : ∀ y ∈ (k.takes i cal).channels, y.mean.natAbs ≤ y.limit T) (hlow : ∀ r, ¬ l.loadRises T st e r)
    (hfree : l.seqFree) : ∃ m : Live, l.deliver T i e cal v = m.event .tareDone (some st) 0 0
      ∧ m.tare st = (l.tare st).completed (k.takes i cal)
      ∧ (∀ p, m.stationState p = if p = st then (if k.service then .offline else .idle) else l.stationState p)
      ∧ m.faults = (l.endCondition .tareStale (.station st)).faults ∧ m.chain = l.chain ∧ m.seq = l.seq := by
  let fresh := l.tareFresh st (k.takes i cal)
  let left := fresh.leaveTaring T st k.service
  have hmoves : Moves st (if k.service then .offline else .idle) fresh left :=
    Live.leaveTaring_moves (hfree.of_seq (l.tareFresh_seq st _)) st k.service
  have hpass : (k.takes i cal).channels.find? (·.fails T) = none :=
    List.find?_eq_none.2 fun y hy => by rw [TareChannel.passes (hpasses y hy)]; exact Bool.false_ne_true
  have htake : l.tareTake T st i cal = left.event .tareDone (some st) 0 0 :=
    (Live.tareTake_of_full hst hk hawaits hfull).trans ((Live.tareJudged_of_passes hpass).trans
      (Live.tareDone_of_free hfree st (k.takes i cal)))
  have hsent := Live.event_reacts left .tareDone (some st) 0 0
  have hself : (l.tareTake T st i cal).stationState st = if k.service then .offline else .idle := by
    rw [htake, hsent.still.stationState, hmoves.state, if_pos rfl]
  have hsteer : (l.tareTake T st i cal).steer = l.steer := by
    rw [htake, (Live.event_quiet hmoves.quiet _ _ _ _).steer]
    exact l.setTare_steer st _
  have hdeliver : l.deliver T i e cal v = (l.tareTake T st i cal).joinsHistory st e.role v := by
    refine Live.deliver_tared hs htared ?_ ?_ fun _ => ⟨?_, fun r hrises => hlow r (hrises.of_steer hsteer)⟩
    · rw [hself]; split <;> exact nofun
    · rw [hself]; split <;> exact nofun
    · rw [hself]; split <;> simp
  have hgrown := left.joinsHistory_grown st e.role v
  refine ⟨left.joinsHistory st e.role v, ?_, ?_, fun p => ?_, ?_, ?_, ?_⟩
  · rw [hdeliver, htake]
    exact left.offerEvent_joinsHistory _ st e.role v
  · rw [hgrown.tare, hmoves.tare]
    exact l.tareFresh_tare st _
  · rw [hgrown.state, hmoves.state, show fresh.stationState p = l.stationState p from l.setTare_stationState st _ p]
  · rw [hgrown.quiet.faults, hmoves.quiet.faults]
    exact (Live.endCondition_faults _ _ _).trans (by rw [Live.setTare_faults]; rfl)
  · exact (hgrown.chain.trans hmoves.chain).trans (l.setTare_chain st _)
  · exact (hgrown.seq.trans hmoves.seq).trans (l.tareFresh_seq st _)

/-- The 64th value of the last channel, some mean out of range: nothing is replaced, and TARE_RANGE is raised (R97). -/
theorem Live.deliver_outOfRange (htared : isTared st e) (hrole : e.role ∈ [Role.forceL, .forceR, .plateDisp])
    (hawaits : k.awaits i) (hfull : ∀ y ∈ (k.takes i cal).channels, y.count = 64) {y : TareChannel}
    (hfails : (k.takes i cal).channels.find? (·.fails T) = some y) (hfree : l.seqFree) :
    l.deliver T i e cal v = (l.tareBarred T st k.service).raise T .tareRange (.station st) y.entry := by
  have htake : l.tareTake T st i cal = (l.tareBarred T st k.service).raise T .tareRange (.station st) y.entry :=
    (Live.tareTake_of_full hst hk hawaits hfull).trans ((Live.tareJudged_of_fails hfails).trans
      (Live.tareRange_of_free hfree st (k.takes i cal) y.entry))
  have hself : (l.tareTake T st i cal).stationState st ∈ [StationState.offline, .idle, .faulted, .releasing] := by
    rw [htake]
    rcases (Live.raiseWith_ordered (T := T) (l.tareBarred T st k.service) .tareRange (.station st) _ y.entry).state st with
      hkept | hordered
    · refine hkept.symm ▸ ?_
      rw [(Live.tareBarred_moves hfree st k.service).state, if_pos rfl]
      split <;> simp
    · exact List.mem_cons_of_mem _ (List.mem_cons_of_mem _ hordered)
  have hnoLoad : ¬ (e.role = .loadL ∨ e.role = .loadR) := by
    rintro (h | h) <;> rw [h] at hrole <;> simp at hrole
  have hhistory (m : Live) : m.joinsHistory st e.role v = m := by
    unfold Live.joinsHistory
    split
    · exact absurd (.inl ‹_›) hnoLoad
    · exact absurd (.inr ‹_›) hnoLoad
    · rfl
  rw [Live.deliver_tared hs htared (fun h => by rw [h] at hself; simp at hself) (fun h => by rw [h] at hself; simp at hself)
    fun h => absurd h hnoLoad, hhistory, htake]

end

/-! ### A rising load (R56, R98) -/

/-- A roller station that a rising load takes out of its tare: it settles, or is OFFLINE again after a service tare. -/
def Live.leavesForLoad (T : Tables) (r : Roller) (service : Bool) (l : Live) : Live :=
  if service then l.enterOffline T (stationOf r) else l.enterSettling T r

theorem Live.leavesForLoad_moves (hfree : l.seqFree) (r : Roller) (service : Bool) :
    Moves (stationOf r) (if service then .offline else .settling) l (l.leavesForLoad T r service) := by
  cases service with
  | true => exact Live.enterOffline_moves hfree (stationOf r)
  | false => exact Live.enterSettling_moves hfree r

theorem Live.judgeLoad_interrupts (hst : l.stationState (stationOf r) = .taring)
    (hk : (l.tare (stationOf r)).context = some k) (hhigh : T.settings.seat ≤ l.loadSum T r) (hfree : l.seqFree) :
    l.judgeLoad T r = ((l.dropTare (stationOf r)).leavesForLoad T r k.service).offerEvent
      (eventFrame .tareAborted (some (stationOf r)) 0 (beSigned32 (l.loadSum T r))) := by
  have hjudge : l.judgeLoad T r = l.tareInterrupted T r (l.loadSum T r) := by
    rw [← Live.roller_state] at hst
    simp only [Live.judgeLoad, hst, decide_eq_true (show l.loadSum T r ≥ _ from hhigh), if_true]
  have hdropped : (l.dropTare (stationOf r)).seqFree := hfree.of_seq (l.setTare_seq _ _)
  have hmoves := Live.leavesForLoad_moves (T := T) hdropped r k.service
  rw [hjudge, Live.tareInterrupted, hk]
  exact Live.tareAborted_of_free (hdropped.of_seq hmoves.seq) _ _

/-- A LOAD value that brings the load sum to the seat threshold aborts the tare (R98). -/
theorem Live.deliver_aborts (hst : l.stationState st = .taring) (hk : (l.tare st).context = some k) (hs : e.station = some st)
    (hopen : ∃ y ∈ (k.takes i cal).channels, y.count ≠ 64) (hrises : l.loadRises T st e r) (hfree : l.seqFree) :
    ∃ m : Live, l.deliver T i e cal v =
        m.offerEvent (eventFrame .tareAborted (some st) 0 (beSigned32 (l.loadSum T r)))
      ∧ m.tare st = { l.tare st with context := none }
      ∧ (∀ p, m.stationState p = if p = st then (if k.service then .offline else .settling) else l.stationState p)
      ∧ m.faults = l.faults ∧ m.chain = l.chain ∧ m.seq = l.seq := by
  obtain ⟨rfl, hside, hhigh⟩ := hrises
  obtain ⟨d, hrole⟩ : ∃ d, e.role = loadRole d := hside.elim (fun h => ⟨.left, h⟩) fun h => ⟨.right, h⟩
  let on := l.taresOn (stationOf r) (k.takes i cal)
  let joined := on.joinsHistory (stationOf r) (loadRole d) v
  have hgrown : HistoryGrown on joined := on.joinsHistory_grown (stationOf r) (loadRole d) v
  have hon (p : Station) : on.stationState p = l.stationState p := l.setTare_stationState _ _ p
  have htare : joined.tare (stationOf r) = { l.tare (stationOf r) with context := some (k.takes i cal) } :=
    (hgrown.tare _).trans (l.tare_setTare _ _)
  have hseq : joined.seq = l.seq := hgrown.seq.trans (l.setTare_seq _ _)
  have hsum : joined.loadSum T r = l.loadSum T r :=
    Live.loadSum_of_steer (hgrown.quiet.steer.trans (l.setTare_steer _ _)) r
  have hmoves := Live.leavesForLoad_moves (T := T) (l := joined.dropTare (stationOf r))
    (hfree.of_seq ((joined.setTare_seq _ _).trans hseq)) r k.service
  have hdeliver : l.deliver T i e cal v = ((joined.dropTare (stationOf r)).leavesForLoad T r k.service).offerEvent
      (eventFrame .tareAborted (some (stationOf r)) 0 (beSigned32 (l.loadSum T r))) := by
    rw [Live.deliver_loadRole hs hrole, Live.tareTake_of_open hst hk hopen, ← hsum]
    exact Live.judgeLoad_interrupts (k := k.takes i cal) ((hgrown.state _).trans ((hon _).trans hst))
      (congrArg Tare.context htare) (hsum ▸ hhigh) (hfree.of_seq hseq)
  refine ⟨_, hdeliver, ?_, fun p => ?_, ?_, ?_, hmoves.seq.trans ((joined.setTare_seq _ _).trans hseq)⟩
  · rw [hmoves.tare, Live.dropTare, Live.tare_setTare, htare]
  · rw [hmoves.state, Live.dropTare_stationState, hgrown.state, hon]
  · exact hmoves.quiet.faults.trans ((joined.setTare_faults _ _).trans (hgrown.quiet.faults.trans (l.setTare_faults _ _)))
  · exact hmoves.chain.trans ((joined.setTare_chain _ _).trans (hgrown.chain.trans (l.setTare_chain _ _)))

/-! ### The statement -/

/-- Settles O50: auto-tare and the age by whether their moment has come; a value by whether the tare has had its last, and how
its means and the load then stand. -/
theorem tareUpkeepActs : Obligations.TareUpkeepActs := by
  refine ⟨?upkeep, ?values⟩
  case upkeep =>
    intro s st hawake t interval fed old due older
    have hdue : due ↔ s.live.autoTareDue s.tables st = true := Live.autoTareDue_iff.symm
    have htick := Live.tareAgeDue_iff (l := s.live) (st := st)
    refine ⟨fun hnot => ?_, fun hconditions hfree hsilent hchannels => ?_, fun hnot => ?_, fun a ha hms => ?_⟩
    · rw [exec_autoTare hawake, if_neg (hdue.not.1 hnot), State.withLive_self]
    · have ⟨_, _, hidle, _⟩ := hconditions
      rw [exec_autoTare hawake, if_pos (hdue.1 hconditions), Live.beginTare_of_idle hidle hfree hsilent hchannels]
    · have hnever : ¬ s.live.tareAgeDue st = true := by
        rw [htick]
        rintro ⟨⟨a, ha⟩, hms⟩
        exact hnot.elim (fun h => by rw [show t.age = some a from ha] at h; cases h) (Nat.not_lt.2 hms)
      rw [exec_tareAgeTick hawake, if_neg hnever, State.withLive_self]
    · rw [exec_tareAgeTick hawake, if_pos (htick.2 ⟨⟨a, ha⟩, hms⟩), Live.tareTick_eq ha]
      dsimp only
      refine ⟨fun hyoung => ?_, fun hreached => ?_⟩
      · rw [if_neg (Nat.not_le.2 hyoung)]
        rfl
      · rw [if_pos (show s.tables.settings.tareInterval ≤ _ from hreached), Live.makeStale_setTare]
        refine ⟨fun hquiet => ?_, fun hfresh hpresent => ⟨_, rfl, ?_⟩⟩
        · rw [if_neg]
          · rfl
          · rintro ⟨hfresh, hpresent⟩
            rcases hquiet with h | h
            · exact absurd (h.symm.trans hfresh) nofun
            · exact absurd (h.symm.trans hpresent) nofun
        · rw [if_pos ⟨hfresh, hpresent⟩]
          exact (Live.setTare_quiet (.refl s.live) st _).raise_station _ st 0
  case values =>
    intro s src ch x i e c st k hx hs hst hk t l goes summed list limit rests rising taken
    let cal := calibrated s.tables e (signed16 x.toNat)
    have hstate (p : Station) : l.stationState p = s.live.stationState p := by cases p <;> rfl
    have htare : l.tare st = t := by cases st <;> rfl
    have hst' : l.stationState st = .taring := (hstate st).trans hst
    have hk' : (l.tare st).context = some k := (congrArg Tare.context htare).trans hk
    have hexec : goes (l.deliver s.tables i e cal (s.valueOf e x)) := hx.exec_eq
    refine ⟨fun htaken hopen hlow => ?_, fun htaken hawaits hfull hpasses hlow hfree => ?_,
      fun y htaken hrole hawaits hfull hentries hfails hfree => ?_, fun r hopen hrises hfree => ?_⟩
    · obtain ⟨hsum, hstates, hrest⟩ := Live.deliver_sums (T := s.tables) (cal := cal) (v := s.valueOf e x) hst' hk' hs htaken
        hopen hlow
      rw [htare] at hsum
      exact ⟨_, hexec, hsum, fun p => (hstates p).trans (hstate p), hrest⟩
    · obtain ⟨m, hm, hdone, hstates, hrest⟩ := Live.deliver_completes (T := s.tables) (cal := cal) (v := s.valueOf e x) hst' hk' hs
        htaken hawaits hfull hpasses hlow hfree
      rw [hm] at hexec
      rw [htare] at hdone
      exact ⟨m, hexec, hdone, fun p => (hstates p).trans (by rw [hstate]), hrest⟩
    · have hfirst := (TareContext.find_fails (T := s.tables) (i := i) (cal := cal) hentries).trans hfails
      have hmoves := Live.tareBarred_moves (T := s.tables) (l := l) hfree st k.service
      rw [Live.deliver_outOfRange hst' hk' hs htaken hrole hawaits hfull hfirst hfree] at hexec
      refine ⟨l.tareBarred s.tables st k.service, _, hexec, ?_, ?_, fun p => ?_, ?_, ?_, ?_⟩
      · exact ((Live.setTare_quiet (.refl l) st _).trans hmoves.quiet).raise_station _ st y.entry
      · rw [hmoves.tare, Live.tare_setTare, htare]
      · rw [hmoves.state, Live.setTare_stationState, hstate]
      · exact hmoves.quiet.faults.trans (l.setTare_faults st _)
      · exact hmoves.chain.trans (l.setTare_chain st _)
      · exact hmoves.seq.trans (l.setTare_seq st _)
    · obtain ⟨m, hm, hdropped, hstates, hrest⟩ := Live.deliver_aborts (T := s.tables) (cal := cal) (v := s.valueOf e x) hst' hk' hs
        hopen hrises hfree
      rw [hm] at hexec
      rw [htare] at hdropped
      exact ⟨m, hexec, hdropped, fun p => (hstates p).trans (by rw [hstate]), hrest⟩

end
end Sys2Proof.Machine
end

section
/-! ## VEHICLE_BEGIN (R115, R127, R191; O32) -/

namespace Sys2Proof.Machine
section
variable {T : Tables} {l : Live} {s : State} {i : Fin 4} {r : VehicleRecord} {a : List Byte}

/-! ### The arguments read back (R191) -/

theorem byte_toNat {n : Nat} (h : n < 256) : (byte n).toNat = n := by
  rw [byte, BitVec.toNat_ofNat, Nat.mod_eq_of_lt h]

theorem axleKindOfCode_axleKindCode (k : AxleKind) : axleKindOfCode (byte (axleKindCode k)).toNat = some k := by
  cases k <;> rfl

theorem readKinds_codes (ks : List AxleKind) : readKinds (ks.map fun k => byte (axleKindCode k)) = some ks := by
  unfold readKinds
  induction ks with
  | nil => rfl
  | cons k ks ih => rw [List.map_cons, List.mapM_cons, axleKindOfCode_axleKindCode, ih]; rfl

theorem readText_textArg {limit : Nat} {t : Option (List Byte)} (ht : textFits limit t) (hlimit : limit < 256)
    (rest : List Byte) : readText limit (textArg t ++ rest) = some (t, rest) := by
  cases t with
  | none => rfl
  | some x =>
    obtain ⟨hpos, hle, hchars⟩ := ht x rfl
    have hlength : (byte x.length).toNat = x.length := byte_toNat (by omega)
    have hx : (x ++ rest).take x.length = x := List.take_left
    have hall : x.all (fun c => decide (0x20 ≤ c.toNat ∧ c.toNat ≤ 0x7E)) = true :=
      List.all_eq_true.2 fun c hc => decide_eq_true (hchars c hc)
    change readText limit (byte x.length :: (x ++ rest)) = _
    simp only [readText, hlength, hx, List.drop_left]
    rw [if_pos ⟨hle, trivial, hall⟩, if_neg (by omega)]

/-- The arguments of a record, in their order. -/
theorem beginArgs_eq (r : VehicleRecord) : beginArgs r = byte r.cls :: byte (r.plan.getD 0xFF) :: byte r.kinds.length ::
    (r.kinds.map (fun k => byte (axleKindCode k)) ++ (textArg r.ident ++ (textArg r.date ++ (textArg r.operator ++ [])))) := by
  simp [beginArgs]

theorem Opening.freshRecord_eq (h : Opening r) :
    freshRecord r.cls r.plan r.expected r.kinds r.ident r.date r.operator = r := by
  obtain ⟨hforced, hrollerOnly⟩ := h.flags
  obtain ⟨haxles, htotal, hservice, hparking⟩ := h.empty
  obtain ⟨hverdict, hcode, hcount⟩ := h.unjudged
  cases r
  simp_all [freshRecord]

/-- The plan argument read back: 0xFF is no plan. -/
theorem Opening.plan_read (h : Opening r) : r.plan.getD 0xFF < 256 ∧ ¬ (7 < r.plan.getD 0xFF ∧ r.plan.getD 0xFF ≠ 0xFF)
    ∧ (if r.plan.getD 0xFF = 0xFF then none else some (r.plan.getD 0xFF)) = r.plan := by
  cases hp : r.plan with
  | none => decide
  | some n =>
    have hn := h.plan n hp
    rw [Option.getD_some, if_neg (by omega)]
    exact ⟨by omega, by omega, rfl⟩

/-- The arguments that a record makes give the record. -/
theorem readBegin_beginArgs (h : Opening r) : readBegin (beginArgs r) = some r := by
  obtain ⟨hone, hten, hkinds⟩ := h.count
  obtain ⟨hident, hdate, hoperator⟩ := h.texts
  obtain ⟨hbyte, hrange, hplan⟩ := h.plan_read
  have hcls := h.cls
  have h0 : rd (beginArgs r) 0 = r.cls := by rw [beginArgs_eq]; exact rd_byte (p := []) rfl (by omega)
  have h1 : rd (beginArgs r) 1 = r.plan.getD 0xFF := by rw [beginArgs_eq]; exact rd_byte (p := [_]) rfl hbyte
  have h2 : rd (beginArgs r) 2 = r.kinds.length := by rw [beginArgs_eq]; exact rd_byte (p := [_, _]) rfl (by omega)
  have hks : ((beginArgs r).drop 3).take r.kinds.length = r.kinds.map fun k => byte (axleKindCode k) := by
    rw [beginArgs_eq]
    exact List.take_left' (List.length_map _)
  have htexts : (beginArgs r).drop (3 + r.kinds.length) =
      textArg r.ident ++ (textArg r.date ++ (textArg r.operator ++ [])) := by
    rw [← List.drop_drop, beginArgs_eq]
    exact List.drop_left' (List.length_map _)
  have hlong : 3 + r.kinds.length ≤ (beginArgs r).length := by
    simp only [beginArgs_eq, List.length_cons, List.length_append, List.length_map]
    omega
  have hfits : ¬ ((beginArgs r).length < 3 + r.kinds.length ∨ 7 < r.cls ∨ (7 < r.plan.getD 0xFF ∧ r.plan.getD 0xFF ≠ 0xFF)
      ∨ r.kinds.length < 1 ∨ 10 < r.kinds.length) := by
    omega
  simp only [readBegin, h0, h1, h2, if_neg hfits, hks, readKinds_codes, htexts, readText_textArg hident (by decide),
    readText_textArg hdate (by decide), readText_textArg hoperator (by decide), hplan]
  rw [hkinds, h.freshRecord_eq]

/-! ### The slot (R115) -/

theorem Live.freeSlot_of_firstFree (h : firstFree l i) : l.freeSlot = some i := by
  obtain ⟨hfree, hbefore⟩ := h
  have hget : ∀ (j : Nat) (hj : j < 4), fourIndices[j]'hj = ⟨j, hj⟩ := by decide
  refine List.find?_eq_some_iff_getElem.2 ⟨beq_iff_eq.2 hfree, i.val, i.isLt, hget _ _, fun j hj => ?_⟩
  have hj' : j < 4 := Nat.lt_trans hj i.isLt
  have hno : l.slotState (fourIndices[j]'hj') ≠ .free := by
    rw [hget j hj']
    exact hbefore _ hj
  exact Bool.not_eq_true' _ ▸ beq_eq_false_iff_ne.2 hno

theorem Live.freeSlot_of_none (h : ∀ i, l.slotState i ≠ .free) : l.freeSlot = none :=
  List.find?_eq_none.2 fun i _ hi => h i (beq_iff_eq.1 hi)

/-! ### The answers, in their order (R115) -/

/-- The regions that a record needs are VALID (R115). -/
theorem regionsForRecord_iff {m : LaneMode} : regionsForRecord T m = true ↔ T.valid .lane = true ∧ T.valid .channels = true
    ∧ T.valid .segments = true ∧ T.valid .limits = true ∧ (m = .auto → T.valid .plans = true) := by
  have hplans : (m != .auto || T.valid .plans) = true ↔ (m = .auto → T.valid .plans = true) := by
    cases m <;> simp
  simp only [regionsForRecord, Bool.and_eq_true, hplans, and_assoc]

theorem planFits_iff : planFits T r = true ↔ ∃ n, r.plan = some n ∧ n < T.planCount ∧ (T.plan n).cls = r.cls := by
  unfold planFits
  cases r.plan <;> simp

/-- A record could be opened now: none is OPEN, and the mode is not SERVICE (R115). -/
def Live.takesRecord (l : Live) : Prop := l.openSlot = none ∧ l.mode ≠ .service

theorem Live.takesRecord.not_refused (h : l.takesRecord) : ¬ (l.openSlot.isSome = true ∨ l.mode = .service) := by
  obtain ⟨hslot, hmode⟩ := h
  simp [hslot, hmode]

theorem vehicleBeginRequest_state (hread : readBegin a = some r) (h : ¬ l.takesRecord) :
    vehicleBeginRequest T a l = refuse T l .state := by
  have hrefused : l.openSlot.isSome = true ∨ l.mode = .service := by
    cases hslot : l.openSlot with
    | none => exact .inr (not_not.1 fun hmode => h ⟨hslot, hmode⟩)
    | some j => exact .inl rfl
  simp only [vehicleBeginRequest, hread, if_pos hrefused]

theorem vehicleBeginRequest_full (hread : readBegin a = some r) (h : l.takesRecord) (hfull : ∀ i, l.slotState i ≠ .free) :
    vehicleBeginRequest T a l = refuse T l .full := by
  simp only [vehicleBeginRequest, hread, if_neg h.not_refused, Live.freeSlot_of_none hfull]

/-- With a FREE slot the tables, the level and, in AUTO mode, the plan are judged in this order. -/
theorem vehicleBeginRequest_firstFree (hread : readBegin a = some r) (h : l.takesRecord) (hi : firstFree l i) :
    vehicleBeginRequest T a l = if regionsForRecord T l.mode = false then refuse T l .invalidTable
      else if l.level = 3 then refuse T l .locked
      else if l.mode = .auto then
        if planFits T r then accept T (l.openRecordIn i r) [byte (slotNumber i)] else refuse T l .arg
      else accept T (l.openRecordIn i { r with plan := none }) [byte (slotNumber i)] := by
  simp only [vehicleBeginRequest, hread, if_neg h.not_refused, Live.freeSlot_of_firstFree hi]

theorem vehicleBeginRequest_invalidTable (hread : readBegin a = some r) (h : l.takesRecord) (hi : firstFree l i)
    (hv : ¬ regionsForRecord T l.mode = true) : vehicleBeginRequest T a l = refuse T l .invalidTable := by
  rw [vehicleBeginRequest_firstFree hread h hi, if_pos (Bool.eq_false_iff.2 hv)]

theorem vehicleBeginRequest_locked (hread : readBegin a = some r) (h : l.takesRecord) (hi : firstFree l i)
    (hv : regionsForRecord T l.mode = true) (hlock : l.level = 3) : vehicleBeginRequest T a l = refuse T l .locked := by
  rw [vehicleBeginRequest_firstFree hread h hi, if_neg (by simp [hv]), if_pos hlock]

theorem vehicleBeginRequest_arg (hread : readBegin a = some r) (h : l.takesRecord) (hi : firstFree l i)
    (hv : regionsForRecord T l.mode = true) (hlock : l.level ≠ 3) (hauto : l.mode = .auto) (hno : ¬ planFits T r = true) :
    vehicleBeginRequest T a l = refuse T l .arg := by
  rw [vehicleBeginRequest_firstFree hread h hi, if_neg (by simp [hv]), if_neg hlock, if_pos hauto, if_neg hno]

/-- The state with a record opened in a slot, and the sequencer's items as given (R115, R127). -/
def Live.opensIn (i : Fin 4) (r : VehicleRecord) (q : Seq) (l : Live) : Live :=
  { l with
    records := { l.records with slots := l.records.slots.set i { state := .opened, record := some r } }
    mgmt := { l.mgmt with recordCursor := l.mgmt.recordCursor.set i none }
    seq := q }

/-- In AUTO mode the sequencer begins (R127). -/
theorem Live.openRecordIn_auto (hauto : l.mode = .auto) : l.openRecordIn i r =
    l.opensIn i r { Seq.reset with state := if l.level = 2 then .paused else .running } :=
  if_pos hauto

theorem Live.openRecordIn_manual (hmanual : l.mode = .manual) : l.openRecordIn i r = l.opensIn i r l.seq :=
  if_neg (by simp [hmanual])

theorem vehicleBeginRequest_auto (hread : readBegin a = some r) (h : l.takesRecord) (hi : firstFree l i)
    (hv : regionsForRecord T l.mode = true) (hlock : l.level ≠ 3) (hauto : l.mode = .auto) (hp : planFits T r = true) :
    vehicleBeginRequest T a l = accept T
      (l.opensIn i r { Seq.reset with state := if l.level = 2 then .paused else .running }) [byte (slotNumber i)] := by
  rw [vehicleBeginRequest_firstFree hread h hi, if_neg (by simp [hv]), if_neg hlock, if_pos hauto, if_pos hp,
    Live.openRecordIn_auto hauto]

theorem vehicleBeginRequest_manual (hread : readBegin a = some r) (h : l.takesRecord) (hi : firstFree l i)
    (hv : regionsForRecord T l.mode = true) (hlock : l.level ≠ 3) (hmanual : l.mode = .manual) :
    vehicleBeginRequest T a l = accept T (l.opensIn i { r with plan := none } l.seq) [byte (slotNumber i)] := by
  rw [vehicleBeginRequest_firstFree hread h hi, if_neg (by simp [hv]), if_neg hlock, if_neg (by simp [hmanual]),
    Live.openRecordIn_manual hmanual]

/-- Settles O32: the arguments of the record are read back, and the refusals are judged in their order. -/
theorem vehicleBeginOpensTheFirstFreeSlot : Obligations.VehicleBeginOpensTheFirstFreeSlot := by
  intro s r hr hasks T l refused free valid planned opened
  have hread := readBegin_beginArgs hr
  have hexec := fun {x : Answered} => exec_answered (row := .vehicleBegin) (f := vehicleBeginRequest) (x := x) hasks rfl rfl
  have hvalid : regionsForRecord T s.taking.mode = true ↔ valid := regionsForRecord_iff
  have hplanned : planFits T r = true ↔ planned := planFits_iff
  refine ⟨fun hno => hexec (vehicleBeginRequest_state hread hno),
    fun hfree hfull => hexec (vehicleBeginRequest_full hread hfree hfull), fun i hfree hi => ⟨fun hv => ?_, fun hv hlock => ?_,
      fun hv hlock hauto hno => ?_, fun hv hlock hauto hp => ?_, fun hv hlock hmanual => ?_⟩⟩
  · exact hexec (vehicleBeginRequest_invalidTable hread hfree hi fun hregions => hv (hvalid.1 hregions))
  · exact hexec (vehicleBeginRequest_locked hread hfree hi (hvalid.2 hv) hlock)
  · exact hexec (vehicleBeginRequest_arg hread hfree hi (hvalid.2 hv) hlock hauto fun hfits => hno (hplanned.1 hfits))
  · exact hexec (vehicleBeginRequest_auto hread hfree hi (hvalid.2 hv) hlock hauto (hplanned.2 hp))
  · exact hexec (vehicleBeginRequest_manual hread hfree hi (hvalid.2 hv) hlock hmanual)

end
end Sys2Proof.Machine
end

section
/-! ## The board does not read the sequencer (R166, R170, R171; O47) -/

namespace Sys2Proof.Machine
section
variable {T : Tables}

theorem Live.admitDown?_setSeq (l : Live) (q : Seq) (f : DownFrame) :
    (l.setSeq q).admitDown? f = (l.admitDown? f).map (Live.setSeq q) := by
  unfold Live.admitDown?
  split
  · next h => rw [if_pos (show l.chain.down.length < downLevel f.source from h)]; rfl
  · next h => rw [if_neg (show ¬ l.chain.down.length < downLevel f.source from h)]; rfl

theorem Live.event_setSeq (l : Live) (q : Seq) (c : EventCode) (st : Option Station) (a v : Nat) :
    (l.setSeq q).event c st a v = (l.event c st a v).setSeq q := by
  unfold Live.event Live.offerEvent
  split
  · next h => rw [if_pos (show l.chain.up.length < Config.upCapacity from h)]; rfl
  · next h => rw [if_neg (show ¬ l.chain.up.length < Config.upCapacity from h)]; rfl

theorem Live.markLine_setSeq (q : Seq) (l : Live) (i : Fin 4) : (l.setSeq q).markLine T i = (l.markLine T i).setSeq q := by
  have hline : (l.setSeq q).renderLine T i.val = l.renderLine T i.val := rfl
  simp only [Live.markLine, hline, Live.setSeq_guide]
  split <;> rfl

theorem Live.offerLine_setSeq (q : Seq) (l : Live) (i : Fin 4) : (l.setSeq q).offerLine T i = (l.offerLine T i).setSeq q := by
  have hline : (l.setSeq q).renderLine T i.val = l.renderLine T i.val := rfl
  simp only [Live.offerLine, hline, Live.setSeq_guide, Live.admitDown?_setSeq]
  split
  · cases l.admitDown? _ <;> rfl
  · rfl

theorem Live.render_setSeq (l : Live) (q : Seq) : (l.setSeq q).render T = (l.render T).setSeq q := by
  have hmark := List.foldl_hom (Live.setSeq q) (g₁ := fun x i => x.markLine T i) (g₂ := fun x i => x.markLine T i)
    (l := fourIndices) (init := l) (Live.markLine_setSeq q)
  simp only [Live.render]
  rw [hmark, List.foldl_hom (Live.setSeq q) (g₁ := fun x i => x.offerLine T i) (Live.offerLine_setSeq q)]
  split <;> rfl

theorem Live.setQueue_setSeq (l : Live) (q : Seq) (es : List PromptEntry) :
    (l.setSeq q).setQueue T es = (l.setQueue T es).setSeq q := by
  by_cases hhead : headMark es = headMark l.guide.queue
  · have hchanged : (l.setSeq q).setQueue T es = (l.setGuide { l.guide with queue := es }).setSeq q := if_pos hhead
    have hqueue : l.setQueue T es = l.setGuide { l.guide with queue := es } := if_pos hhead
    rw [hchanged, hqueue]
  · let headed := l.setGuide { l.guide with queue := es, holdTimer := if es.isEmpty then none else some 0 }
    have hchanged : (l.setSeq q).setQueue T es = (headed.setSeq q).render T := if_neg hhead
    have hqueue : l.setQueue T es = headed.render T := if_neg hhead
    rw [hchanged, hqueue, Live.render_setSeq]

/-- A post does not read the sequencer's items, and leaves them (R166). -/
theorem Live.postPrompt_setSeq (l : Live) (q : Seq) (n : Nat) (o : PromptOrigin) (b : Bool) (ls : List (Source × Scope)) :
    (l.setSeq q).postPrompt T n o b ls = (l.postPrompt T n o b ls).setSeq q := by
  have hentry : ∀ ls', (l.setSeq q).promptEntry T n o b ls' = l.promptEntry T n o b ls' := fun _ => rfl
  have hnext : ∀ g, (l.setSeq q).setGuide g = (l.setGuide g).setSeq q := fun _ => rfl
  simp only [Live.postPrompt, hentry, hnext, Live.setSeq_guide, Live.setQueue_setSeq, Live.event_setSeq]
  split
  · rfl
  · split
    · split <;> rfl
    · rfl

end
end Sys2Proof.Machine
end

section
/-! ## The sequencer takes a unit that makes no request (R116, R128 to R131, R133 to R135, R140; O47) -/

namespace Sys2Proof.Machine
section
variable {T : Tables} {l : Live} {s : State} {p : Plan} {u : PlanUnit} {st : Station} {i : Fin 4} {r : VehicleRecord}
variable {o : Option Station} {b : List Byte} {c : AwaitCondition} {t n : Nat} {halt stepEnd : Bool}

/-! ### Before the step (R128, R133 to R135) -/

theorem exec_sequencerTakeUnit_of_other (hawake : s.awake) (hrun : s.live.seq.state ≠ .running) :
    exec .sequencerTakeUnit s = .next s :=
  (congrArg Host.Outcome.next (State.onLive_awake _ hawake)).trans (by rw [if_neg hrun]; rfl)

/-- Where no unit is left the plan has ended (R128). -/
theorem Live.takeUnit_of_end (hplan : l.plan? T = some p) (hunit : p.unitAt l.seq.pointer = none) :
    l.takeUnit T = l.planClose T := by
  simp only [Live.takeUnit, hplan, hunit]

theorem Live.takeUnit_of_lock (hat : AtUnit T p u l) (hlevel : l.level = 3) : l.takeUnit T = l.seqRest .locked := by
  simp only [Live.takeUnit, hat.plan, hat.unit, if_pos hlevel]

theorem Live.takeUnit_of_stop (hat : AtUnit T p u l) (hlevel : l.level = 2) : l.takeUnit T = l.seqRest .paused := by
  have hlock : ¬ l.level = 3 := by omega
  simp only [Live.takeUnit, hat.plan, hat.unit, if_neg hlock, if_pos hlevel]

theorem Live.judgeUnit_faulted (hu : u.station = some st) (hx : l.stationState st = .faulted) :
    l.judgeUnit T p u = l.seqHold st := by
  have hsome : u.station.filter (fun st => l.stationState st == .faulted) = some st := by
    rw [hu, Option.filter_some, if_pos (by rw [hx]; rfl)]
  simp only [Live.judgeUnit, hsome]

/-- The unit's station, where it has one, is not FAULTED. -/
def Live.unitWorks (u : PlanUnit) (l : Live) : Prop := ∀ st, u.station = some st → l.stationState st ≠ .faulted

theorem Live.unitWorks.choose (h : l.unitWorks u) : (l.choose u).unitWorks u := fun st hu hx =>
  h st hu (((Live.setSeq_still (.refl l) _).stationState st).symm.trans hx)

theorem Live.unitWorks.filter_faulted (h : l.unitWorks u) :
    u.station.filter (fun st => l.stationState st == .faulted) = none := by
  cases hu : u.station with
  | none => rfl
  | some st => rw [Option.filter_some, if_neg (by simpa using h st hu)]

theorem Live.judgeUnit_skips (h : l.unitWorks u) (hrecord : u.record = .capture o b)
    (harmed : l.seq.armedSkip = some l.seq.pointer) : l.judgeUnit T p u = l.takeSkipped u b := by
  simp only [Live.judgeUnit, h.filter_faulted, hrecord, harmed, beq_self_eq_true]

/-- A step that is no CAPTURE is taken, or HALTED on an OFFLINE station that it needs (R128). -/
theorem Live.judgeUnit_of_no_capture (h : l.unitWorks u) (hno : ∀ o b, u.record ≠ .capture o b) : l.judgeUnit T p u =
    if u.record.needsStation && l.unitStationIs u .offline then l.seqHalt T else l.takeStep T p u := by
  simp only [Live.judgeUnit, h.filter_faulted]
  split
  · exact absurd ‹_› (hno _ _)
  · rfl

theorem Live.judgeUnit_offline (hu : u.station = some st) (hx : l.stationState st = .offline)
    (hneeds : u.record.needsStation = true) : l.judgeUnit T p u = l.seqHalt T := by
  have hworks : l.unitWorks u := fun st' hu' hx' => by
    cases hu.symm.trans hu'
    cases hx.symm.trans hx'
  have hoff : l.unitStationIs u .offline = true := by simp only [Live.unitStationIs, hu, hx, beq_self_eq_true]
  have hno : ∀ o b, u.record ≠ .capture o b := fun o b hrecord => by
    rw [hrecord] at hneeds
    cases hneeds
  rw [Live.judgeUnit_of_no_capture hworks hno, hneeds, hoff]
  rfl

theorem Live.judgeUnit_of_present (h : l.unitWorks u) (hno : ∀ o b, u.record ≠ .capture o b) (hu : u.station = some st)
    (hx : l.stationState st ≠ .offline) : l.judgeUnit T p u = l.takeStep T p u := by
  have hoff : l.unitStationIs u .offline = false := by simpa only [Live.unitStationIs, hu, beq_eq_false_iff_ne] using hx
  rw [Live.judgeUnit_of_no_capture h hno, hoff, Bool.and_false]
  rfl

theorem Live.judgeUnit_of_stationless (h : l.unitWorks u) (hno : ∀ o b, u.record ≠ .capture o b)
    (hneeds : u.record.needsStation = false) : l.judgeUnit T p u = l.takeStep T p u := by
  rw [Live.judgeUnit_of_no_capture h hno, hneeds, Bool.false_and]
  rfl

/-! ### Steps that wait (R129, R130) -/

/-- A SEAT is met by a station that is SEATED and bound (R130). -/
theorem Live.waitSees_seat (hwait : l.seq.wait = some (.seat st)) (hx : l.stationState st ≠ .faulted) : l.waitSees T st =
    if l.stationState st = .seated ∧ (l.bound st).isSome = true then l.stepDone T else l := by
  simp only [Live.waitSees, hwait, if_true, if_neg hx]

/-- An AWAIT is met by the state of its station (R130): AXLE_EXIT, CONFIRM and DELAY by none. -/
def AwaitCondition.metBy (c : AwaitCondition) (x : StationState) : Prop :=
  (c = .stationReady ∧ x = .ready) ∨ (c = .stationSeated ∧ x = .seated)

theorem Live.waitSees_await_met (hwait : l.seq.wait = some (.await c st t halt)) (hmet : c.metBy (l.stationState st)) :
    l.waitSees T st = l.stepDone T := by
  rcases hmet with ⟨rfl, hx⟩ | ⟨rfl, hx⟩ <;> simp [Live.waitSees, hwait, hx]

/-- An AWAIT that its station does not meet goes on. -/
theorem Live.waitSees_await_unmet (hwait : l.seq.wait = some (.await c st t halt)) (hx : l.stationState st ≠ .faulted)
    (hmet : ¬ c.metBy (l.stationState st)) : l.waitSees T st = l := by
  unfold AwaitCondition.metBy at hmet
  cases c with
  | confirm | delay | axleExit => simp [Live.waitSees, hwait, hx]
  | stationReady | stationSeated =>
    have hstate := by simpa using hmet
    simp [Live.waitSees, hwait, hx, hstate]

/-- The sequencer's items while it waits on something. -/
def Seq.waits (q : Seq) (on : SeqWait) : Seq := { q with state := .waiting, wait := some on }

/-- The sequencer's items while it waits for an AWAIT, whose timer starts at 0. -/
def Seq.awaits (q : Seq) (c : AwaitCondition) (st : Station) (t : Nat) (halt : Bool) : Seq :=
  { q with state := .waiting, wait := some (.await c st t halt), awaitTimer := some 0 }

theorem Live.setSeq_stationState (l : Live) (q : Seq) (st : Station) : (l.setSeq q).stationState st = l.stationState st :=
  (Live.setSeq_still (.refl l) q).stationState st

theorem Live.setSeq_bound (l : Live) (q : Seq) (st : Station) : (l.setSeq q).bound st = l.bound st :=
  Live.bound_of_tracker rfl st

theorem Live.takeStep_seat_waits (hrecord : u.record = .seat o) (hu : u.station = some st) (hx : l.stationState st ≠ .faulted)
    (hno : l.stationState st ≠ .seated ∨ l.bound st = none) : l.takeStep T p u = l.setSeq (l.seq.waits (.seat st)) := by
  have hsees := Live.waitSees_seat (T := T) (l := l.setSeq (l.seq.waits (.seat st))) (st := st) rfl
    (by rwa [Live.setSeq_stationState])
  rw [Live.setSeq_stationState, Live.setSeq_bound, if_neg fun ⟨hseated, hbound⟩ =>
    hno.elim (· hseated) fun hnone => by simp [hnone] at hbound] at hsees
  simp only [Live.takeStep, hrecord, hu]
  exact hsees

theorem Live.takeStep_seat_met (hat : AtUnit T p u l) (hplain : l.seq.Plain) (hrecord : u.record = .seat o)
    (hu : u.station = some st) (hx : l.stationState st = .seated) (hb : l.bound st ≠ none) :
    l.takeStep T p u = l.setSeq (l.seq.stepped u) := by
  have hsees := Live.waitSees_seat (T := T) (l := l.setSeq (l.seq.waits (.seat st))) (st := st) rfl
    (by rw [Live.setSeq_stationState, hx]; decide)
  rw [Live.setSeq_stationState, Live.setSeq_bound, if_pos ⟨hx, Option.isSome_iff_ne_none.2 hb⟩] at hsees
  simp only [Live.takeStep, hrecord, hu]
  exact hsees.trans (Live.stepDone_plain (hat.setSeq rfl) ⟨hplain.prompt, hplain.pause, hplain.again⟩)

theorem Live.takeStep_await_waits (hrecord : u.record = .await c t halt) (hu : u.station = some st)
    (hx : l.stationState st ≠ .faulted) (hno : ¬ c.metBy (l.stationState st)) :
    l.takeStep T p u = l.setSeq (l.seq.awaits c st t halt) := by
  simp only [Live.takeStep, hrecord, hu]
  exact Live.waitSees_await_unmet (l := l.setSeq (l.seq.awaits c st t halt)) rfl (by rwa [Live.setSeq_stationState])
    (by rwa [Live.setSeq_stationState])

/-- An AWAIT that its station meets already ends at once. -/
theorem Live.takeStep_await_met (hat : AtUnit T p u l) (hplain : l.seq.Plain) (hrecord : u.record = .await c t halt)
    (hu : u.station = some st) (hmet : c.metBy (l.stationState st)) : l.takeStep T p u = l.setSeq (l.seq.stepped u) := by
  have hsees := Live.waitSees_await_met (T := T) (l := l.setSeq (l.seq.awaits c st t halt)) (st := st) rfl
    (by rwa [Live.setSeq_stationState])
  simp only [Live.takeStep, hrecord, hu]
  exact hsees.trans (Live.stepDone_plain (hat.setSeq rfl) ⟨hplain.prompt, hplain.pause, hplain.again⟩)

/-! ### PROMPT, ADVANCE and CLOSE (R131) -/

/-- A step-end prompt that the step leaves alone, and nothing else that waits for its end. -/
theorem Live.stepDone_of_endStepPrompt (hat : AtUnit T p u l) (hend : l.endStepPrompt T u = l)
    (hpause : l.seq.pausePending = false) (hagain : l.seq.pendingRepeat = false) :
    l.stepDone T = l.setSeq (l.seq.stepped u) := by
  simp only [Live.stepDone, hat.currentUnit, hend]
  refine (if_neg (Bool.eq_false_iff.1 (show (Live.setSeq _ l).seq.pausePending = false from hpause))).trans ?_
  exact if_neg (Bool.eq_false_iff.1 hagain)

/-- A PROMPT step keeps the step-end prompt that it records (R131; log 23). -/
theorem Live.endStepPrompt_of_prompt (hrecord : u.record = .prompt n stepEnd)
    (hprompt : l.seq.stepEndPrompt = if stepEnd then some n else none) : l.endStepPrompt T u = l := by
  cases stepEnd with
  | false => simp only [Live.endStepPrompt, hrecord, hprompt, Bool.false_eq_true, if_false]
  | true => simp only [Live.endStepPrompt, hrecord]

theorem Live.takePrompt_plain (hat : AtUnit T p u l) (hplain : l.seq.Plain) (hrecord : u.record = .prompt n stepEnd) :
    l.takePrompt T n stepEnd = (l.postPrompt T n .step stepEnd []).setSeq
      { l.seq.stepped u with stepEndPrompt := if stepEnd then some n else none } := by
  have hseq := (l.postPrompt_shows (T := T) n .step stepEnd []).seq
  have hposted : AtUnit T p u (l.postPrompt T n .step stepEnd []) :=
    hat.quiet (Live.postPrompt_quiet (.refl l) _ _ _ _) (congrArg Seq.pointer hseq)
  unfold Live.takePrompt
  generalize l.postPrompt T n .step stepEnd [] = m at hseq hposted
  let recorded := m.setSeq { l.seq with stepEndPrompt := if stepEnd then some n else none }
  have hrecorded : (if stepEnd then m.setSeq { m.seq with stepEndPrompt := some n } else m) = recorded := by
    cases stepEnd with
    | false =>
      have hsame : ({ l.seq with stepEndPrompt := none } : Seq) = m.seq := by rw [← hplain.prompt, hseq]
      exact (congrArg (fun q => Live.setSeq q m) hsame).symm
    | true => rw [if_pos rfl, hseq]; rfl
  have hat' : AtUnit T p u recorded := hposted.setSeq (show l.seq.pointer = m.seq.pointer by rw [hseq])
  refine (congrArg (Live.stepDone T) hrecorded).trans ?_
  exact Live.stepDone_of_endStepPrompt hat' (Live.endStepPrompt_of_prompt hrecord rfl) hplain.pause hplain.again

theorem Live.takeStep_prompt (hrecord : u.record = .prompt n stepEnd) : l.takeStep T p u = l.takePrompt T n stepEnd := by
  simp only [Live.takeStep, hrecord]

theorem Live.takeStep_advance (hrecord : u.record = .advance) (hr : l.openRecord = some r) : l.takeStep T p u =
    if r.axles.countP (·.state == .done) < r.expected then l.setSeq
      { l.seq with pointer := p.loopStart, mods := none, armedSkip := none, repeatMark := none }
    else l.stepDone T := by
  simp only [Live.takeStep, hrecord, Live.takeAdvance, hr]
  rfl

theorem Live.takeStep_advance_done (hat : AtUnit T p u l) (hplain : l.seq.Plain) (hrecord : u.record = .advance)
    (hr : l.openRecord = some r) (hcount : r.expected ≤ r.axles.countP (·.state == .done)) :
    l.takeStep T p u = l.setSeq (l.seq.stepped u) := by
  rw [Live.takeStep_advance hrecord hr, if_neg (Nat.not_lt.2 hcount), Live.stepDone_plain hat hplain]

theorem Live.takeStep_close (hrecord : u.record = .close) : l.takeStep T p u = l.planClose T := by
  simp only [Live.takeStep, hrecord]

/-! ### The armed skip (R140) -/

theorem Live.markBrake_tracker (l : Live) (st : Station) (part : BrakePart) (f : Part BrakeResult → Part BrakeResult) :
    (l.markBrake st part f).tracker = l.tracker :=
  (Live.markBrake_quiet (.refl l) st part f).tracker

/-- The target part of an axle is marked for the stations bound to it, and for no other. -/
theorem Live.markBrake_skips {k : Nat} {a : AxleRecord} (ha : l.axle? k = some a) (st : Station) (part : BrakePart) :
    ∃ a', (l.markBrake st part skipPart).axle? k = some a'
      ∧ a'.brake part = if l.bound st = some k then skipPart (a.brake part) else a.brake part := by
  by_cases hb : l.bound st = some k
  · refine ⟨_, ?_, (a.brake_setBrake part _).trans (if_pos hb).symm⟩
    simp only [Live.markBrake, hb]
    exact Live.axle?_updAxle_self ha fun x => x.setBrake_index _ _
  · refine ⟨a, ?_, (if_neg hb).symm⟩
    unfold Live.markBrake
    split
    · next j hj => exact (Live.axle?_updAxle_other l (fun he => hb (hj.trans (congrArg some he)))
        fun x => x.setBrake_index _ _).trans ha
    · exact ha

/-- Marks of several stations: a part that is marked twice is marked. -/
theorem Live.markBrakes_skip {k : Nat} (part : BrakePart) : ∀ (sts : List Station) {l : Live} {a : AxleRecord},
    l.axle? k = some a → ∃ a', (sts.foldl (fun x st => x.markBrake st part skipPart) l).axle? k = some a'
      ∧ a'.brake part = if ∃ st ∈ sts, l.bound st = some k then skipPart (a.brake part) else a.brake part
  | [], l, a, ha => ⟨a, ha, (if_neg fun ⟨_, hst, _⟩ => List.not_mem_nil hst).symm⟩
  | st :: sts, l, a, ha => by
    obtain ⟨a', ha', hone⟩ := Live.markBrake_skips ha st part
    obtain ⟨a'', ha'', hrest⟩ := Live.markBrakes_skip part sts ha'
    refine ⟨a'', ha'', hrest.trans ?_⟩
    have hbound : ∀ x, (l.markBrake st part skipPart).bound x = l.bound x := Live.bound_of_tracker (l.markBrake_tracker _ _ _)
    have htwice : skipPart (skipPart (a.brake part)) = skipPart (a.brake part) := rfl
    simp only [hone, hbound, List.exists_mem_cons_iff]
    by_cases hst : l.bound st = some k <;> simp [hst, htwice]

/-- What an armed skip leaves: the flag of its parts is set, and the sequencer goes on (R140). -/
structure SkipTaken (u : PlanUnit) (b : List Byte) (old l : Live) : Prop where
  still : Still old l
  quiet : Quiet old l
  parts : let c := captureSettings b u.mods.part u.mods.limitRow
    ∀ st ∈ captureUnitStations c u.station, ∀ k a, old.bound st = some k → old.axle? k = some a →
      ∃ a', l.axle? k = some a' ∧ a'.brake c.part = skipPart (a.brake c.part)
  seq : l.seq = { old.seq with
    armedSkip := none, mods := none, pointer := u.step + 1,
    repeatMark := if old.seq.repeatMark = some old.seq.pointer then none else old.seq.repeatMark }

theorem Live.markBrake_seq (l : Live) (st : Station) (part : BrakePart) (f : Part BrakeResult → Part BrakeResult) :
    (l.markBrake st part f).seq = l.seq := by
  unfold Live.markBrake Live.updAxle Live.updOpen
  (repeat' split) <;> rfl

theorem Live.takeSkipped_taken (l : Live) (u : PlanUnit) (b : List Byte) : SkipTaken u b l (l.takeSkipped u b) := by
  let c := captureSettings b u.mods.part u.mods.limitRow
  let marked := (captureUnitStations c u.station).foldl (fun x st => x.markBrake st c.part skipPart) l
  have hseq : marked.seq = l.seq := foldl_field (field := Live.seq) (fun x st => x.markBrake_seq st _ _) _ _
  refine ⟨Live.setSeq_still (Still.foldl (fun x st hx => Live.markBrake_still hx _ _ _) _ (.refl l)) _,
    Live.setSeq_quiet (Quiet.foldl (fun x st hx => Live.markBrake_quiet hx _ _ _) _ (.refl l)) _,
    fun st hst k a hb ha => ?_, ?_⟩
  · obtain ⟨a', ha', hpart⟩ := Live.markBrakes_skip c.part (captureUnitStations c u.station) ha
    exact ⟨a', (Live.axle?_of_slots rfl k).trans ha', hpart.trans (if_pos ⟨st, hst, hb⟩)⟩
  · change Live.seq (Live.setSeq _ marked) = _
    rw [hseq]
    rfl

end
end Sys2Proof.Machine
end

section
/-! ## The obligation on the units that make no request (R116, R117, R128 to R131, R133 to R135, R140; O47) -/

namespace Sys2Proof.Machine
section
variable {m : Live} {s : State} {p : Plan} {u : PlanUnit}

theorem exec_sequencerTakeUnit_unit (hawake : s.awake) (hrun : s.live.seq.state = .running) (hat : AtUnit s.tables p u s.live)
    (hlevel : s.live.level < 2) (hm : (s.live.choose u).judgeUnit s.tables p u = m) :
    exec .sequencerTakeUnit s = .next (s.withLive m) := by
  rw [exec_sequencerTakeUnit hawake hrun, Live.takeUnit_at hat hlevel, hm]

/-- A close of the OPEN record does not read the sequencer's items. -/
theorem Live.choose_metAlike (l : Live) (u : PlanUnit) (i : Fin 4) : MetAlike i l (l.choose u) :=
  ⟨rfl, rfl, rfl, fun _ _ => rfl, rfl, rfl, rfl, rfl⟩

/-- A post at a PROMPT step is that of the state before the unit was taken. -/
theorem Live.postPrompt_choose_guide (T : Tables) (l : Live) (u : PlanUnit) (n : Nat) (b : Bool) :
    ((l.choose u).postPrompt T n .step b []).guide = (l.postPrompt T n .step b []).guide := by
  rw [Live.choose, Live.postPrompt_setSeq, Live.setSeq_guide]

/-- Settles O47: the level, the unit's station, then the step by its kind; a CLOSE and the end of the plan close the record. -/
theorem sequencerTakesItsUnit : Obligations.SequencerTakesItsUnit := by
  intro s hawake q level seqIs
  refine ⟨exec_sequencerTakeUnit_of_other hawake, fun p i r hrun hplan hi hr _ hcloses => ?_, fun p u hrun hplan hunit => ?_⟩
  · rcases hcloses with hend | ⟨u, hunit, hrecord, hlevel, hworks⟩
    · exact ⟨_, (exec_sequencerTakeUnit hawake hrun).trans (by rw [Live.takeUnit_of_end hplan hend]),
        Live.planClose_closed hi hr⟩
    · have hstep : (s.live.choose u).judgeUnit s.tables p u = (s.live.choose u).takeStep s.tables p u :=
        Live.judgeUnit_of_stationless (Live.unitWorks.choose hworks) (by simp [hrecord]) (by rw [hrecord]; rfl)
      have hclosed : RecordClosed s.tables i r (s.live.choose u) ((s.live.choose u).planClose s.tables) :=
        Live.planClose_closed hi hr
      exact ⟨_, exec_sequencerTakeUnit_unit hawake hrun ⟨hplan, hunit⟩ hlevel (hstep.trans (Live.takeStep_close hrecord)),
        hclosed.of_alike (s.live.choose_metAlike u i)⟩
  intro chosen resting done
  have hat : AtUnit s.tables p u s.live := ⟨hplan, hunit⟩
  have hat' : AtUnit s.tables p u (s.live.choose u) := hat.setSeq rfl
  have hgoes := fun {m : Live} hlevel => exec_sequencerTakeUnit_unit (m := m) hawake hrun hat hlevel
  have hstate : ∀ st, (s.live.choose u).stationState st = s.live.stationState st := s.live.setSeq_stationState _
  have hbound : ∀ st, (s.live.choose u).bound st = s.live.bound st := s.live.setSeq_bound _
  refine ⟨fun hlevel => ?_, fun hlevel => ?_, fun hlevel st hu hx => ?_, fun hlevel st hu hx hneeds => ?_,
    fun hlevel hworks => ?_⟩
  · exact (exec_sequencerTakeUnit hawake hrun).trans (by rw [Live.takeUnit_of_lock hat hlevel]; rfl)
  · exact (exec_sequencerTakeUnit hawake hrun).trans (by rw [Live.takeUnit_of_stop hat hlevel]; rfl)
  · exact hgoes hlevel (Live.judgeUnit_faulted hu ((hstate st).trans hx))
  · refine hgoes hlevel ((Live.judgeUnit_offline hu ((hstate st).trans hx) hneeds).trans ?_)
    rw [Live.seqHalt_at hat', hu]
    rfl
  have hworks' : (s.live.choose u).unitWorks u := Live.unitWorks.choose hworks
  have hstation : ∀ {m st}, (∀ o b, u.record ≠ .capture o b) → u.station = some st → s.live.stationState st ≠ .offline →
      (s.live.choose u).takeStep s.tables p u = m → exec .sequencerTakeUnit s = .next (s.withLive m) :=
    fun hno hu hx hm => hgoes hlevel ((Live.judgeUnit_of_present hworks' hno hu (by rwa [hstate])).trans hm)
  have hstep : ∀ {m}, (∀ o b, u.record ≠ .capture o b) → u.record.needsStation = false →
      (s.live.choose u).takeStep s.tables p u = m → exec .sequencerTakeUnit s = .next (s.withLive m) :=
    fun hno hneeds hm => hgoes hlevel ((Live.judgeUnit_of_stationless hworks' hno hneeds).trans hm)
  refine ⟨fun c st t h hrecord hu hc => ?_,
    fun c st t h hrecord hu hx _ => ⟨fun hno => ?_, fun hmet hprompt hpause hagain => ?_⟩,
    fun o st hrecord hu hx => ⟨fun hno => ?_, fun hseated hsome hprompt hpause hagain => ?_⟩,
    fun n e hrecord hprompt hpause hagain => ?_, fun r hrecord hr hcount => ?_,
    fun r hrecord hr hcount hprompt hpause hagain => ?_, fun o b hrecord harmed => ?_⟩
  · have hno : ¬ c.metBy ((s.live.choose u).stationState st) := by
      rcases hc with rfl | rfl <;> simp [AwaitCondition.metBy]
    exact hstep (by simp [hrecord]) (by rcases hc with rfl | rfl <;> rw [hrecord] <;> rfl)
      (Live.takeStep_await_waits hrecord hu (hworks' st hu) hno)
  · exact hstation (by simp [hrecord]) hu hx (Live.takeStep_await_waits hrecord hu (hworks' st hu) (by rwa [hstate]))
  · exact hstation (by simp [hrecord]) hu hx
      (Live.takeStep_await_met hat' ⟨hprompt, hpause, hagain⟩ hrecord hu (by rwa [hstate]))
  · exact hstation (by simp [hrecord]) hu hx
      (Live.takeStep_seat_waits hrecord hu (hworks' st hu) (by rwa [hstate, hbound]))
  · exact hstation (by simp [hrecord]) hu hx (Live.takeStep_seat_met hat' ⟨hprompt, hpause, hagain⟩ hrecord hu
      ((hstate st).trans hseated) (by rwa [hbound]))
  · have hshows := (s.live.choose u).postPrompt_shows (T := s.tables) n .step e []
    have hquiet := Live.postPrompt_quiet (T := s.tables) (Live.setSeq_quiet (.refl s.live) chosen) n .step e []
    refine ⟨_, hstep (by simp [hrecord]) (by rw [hrecord]; rfl) ((Live.takeStep_prompt hrecord).trans
      (Live.takePrompt_plain hat' ⟨hprompt, hpause, hagain⟩ hrecord)), ?_, ?_, ?_, rfl⟩
    · exact Live.setSeq_still (Live.postPrompt_still (Live.setSeq_still (.refl s.live) chosen) _ _ _ _) _
    · exact Live.setSeq_quiet hquiet _
    · exact s.live.postPrompt_choose_guide s.tables u n e
  · exact hstep (by simp [hrecord]) (by rw [hrecord]; rfl)
      ((Live.takeStep_advance (l := s.live.choose u) hrecord hr).trans (if_pos hcount))
  · exact hstep (by simp [hrecord]) (by rw [hrecord]; rfl)
      (Live.takeStep_advance_done hat' ⟨hprompt, hpause, hagain⟩ hrecord hr hcount)
  · obtain ⟨hstill, hquiet, hparts, hseq⟩ := (s.live.choose u).takeSkipped_taken u b
    exact ⟨_, hgoes hlevel (Live.judgeUnit_skips hworks' hrecord harmed), ⟨hstill.ps, hstill.ra, hstill.rb⟩,
      (Live.setSeq_quiet (.refl _) _).trans hquiet, hparts, hseq⟩

end
end Sys2Proof.Machine
end

section
/-! ## The verdict unit and the totals (R117, R143 to R150; O34) -/

namespace Sys2Proof.Machine
section
variable {rows : List LimitRow} {row : Option LimitRow} {cls i : Nat} {m : Option Nat} {axles : List AxleRecord} {p : BrakePart}
variable {stale : Bool} {results : List FieldResult}

/-! ### The total load (R117) -/

/-- The load of one axle joins the total, which is absent once a LOAD part is. -/
def addLoad (total : Option Nat) (a : AxleRecord) : Option Nat := total.bind fun s => a.load.values.map fun v => s + v.axle

theorem foldl_addLoad_none (axles : List AxleRecord) : axles.foldl addLoad none = none :=
  List.foldl_fixed' (fun _ => rfl) axles

/-- The sum of the axle loads, an absent one counted as 0. -/
def loadsSum (axles : List AxleRecord) : Nat := (axles.map fun a => (a.load.values.map (·.axle)).getD 0).sum

theorem foldl_addLoad (axles : List AxleRecord) : ∀ s, axles.foldl addLoad (some s) =
    if ∃ a ∈ axles, a.load.values = none then none else some (s + loadsSum axles) := by
  induction axles with
  | nil => intro s; rfl
  | cons a axles ih =>
    intro s
    cases hload : a.load.values with
    | none => simp [addLoad, hload, foldl_addLoad_none]
    | some v => simp [addLoad, hload, ih, loadsSum, Nat.add_assoc]

theorem totalLoad_foldl (h : axles ≠ []) : totalLoad axles = axles.foldl addLoad (some 0) := by
  unfold totalLoad
  rw [if_neg (by simpa using h)]
  refine congrArg (fun f => axles.foldl f (some 0)) (funext fun total => funext fun a => ?_)
  unfold addLoad
  cases total <;> cases a.load.values <;> rfl

theorem totalLoad_eq (axles : List AxleRecord) : totalLoad axles =
    if axles = [] ∨ ∃ a ∈ axles, a.load.values = none then none else some (loadsSum axles) := by
  by_cases h : axles = []
  · rw [if_pos (.inl h), h]
    rfl
  · simp only [totalLoad_foldl h, foldl_addLoad, h, false_or, Nat.zero_add]

theorem totalLoad_eq_none_iff : totalLoad axles = none ↔ axles = [] ∨ ∃ a ∈ axles, a.load.values = none := by
  rw [totalLoad_eq]
  split <;> simp [*]

theorem totalLoad_eq_some {t : Nat} (h : totalLoad axles = some t) : t = loadsSum axles := by
  rw [totalLoad_eq] at h
  split at h <;> cases h
  rfl

/-! ### Rows (R144, R147) -/

theorem LimitRow.fitsClass_eq (w : LimitRow) (cls : Nat) : w.fitsClass cls = (w.cls == none || w.cls == some cls) := by
  unfold LimitRow.fitsClass
  cases w.cls <;> simp

theorem LimitRow.fitsKind_eq (w : LimitRow) (k : AxleKind) : w.fitsKind k = (w.applies == .any || w.applies == .kind k) := by
  unfold LimitRow.fitsKind
  cases w.applies with
  | kind k' => rw [Bool.eq_iff_iff]; simp
  | any | vehicle => rfl

theorem axleRow_eq (rows : List LimitRow) (cls : Nat) (k : AxleKind) : axleRow rows cls k = rows.find? fun w =>
    (w.cls == none || w.cls == some cls) && (w.applies == .any || w.applies == .kind k) := by
  simp only [axleRow, LimitRow.fitsClass_eq, LimitRow.fitsKind_eq]

theorem vehicleRow_eq (rows : List LimitRow) (cls : Nat) : vehicleRow rows cls = rows.find? fun w =>
    w.applies == .vehicle && (w.cls == none || w.cls == some cls) := by
  simp only [vehicleRow, LimitRow.fitsClass_eq]

theorem requires_iff : requires row i = true ↔ ∃ w, row = some w ∧ w.required / 2 ^ i % 2 = 1 := by
  unfold requires
  cases row <;> simp

/-! ### Measures and parts (R145 to R147) -/

/-- A measure is judged where the row has the field and the measure is there (R145). -/
theorem judgeMeasure_eq (row : Option LimitRow) (i : Nat) (m : Option Nat) :
    judgeMeasure row i m = ((row.bind (·.fields[i]?)).bind fun f => m.map (judgeField f)).getD .pass := by
  unfold judgeMeasure
  cases row with
  | none => rfl
  | some w =>
    cases m with
    | none => cases hf : w.fields[i]? <;> simp [hf]
    | some v => cases hf : w.fields[i]? <;> simp [hf]

/-- A result other than PASS is that of a judged measure. -/
theorem judgeMeasure_eq_iff {x : FieldResult} (hx : x ≠ .pass) : judgeMeasure row i m = x ↔
    ∃ w f v, row = some w ∧ w.fields[i]? = some f ∧ m = some v ∧ judgeField f v = x := by
  rw [judgeMeasure_eq]
  cases row with
  | none => simpa using hx.symm
  | some w =>
    cases hf : w.fields[i]? with
    | none => simpa [hf] using hx.symm
    | some f => cases m <;> simp [hf, hx.symm]

theorem judges_iff : judges row i = true ↔ ∃ w f, row = some w ∧ w.fields[i]? = some f ∧ f.mode ≠ .unused := by
  unfold judges
  cases row with
  | none => simp
  | some w => cases hf : w.fields[i]? <;> simp [hf]

theorem imbalance_eq (l r : Nat) : imbalance l r = if l = 0 ∧ r = 0 then 0 else 1000 * (max l r - min l r) / max l r := by
  simp only [imbalance, Nat.max_eq_zero_iff]

theorem partVerdict_eq (results : List FieldResult) (stale : Bool) : partVerdict results stale =
    if .fail ∈ results then .fail else if stale then .unverified else if .advisory ∈ results then .advisory else .pass := by
  simp only [partVerdict, List.contains_iff_mem]

/-- The worse of two results makes the verdict that both make (R146). -/
theorem partVerdict_worse (results : List FieldResult) (a b : FieldResult) (stale : Bool) :
    partVerdict (results ++ [worse a b]) stale = partVerdict (results ++ [a, b]) stale := by
  have hfail : .fail ∈ results ++ [worse a b] ↔ .fail ∈ results ++ [a, b] := by
    cases a <;> cases b <;> simp [worse]
  have hadvisory : .fail ∉ results ++ [a, b] → (.advisory ∈ results ++ [worse a b] ↔ .advisory ∈ results ++ [a, b]) := by
    cases a <;> cases b <;> simp [worse]
  rw [partVerdict_eq, partVerdict_eq]
  by_cases h : .fail ∈ results ++ [a, b]
  · rw [if_pos h, if_pos (hfail.2 h)]
  · simp only [if_neg h, if_neg (mt hfail.1 h), hadvisory h]

/-- The row that a capture names is in use, unless it is not loaded or a vehicle row (R147). -/
theorem rowInUse_eq (rows : List LimitRow) (cls : Nat) (k : AxleKind) (override : Option Nat) :
    rowInUse rows cls k override = (override.bind (rows[·]?)).elim (axleRow rows cls k) fun x =>
      if x.applies = .vehicle then axleRow rows cls k else some x := by
  unfold rowInUse overrideRow
  cases override with
  | none => rfl
  | some n =>
    simp only [Option.bind_some]
    cases rows[n]? with
    | none => rfl
    | some x => by_cases hx : x.applies = .vehicle <;> simp [Option.filter_some, hx]

section
variable (rows : List LimitRow) (cls : Nat) (a : AxleRecord) (override : Option Nat) (stale : Bool) (v : BrakeResult)

theorem brakeVerdict_service : brakeVerdict rows cls a .service override stale v =
    partVerdict [judgeMeasure (rowInUse rows cls a.kind override) 0 (some (imbalance v.peakL v.peakR)),
      judgeMeasure (rowInUse rows cls a.kind override) 3 (forceFraction v.peakL v.peakR a.load.values)] stale := rfl

theorem brakeVerdict_parking : brakeVerdict rows cls a .parking override stale v =
    partVerdict [judgeMeasure (rowInUse rows cls a.kind override) 0 (some (imbalance v.peakL v.peakR))] stale := rfl

theorem brakeVerdict_ovality : brakeVerdict rows cls a .ovality override stale v =
    partVerdict [judgeMeasure (rowInUse rows cls a.kind override) 1 v.ovalityL,
      judgeMeasure (rowInUse rows cls a.kind override) 1 v.ovalityR] stale :=
  partVerdict_worse [] _ _ stale

theorem brakeVerdict_aux : brakeVerdict rows cls a .aux override stale v =
    partVerdict [judgeMeasure (rowInUse rows cls a.kind override) 0 (some (imbalance v.peakL v.peakR)),
      judgeMeasure (rowInUse rows cls a.kind override) 1 v.ovalityL,
      judgeMeasure (rowInUse rows cls a.kind override) 1 v.ovalityR] stale :=
  partVerdict_worse [_] _ _ stale

end

/-! ### Verdicts (R148, R150) -/

/-- The first verdict of the list FAIL, INCOMPLETE, UNVERIFIED, ADVISORY that applies, else PASS. -/
def firstVerdict (fails short doubtful warns : Bool) : Verdict :=
  if fails then .fail else if short then .incomplete else if doubtful then .unverified else if warns then .advisory else .pass

theorem firstVerdict_chain {fails short doubtful warns : Bool} {F S D W : Prop} (hF : fails = true ↔ F) (hS : short = true ↔ S)
    (hD : doubtful = true ↔ D) (hW : warns = true ↔ W) : let x := firstVerdict fails short doubtful warns
    (F → x = .fail) ∧ (¬ F → S → x = .incomplete) ∧ (¬ F → ¬ S → D → x = .unverified)
      ∧ (¬ F → ¬ S → ¬ D → W → x = .advisory) ∧ (¬ F → ¬ S → ¬ D → ¬ W → x = .pass) := by
  simp only [firstVerdict, ← hF, ← hS, ← hD, ← hW]
  refine ⟨fun h => ?_, fun hf h => ?_, fun hf hs h => ?_, fun hf hs hd h => ?_, fun hf hs hd h => ?_⟩ <;> simp [*]

/-- The verdicts of the parts of an axle (R192). -/
def AxleRecord.verdicts (a : AxleRecord) : List Verdict := a.parts.map (·.2)

/-- An axle lacks the verdict of a part that its row requires, or holds no part (R148). -/
def axleLacks (row : Option LimitRow) (a : AxleRecord) : Bool :=
  (List.range 6).any (fun i => requires row i && (a.verdicts.getD i .absent == .absent)) || !a.parts.any (·.1)

theorem axleLacks_iff {a : AxleRecord} : axleLacks row a = true ↔
    (∃ (w : LimitRow) (i : Nat), row = some w ∧ w.required / 2 ^ i % 2 = 1 ∧ a.verdicts[i]? = some .absent)
      ∨ ∀ b ∈ a.parts.map (·.1), b = false := by
  have hlength : a.verdicts.length = 6 := rfl
  have habsent : ∀ i, (i < 6 ∧ a.verdicts.getD i .absent = .absent) ↔ a.verdicts[i]? = some .absent := fun i => by
    by_cases hi : i < 6
    · simp [hi, hlength]
    · simp [hi, hlength]
  have hrequired : (List.range 6).any (fun i => requires row i && (a.verdicts.getD i .absent == .absent)) = true ↔
      ∃ (w : LimitRow) (i : Nat), row = some w ∧ w.required / 2 ^ i % 2 = 1 ∧ a.verdicts[i]? = some .absent := by
    simp only [List.any_eq_true, List.mem_range, Bool.and_eq_true, requires_iff, beq_iff_eq, ← habsent]
    exact ⟨fun ⟨i, hi, ⟨w, hw, hbit⟩, hv⟩ => ⟨w, i, hw, hbit, hi, hv⟩,
      fun ⟨w, i, hw, hbit, hi, hv⟩ => ⟨i, hi, ⟨w, hw, hbit⟩, hv⟩⟩
  rw [axleLacks, Bool.or_eq_true, hrequired]
  simp

theorem axleVerdict_eq (rows : List LimitRow) (cls : Nat) (a : AxleRecord) : axleVerdict rows cls a =
    firstVerdict (a.verdicts.contains .fail) (axleLacks (axleRow rows cls a.kind) a) (a.verdicts.contains .unverified)
      (a.verdicts.contains .advisory) := rfl

/-! ### Efficiencies (R149) -/

theorem efficiency_of_none (h : totalLoad axles = none) : efficiency rows cls p axles = none := by
  simp only [efficiency, h]

/-- An axle lacks a part that its row requires. -/
theorem efficiency_lacks_iff :
    axles.any (fun a => requires (axleRow rows cls a.kind) (brakeIndex p) && (a.brake p).values.isNone) = true ↔
      ∃ a ∈ axles, (a.brake p).values = none ∧
      ∃ w, axleRow rows cls a.kind = some w ∧ w.required / 2 ^ brakeIndex p % 2 = 1 := by
  simp only [List.any_eq_true, Bool.and_eq_true, requires_iff, Option.isNone_iff_eq_none]
  exact exists_congr fun a => and_congr_right fun _ => and_comm

theorem efficiency_noParts_iff : axles.all (fun a => (a.brake p).values.isNone) = true ↔
    ∀ a ∈ axles, (a.brake p).values = none := by
  simp only [List.all_eq_true, Option.isNone_iff_eq_none]

theorem efficiency_eq_none {t : Nat} (h : totalLoad axles = some t) (hno : t * 981 / 1000 = 0
    ∨ (∃ a ∈ axles, (a.brake p).values = none ∧ ∃ w, axleRow rows cls a.kind = some w ∧ w.required / 2 ^ brakeIndex p % 2 = 1)
    ∨ ∀ a ∈ axles, (a.brake p).values = none) : efficiency rows cls p axles = none := by
  rw [← efficiency_lacks_iff, ← efficiency_noParts_iff] at hno
  simp only [efficiency, h, weight]
  rcases hno with hno | hno | hno <;> simp only [hno, if_true, ite_self]

theorem efficiency_eq_some {t : Nat} (h : totalLoad axles = some t) (hweight : t * 981 / 1000 ≠ 0)
    (hlacks : ¬ ∃ a ∈ axles, (a.brake p).values = none ∧
      ∃ w, axleRow rows cls a.kind = some w ∧ w.required / 2 ^ brakeIndex p % 2 = 1)
    (hparts : ¬ ∀ a ∈ axles, (a.brake p).values = none) : efficiency rows cls p axles =
      some (min 65534 (1000 * (axles.map (brakeForce p)).sum / (t * 981 / 1000))) := by
  rw [← efficiency_lacks_iff] at hlacks
  rw [← efficiency_noParts_iff] at hparts
  simp only [efficiency, h, weight, if_neg hweight, if_neg hlacks, if_neg hparts]

theorem brakeForce_eq (p : BrakePart) (a : AxleRecord) :
    brakeForce p a = ((a.brake p).values.map fun v => v.peakL + v.peakR).getD 0 := by
  unfold brakeForce
  cases (a.brake p).values <;> rfl

/-! ### The vehicle (R150) -/

theorem verdicts_contains_iff {x : Verdict} : (axles.map (·.verdict)).contains x = true ↔ ∃ a ∈ axles, a.verdict = x := by
  rw [List.contains_iff_mem, List.mem_map]

/-- One of the two efficiencies is judged with a result other than PASS. -/
theorem efficiencies_contain_iff {j : Nat} {n : Option Nat} {x : FieldResult} (hx : x ≠ .pass) :
    [judgeMeasure row i m, judgeMeasure row j n].contains x = true ↔
      (∃ w f v, row = some w ∧ w.fields[i]? = some f ∧ m = some v ∧ judgeField f v = x)
        ∨ ∃ w f v, row = some w ∧ w.fields[j]? = some f ∧ n = some v ∧ judgeField f v = x := by
  rw [← judgeMeasure_eq_iff hx, ← judgeMeasure_eq_iff hx]
  simp only [List.contains_iff_mem, List.mem_cons, List.not_mem_nil, or_false]
  exact or_congr eq_comm eq_comm

/-- A field that judges has no efficiency to judge. -/
theorem unmeasured_iff : (judges row i && m.isNone) = true ↔
    ∃ w f, row = some w ∧ w.fields[i]? = some f ∧ f.mode ≠ .unused ∧ m = none := by
  rw [Bool.and_eq_true, judges_iff, Option.isNone_iff_eq_none]
  exact ⟨fun ⟨⟨w, f, hw, hf, hmode⟩, hm⟩ => ⟨w, f, hw, hf, hmode, hm⟩,
    fun ⟨w, f, hw, hf, hmode, hm⟩ => ⟨⟨w, f, hw, hf, hmode⟩, hm⟩⟩

theorem vehicleVerdict_eq (rows : List LimitRow) (r : VehicleRecord) : vehicleVerdict rows r =
    let row := vehicleRow rows r.cls
    let vs := r.axles.map (·.verdict)
    let effs := [judgeMeasure row 4 r.serviceEff, judgeMeasure row 5 r.parkingEff]
    firstVerdict (vs.contains .fail || effs.contains .fail)
      (vs.contains .incomplete || ((judges row 4 && r.serviceEff.isNone) || (judges row 5 && r.parkingEff.isNone))
        || decide (r.axles.length < r.expected))
      (vs.contains .unverified) (vs.contains .advisory || effs.contains .advisory) := rfl

/-! ### The record (R117) -/

section
variable (rows : List LimitRow) (r : VehicleRecord)

/-- The vehicle is judged once the totals stand, before the verdict and the check code do. -/
theorem finishRecord_verdict : (finishRecord rows r).verdict =
    vehicleVerdict rows { finishRecord rows r with verdict := r.verdict, checkCode := r.checkCode } := rfl

/-- The check code is of the record with its verdict. -/
theorem finishRecord_checkCode : (finishRecord rows r).checkCode =
    some (checkCode { finishRecord rows r with checkCode := r.checkCode }) := rfl

/-- What is finished of a record is its totals, its verdict and its check code. -/
theorem finishRecord_others : { finishRecord rows r with
    totalLoad := r.totalLoad, serviceEff := r.serviceEff, parkingEff := r.parkingEff, verdict := r.verdict,
    checkCode := r.checkCode } = r := rfl

end

/-! ### The check code (R117, R193) -/

/-- Flags as one byte: the sum of the powers of two of those set. -/
theorem flagByte_zipIdx (l : List Bool) :
    ∀ k, ((l.zipIdx k).map fun b => if b.1 then 2 ^ b.2 else 0).sum = 2 ^ k * flagByte l := by
  induction l with
  | nil => intro k; rfl
  | cons b l ih =>
    intro k
    rw [List.zipIdx_cons, List.map_cons, List.sum_cons, ih, flagByte, Nat.mul_add, Nat.pow_succ]
    cases b <;> simp [Nat.mul_assoc]

theorem flagByte_eq : flagByte = fun l => (l.zipIdx.map fun b => if b.1 then 2 ^ b.2 else 0).sum :=
  funext fun l => by rw [flagByte_zipIdx, Nat.pow_zero, Nat.one_mul]

/-- The flags, the repeat count and the verdict of a part, and its values where it holds any. -/
def partHead {α : Type} (x : Part α) : List Byte := [partFirstByte x, byte x.repeats, byte (verdictCode x.verdict)]

/-- The values of a part where it holds any. -/
def partValues {α : Type} (values : α → List Byte) (x : Part α) : List Byte :=
  match x.values with
  | some v => values v
  | none => []

theorem partValues_some {α : Type} (values : α → List Byte) (v : α) (f : PartFlags) (k : Nat) (w : Verdict) :
    partValues values ⟨some v, f, k, w⟩ = values v := rfl

theorem partSerial_eq {α : Type} (values : α → List Byte) (x : Part α) :
    partSerial values x = partHead x ++ partValues values x := rfl

/-- An axle's bytes one after another: what follows the head of its PLATE and of its LOAD part are their values. -/
theorem axleSerial_eq (a : AxleRecord) : axleSerial a = [byte a.index, byte (axleKindCode a.kind), byte (verdictCode a.verdict)]
    ++ partHead a.plate ++ partValues (fun v => beSigned16 v.peak ++ beSigned16 v.slip) a.plate
    ++ partHead a.load ++ partValues (fun v => be16 v.left ++ be16 v.right ++ be16 v.axle) a.load
    ++ partSerial brakeSerial a.service ++ partSerial brakeSerial a.parking ++ partSerial brakeSerial a.ovality
    ++ partSerial brakeSerial a.aux := by
  rw [axleSerial, partSerial_eq _ a.plate, partSerial_eq _ a.load, ← List.append_assoc, ← List.append_assoc]

end
end Sys2Proof.Machine
end

section
/-! ## The obligation on closed records (R117, R143 to R150, R193; O34) -/

namespace Sys2Proof.Machine

/-- Settles O34: the totals of a closed record, the verdicts of parts, axles and vehicles, the efficiencies, and the bytes
checked. -/
theorem closedRecordCarriesItsTotalsAndCheckCode : Obligations.ClosedRecordCarriesItsTotalsAndCheckCode := by
  refine ⟨fun rows r hcode hverdict => ?_, fun rows cls a => ?_, fun rows cls p axles t ht => ?_,
    fun rows cls p axles hnone => efficiency_of_none hnone, fun rows r => ?_, fun r => ?_⟩
  · intro f
    have hjudged := finishRecord_verdict rows r
    have hchecked := finishRecord_checkCode rows r
    have hothers := finishRecord_others rows r
    rw [hcode] at hchecked
    rw [hverdict, hcode] at hjudged hothers
    exact ⟨rfl, rfl, rfl, hjudged, hchecked, hothers, totalLoad_eq_none_iff, fun t => totalLoad_eq_some⟩
  · intro row field part imb fraction verdicts held missing axle
    have hrow : axleRow rows cls a.kind = row := axleRow_eq rows cls a.kind
    have hfield : ∀ w i m, judgeMeasure w i m = field w i m := fun w i m => by
      rw [judgeMeasure_eq]
      change _ = match w.bind (·.fields[i]?), m with
        | some f, some v => judgeField f v
        | _, _ => .pass
      cases w.bind (·.fields[i]?) <;> cases m <;> rfl
    have hpart : ∀ results stale, partVerdict results stale = part results stale := partVerdict_eq
    have himb : ∀ l r, imbalance l r = imb l r := imbalance_eq
    have hfraction : ∀ l r, forceFraction l r a.load.values = fraction l r := fun l r => rfl
    refine ⟨fun stale => hpart _ _, fun stale v => ?_, fun override stale v => ?_, ?_⟩
    · rw [plateVerdict, hrow, hpart, hfield]
    · intro w judged even
      have hw : rowInUse rows cls a.kind override = w := by
        rw [rowInUse_eq, hrow]
        change _ = match override.bind (rows[·]?) with
          | some x => if x.applies = AppliesTo.vehicle then row else some x
          | none => row
        cases override.bind (rows[·]?) <;> rfl
      have heven : judgeMeasure w 0 (some (imbalance v.peakL v.peakR)) = even := by rw [hfield, himb]
      refine ⟨(brakeVerdict_service ..).trans ?_, (brakeVerdict_parking ..).trans ?_, (brakeVerdict_ovality ..).trans ?_,
        (brakeVerdict_aux ..).trans ?_⟩
      · rw [hw, heven, hpart, hfield, hfraction]
      · rw [hw, heven, hpart]
      · rw [hw, hpart, hfield, hfield]
      · rw [hw, heven, hpart, hfield, hfield]
    · rw [show axle = _ from axleVerdict_eq rows cls a, hrow]
      exact firstVerdict_chain List.contains_iff_mem axleLacks_iff List.contains_iff_mem List.contains_iff_mem
  · intro row bit lacks none' force
    have hrow : ∀ a, axleRow rows cls a.kind = row a := fun a => axleRow_eq rows cls a.kind
    have hbit : brakeIndex p = bit := by cases p <;> rfl
    have hlacks : lacks = ∃ a ∈ axles, (a.brake p).values = none ∧
        ∃ w, axleRow rows cls a.kind = some w ∧ w.required / 2 ^ brakeIndex p % 2 = 1 := by
      simp only [lacks, hrow, hbit]
    have hforce : (axles.map (brakeForce p)).sum = force := congrArg List.sum (List.map_congr_left fun a _ => brakeForce_eq p a)
    rw [hlacks, ← hforce]
    exact ⟨efficiency_eq_none ht, efficiency_eq_some ht⟩
  · intro row judged unmeasured some' fails short warns vehicle
    have hrow : vehicleRow rows r.cls = row := vehicleRow_eq rows r.cls
    have heffs := fun {x : FieldResult} (hx : x ≠ .pass) => efficiencies_contain_iff (row := row) (i := 4) (j := 5)
      (m := r.serviceEff) (n := r.parkingEff) hx
    rw [show vehicle = _ from vehicleVerdict_eq rows r, hrow]
    refine firstVerdict_chain ?_ ?_ verdicts_contains_iff ?_
    · rw [Bool.or_eq_true, verdicts_contains_iff, heffs (by decide)]
    · rw [Bool.or_eq_true, Bool.or_eq_true, Bool.or_eq_true, verdicts_contains_iff, unmeasured_iff, unmeasured_iff,
        decide_eq_true_iff, or_assoc, or_assoc]
    · rw [Bool.or_eq_true, verdicts_contains_iff, heffs (by decide)]
  · intro text flags head opt brake axle
    have hhead : ∀ {α : Type} (x : Machine.Part α), partHead x = head x.flags x.values.isSome x.repeats x.verdict := fun x => by
      rw [partHead, partFirstByte, flagByte_eq]
    have hbrake : ∀ x, partSerial brakeSerial x = brake x := by
      rintro ⟨_ | v, f, k, w⟩
      · rw [partSerial_eq, hhead]
        rfl
      · rw [partSerial_eq, hhead, partValues_some, brakeSerial, flagByte_eq]
        rfl
    have haxle : axleSerial = axle := funext fun a => by
      rw [axleSerial_eq, hbrake, hbrake, hbrake, hbrake, hhead, hhead]
      obtain ⟨index, kind, state, ⟨_ | v, _, _, _⟩, ⟨_ | w, _, _, _⟩, _⟩ := a <;> rfl
    rw [checkCode, serialization, haxle, flagByte_eq]
    rfl

end Sys2Proof.Machine
end

section
/-! ## RESUME (R132, R134, R136, R157, R160; O42) -/

namespace Sys2Proof.Machine
section
variable {T : Tables} {l : Live} {x : Restart} {e : FaultEntry}

/-! ### The STOP entries (R157, R160) -/

/-- A STOP entry. -/
def isStop (e : FaultEntry) : Bool := e.action == .stop

/-- A STOP entry whose condition has ended. -/
def stopEnded (e : FaultEntry) : Bool := isStop e && !e.present

/-- The STOP entries that have ended are gone, and each FAULTED station that none covers any more is released. -/
def Live.clearStops (T : Tables) (l : Live) : Live := (l.removeEntries T stopEnded).releaseStations T

/-- What RESUME leaves: the sequencer is set going where no STOP entry remains. -/
def Live.resumed (T : Tables) (l : Live) : Live :=
  if (l.clearStops T).faults.any isStop then l.clearStops T else (l.clearStops T).seqResume T

theorem resumeRequest_eq (T : Tables) (l : Live) :
    resumeRequest T [] l = clearedReply T isStop (l.faults.countP stopEnded) (l.resumed T) := rfl

theorem Live.clearStops_quiet (l : Live) :
    Quiet { l with faults := l.faults.filter fun e => !stopEnded e } (l.clearStops T) :=
  Live.releaseStations_quiet (l.removeEntries_quiet stopEnded)

theorem Live.resumed_quiet (l : Live) : Quiet { l with faults := l.faults.filter fun e => !stopEnded e } (l.resumed T) := by
  unfold Live.resumed
  split
  · exact l.clearStops_quiet
  · exact Live.seqResume_quiet l.clearStops_quiet

/-- The first STOP entry that remains is the first whose condition is present. -/
theorem find?_isStop_remaining (list : List FaultEntry) :
    (list.filter fun e => !stopEnded e).find? isStop = list.find? fun e => isStop e && e.present := by
  rw [List.find?_filter]
  refine congrArg (List.find? · list) (funext fun e => ?_)
  rw [stopEnded]
  cases isStop e <;> cases e.present <;> rfl

theorem Live.clearStops_any (h : l.faults.find? (fun d => isStop d && d.present) = some e) :
    (l.clearStops T).faults.any isStop = true := by
  rw [l.clearStops_quiet.faults]
  rw [← find?_isStop_remaining] at h
  exact List.any_eq_true.2 ⟨e, List.mem_of_find?_eq_some h, List.find?_some h⟩

theorem find?_isStop_of_ended (h : ∀ e ∈ l.faults, e.action = .stop → e.present = false) :
    l.faults.find? (fun d => isStop d && d.present) = none := by
  refine List.find?_eq_none.2 fun e he hstop => ?_
  obtain ⟨hact, hpresent⟩ := Bool.and_eq_true_iff.1 hstop
  rw [h e he (beq_iff_eq.1 hact)] at hpresent
  cases hpresent

theorem Live.clearStops_not_any (h : ∀ e ∈ l.faults, e.action = .stop → e.present = false) :
    (l.clearStops T).faults.any isStop = false := by
  rw [l.clearStops_quiet.faults, ← Bool.not_eq_true, List.any_eq_true]
  have hnone := find?_isStop_of_ended h
  rw [← find?_isStop_remaining, List.find?_eq_none] at hnone
  exact fun ⟨e, he, hstop⟩ => hnone e he hstop

theorem Live.resumed_of_remaining (h : l.faults.find? (fun d => isStop d && d.present) = some e) :
    l.resumed T = l.clearStops T := if_pos (Live.clearStops_any h)

theorem Live.resumed_of_ended (h : ∀ e ∈ l.faults, e.action = .stop → e.present = false) :
    l.resumed T = (l.clearStops T).seqResume T := if_neg (Bool.eq_false_iff.1 (Live.clearStops_not_any h))

theorem resumeRequest_of_remaining (h : l.faults.find? (fun d => isStop d && d.present) = some e) : resumeRequest T [] l =
    { refuse T (l.resumed T) .state with
      data := [byte (sourceCode e.source), byte (scopeCode e.scope), byte (l.faults.countP stopEnded)] } := by
  rw [resumeRequest_eq, clearedReply, l.resumed_quiet.faults, find?_isStop_remaining, h]

theorem resumeRequest_of_ended (h : ∀ e ∈ l.faults, e.action = .stop → e.present = false) :
    resumeRequest T [] l = accept T (l.resumed T) [byte (l.faults.countP stopEnded)] := by
  rw [resumeRequest_eq, clearedReply, l.resumed_quiet.faults, find?_isStop_remaining, find?_isStop_of_ended h]

/-! ### The stations (R72, R157) -/

/-- Without a FAULTED station there is none to release. -/
theorem Live.releaseStations_of_unfaulted (h : ∀ st, l.stationState st ≠ .faulted) : l.releaseStations T = l := by
  have hkept (st : Station) : l.releaseUncovered T st = l := if_neg fun hst => h st hst.1
  simp only [Live.releaseStations_eq, stations, List.foldl_cons, List.foldl_nil, hkept]

theorem Live.removeEntries_still (l : Live) (gone : FaultEntry → Bool) : Still l (l.removeEntries T gone) :=
  have hstill := (l.removeEntries_shows (T := T) gone).still
  ⟨hstill.ps, hstill.ra, hstill.rb⟩

theorem Live.clearStops_of_unfaulted (h : ∀ st, l.stationState st ≠ .faulted) : l.clearStops T = l.removeEntries T stopEnded :=
  Live.releaseStations_of_unfaulted fun st => by
    rw [(l.removeEntries_still stopEnded).stationState]
    exact h st

theorem Live.clearStops_still (h : ∀ st, l.stationState st ≠ .faulted) : Still l (l.clearStops T) := by
  rw [Live.clearStops_of_unfaulted h]
  exact l.removeEntries_still stopEnded

theorem Live.clearStops_seq (h : l.seqFree ∨ ∀ st, l.stationState st ≠ .faulted) : (l.clearStops T).seq = l.seq := by
  have hremoved : (l.removeEntries T stopEnded).seq = l.seq := (l.removeEntries_shows stopEnded).seq
  rcases h with hfree | hworks
  · exact (Live.releaseStations_seq (hfree.of_seq hremoved)).trans hremoved
  · rw [Live.clearStops_of_unfaulted hworks, hremoved]

/-! ### The sequencer (R132, R134, R136) -/

/-- The sequencer's items with no pause pending. -/
def Seq.unpaused (q : Seq) : Seq := { q with pausePending := false }

/-- The sequencer's items after an accepted RESUME that sets it going at its pointer. -/
def Seq.runsAgain (q : Seq) : Seq :=
  { q.unpaused with state := .running, held := none, wait := none, awaitTimer := none }

/-- A sequencer that RESUME finds under way: its pause is no longer pending. -/
theorem Live.seqResume_of_underWay (h : l.seq.state = .running ∨ l.seq.state = .waiting ∨ l.seq.state = .held) :
    l.seqResume T = l.setSeq l.seq.unpaused := by
  rcases h with h | h | h <;> simp only [Live.seqResume, h, Seq.unpaused]

theorem Live.seqResume_of_idle (h : l.seq.state = .locked ∨ l.seq.state = .standby) : l.seqResume T = l := by
  rcases h with h | h <;> simp only [Live.seqResume, h]

theorem Live.seqResume_of_halted (h : l.seq.state = .halted) : l.seqResume T = l.setSeq l.seq.runsAgain := by
  simp only [Live.seqResume, h]
  rfl

/-- A PAUSED sequencer without a restart pending, the station of its unit not FAULTED, goes on at its unit. -/
theorem Live.seqResume_of_paused (h : l.seq.state = .paused) (hrestart : l.seq.restart = none)
    (hworks : ∀ st, l.stationState st ≠ .faulted) : l.seqResume T = l.setSeq l.seq.runsAgain := by
  simp only [Live.seqResume, h]
  split
  · next x hx => cases hrestart.symm.trans hx
  · split
    · exact if_neg (by rw [Live.setSeq_stationState]; exact hworks _)
    · rfl

/-- A HALTED sequencer, and a PAUSED one without a restart pending, goes on at its unit. -/
theorem Live.seqResume_of_no_restart (h : l.seq.state = .halted ∨ (l.seq.state = .paused ∧ l.seq.restart = none))
    (hworks : ∀ st, l.stationState st ≠ .faulted) : l.seqResume T = l.setSeq l.seq.runsAgain := by
  rcases h with hhalted | ⟨hpaused, hrestart⟩
  · exact Live.seqResume_of_halted hhalted
  · exact Live.seqResume_of_paused hpaused hrestart hworks

/-- A PAUSED sequencer with a restart pending is judged as at the end of the capture that the restart repeats. -/
theorem Live.seqResume_of_restart (h : l.seq.state = .paused) (hrestart : l.seq.restart = some x) :
    l.seqResume T = (l.setSeq l.seq.unpaused).judgeRestart T x x := by
  simp only [Live.seqResume, h, Live.setSeq_seq, hrestart, Seq.unpaused]

/-- A restart is made where the lane is neither stopped nor locked and no station is FAULTED. -/
theorem Live.judgeRestart_makes (hlevel : l.level < 2) (hworks : ∀ st, l.stationState st ≠ .faulted) (b : Restart) :
    l.judgeRestart T b x = l.makeRestart T x := by
  have hnone : b.rollers.find? (fun r => l.stationState (stationOf r) == .faulted) = none :=
    List.find?_eq_none.2 fun r _ hr => hworks (stationOf r) (beq_iff_eq.1 hr)
  rw [Live.judgeRestart, if_neg (by omega), if_neg (by omega), hnone]

theorem Live.makeRestart_seq (l : Live) (x : Restart) : (l.makeRestart T x).seq =
    let rests := { l.seq with state := .running, held := none, wait := none, awaitTimer := none, restart := none, mods := none }
    if l.bound (stationOf x.roller) = none then { rests with pointer := l.loopStart T, repeatMark := none }
    else { rests with pointer := x.unit } := by
  simp only [Live.makeRestart, Option.isNone_iff_eq_none]
  split <;> rfl

theorem faultLevel_lt_two {list : List FaultEntry} (hstop : list.any isStop = false) (hlock : faultLevel list ≠ 3) :
    faultLevel list < 2 := by
  have hnone : list.any (·.action == .stop) = false := hstop
  have hunlocked : ¬ list.any (·.action == .lock) = true := fun h => hlock (faultLevel_of_lock h)
  rw [faultLevel, if_neg hunlocked, if_neg (Bool.eq_false_iff.1 hnone)]
  split <;> decide

/-- A pending restart that RESUME makes (R136). -/
theorem Live.seqResume_seq_of_restart (h : l.seq.state = .paused) (hrestart : l.seq.restart = some x) (hlevel : l.level < 2)
    (hworks : ∀ st, l.stationState st ≠ .faulted) : (l.seqResume T).seq =
      if l.bound (stationOf x.roller) = none then
        { l.seq.runsAgain with pointer := l.loopStart T, repeatMark := none, restart := none, mods := none }
      else { l.seq.runsAgain with pointer := x.unit, restart := none, mods := none } := by
  have hkept (st : Station) : (l.setSeq l.seq.unpaused).stationState st ≠ .faulted := by
    rw [Live.setSeq_stationState]
    exact hworks st
  rw [Live.seqResume_of_restart h hrestart, Live.judgeRestart_makes (l := l.setSeq l.seq.unpaused) hlevel hkept,
    Live.makeRestart_seq]
  rfl

/-- Settles O42: the reply by the first STOP entry that remains; the sequencer by the state that an accepted RESUME finds it in. -/
theorem resumeSetsTheSequencerRunning : Obligations.ResumeSetsTheSequencerRunning := by
  intro s hasks stop gone n q on
  have hexec {a : Answered} (ha : resumeRequest s.tables [] s.taking = a) :
      exec .resume s = .next (s.answered 18 a.tables a.live a.status a.data) := exec_answered hasks rfl rfl ha
  refine ⟨s.taking.resumed s.tables, s.taking.resumed_quiet, fun e he => ⟨hexec (resumeRequest_of_remaining (l := s.taking) he),
    fun hapart => ?_⟩, fun hended => ⟨hexec (resumeRequest_of_ended (l := s.taking) hended), fun hworks => ?_⟩⟩
  · rw [Live.resumed_of_remaining (l := s.taking) he]
    exact Live.clearStops_seq (l := s.taking) hapart
  · let ready := s.taking.clearStops s.tables
    have hquiet : Quiet _ ready := s.taking.clearStops_quiet
    have hseq : ready.seq = q := Live.clearStops_seq (l := s.taking) (.inr hworks)
    have hstill : Still s.taking ready := Live.clearStops_still (l := s.taking) hworks
    have hready (st : Station) : ready.stationState st ≠ .faulted := by
      rw [hstill.stationState]
      exact hworks st
    have hresumed : s.taking.resumed s.tables = ready.seqResume s.tables := Live.resumed_of_ended hended
    rw [hresumed]
    have hafter : Still s.taking (ready.seqResume s.tables) := Live.seqResume_still hstill
    refine ⟨⟨hafter.ps, hafter.ra, hafter.rb⟩, fun hstate => ?_, fun hstate => ?_, fun hstate => ?_,
      fun x hstate hrestart hlock => ?_⟩
    · rw [Live.seqResume_of_underWay (hseq ▸ hstate), Live.setSeq_seq, hseq]
      rfl
    · rw [Live.seqResume_of_idle (hseq ▸ hstate), hseq]
    · rw [Live.seqResume_of_no_restart (hseq ▸ hstate) hready, Live.setSeq_seq, hseq]
      rfl
    · have hlevel : ready.level < 2 := by
        rw [(Live.seqResume_quiet (.refl ready)).faults] at hlock
        exact faultLevel_lt_two (Live.clearStops_not_any hended) hlock
      have hbound : ready.bound (stationOf x.roller) = s.live.bound (stationOf x.roller) :=
        Live.bound_of_tracker hquiet.tracker _
      have hstart : ready.loopStart s.tables = s.live.loopStart s.tables :=
        congrArg (fun p => (p.map Plan.loopStart).getD 0) hquiet.plan?
      rw [Live.seqResume_seq_of_restart (hseq ▸ hstate) (hseq ▸ hrestart) hlevel hready, hbound, hstart, hseq]
      rfl

end
end Sys2Proof.Machine
end

section
/-! ## The timeout of an AWAIT (R129, R130, R132; O49) -/

namespace Sys2Proof.Machine
section
variable {T : Tables} {l : Live} {s : State} {p : Plan} {u : PlanUnit} {c : AwaitCondition} {st : Station} {t n : Nat} {halt : Bool}

/-! ### The await timer (R130) -/

theorem exec_awaitTimeout_of_due (hawake : s.awake) (hdue : s.live.awaitDue = some (c, st, halt)) :
    exec .awaitTimeout s = .next (s.withLive (s.live.awaitExpires s.tables c st halt)) :=
  (congrArg Host.Outcome.next (State.onLive_awake _ hawake)).trans (by rw [hdue])

theorem exec_awaitTimeout_of_not_due (hawake : s.awake) (hdue : s.live.awaitDue = none) : exec .awaitTimeout s = .next s :=
  (congrArg Host.Outcome.next (State.onLive_awake _ hawake)).trans (by rw [hdue, State.withLive_self])

/-- An AWAIT with a timeout is due once its timer has reached it; one without a timeout never is. -/
theorem Live.awaitDue_of_await (hstate : l.seq.state = .waiting) (hwait : l.seq.wait = some (.await c st t halt))
    (htimer : l.seq.awaitTimer = some n) : l.awaitDue = if 0 < t ∧ t * 1000 ≤ n then some (c, st, halt) else none := by
  simp only [Live.awaitDue, hstate, hwait, htimer, reached, decide_eq_true_eq]

/-! ### The step at its timeout (R129, R132) -/

theorem AtUnit.event (h : AtUnit T p u l) (code : EventCode) (o : Option Station) (a v : Nat) :
    AtUnit T p u (l.event code o a v) :=
  h.quiet (Live.event_quiet (.refl l) code o a v) (congrArg Seq.pointer (Live.event_seq code o a v))

/-- A DELAY is over at its timeout: its step ends. -/
theorem Live.awaitExpires_delay (hat : AtUnit T p u l) (hplain : l.seq.Plain) :
    l.awaitExpires T .delay st halt = l.setSeq (l.seq.stepped u) :=
  Live.stepDone_plain hat hplain

theorem Live.awaitExpires_halts (hc : c ≠ .delay) (hat : AtUnit T p u l) : l.awaitExpires T c st true = (l.setSeq
    { l.seq with state := .halted, held := none, wait := none, awaitTimer := none }).event .stepHalted u.station
      ((u.station.map l.boundOrZero).getD 0) u.step := by
  have hhalt : l.awaitExpires T c st true = l.seqHalt T := by
    cases c with
    | delay => exact absurd rfl hc
    | _ => rfl
  rw [hhalt, Live.seqHalt_at hat]

/-- An AWAIT whose record says CONTINUE: EVENT AWAIT_TIMEOUT, and its step ends. -/
theorem Live.awaitExpires_continues (hc : c ≠ .delay) (hat : AtUnit T p u l) (hplain : l.seq.Plain) :
    l.awaitExpires T c st false = (l.setSeq (l.seq.stepped u)).event .awaitTimeout (some st) 0 u.step := by
  have hgoes : l.awaitExpires T c st false = (l.event .awaitTimeout (some st) 0 u.step).stepDone T := by
    cases c with
    | delay => exact absurd rfl hc
    | _ => simp only [Live.awaitExpires, hat.currentUnit, Bool.false_eq_true, if_false]
  have hseq : (l.event .awaitTimeout (some st) 0 u.step).seq = l.seq := Live.event_seq _ _ _ _
  rw [hgoes, Live.stepDone_plain (hat.event _ _ _ _) (hseq ▸ hplain), hseq, Live.event_setSeq]

/-- Settles O49: an AWAIT by whether its timer has reached its timeout, and then by its condition and its HALT flag. -/
theorem awaitTimeoutEndsOrHaltsTheStep : Obligations.AwaitTimeoutEndsOrHaltsTheStep := by
  intro s c st t n halt u hawake q hstate hwait htimer resting ended
  have hdue := Live.awaitDue_of_await hstate hwait htimer
  refine ⟨fun hearly => exec_awaitTimeout_of_not_due hawake (hdue.trans (if_neg (by omega))), fun htimed hreached hu => ?_⟩
  obtain ⟨p, hat⟩ := Live.atUnit_of_currentUnit hu
  rw [exec_awaitTimeout_of_due hawake (hdue.trans (if_pos ⟨htimed, hreached⟩))]
  refine ⟨fun hc hhalt => ?_, fun hprompt hpause hagain => ⟨fun hc => ?_, fun hc hhalt => ?_⟩⟩
  · rw [hhalt, Live.awaitExpires_halts hc hat]
    rfl
  · rw [hc, Live.awaitExpires_delay hat ⟨hprompt, hpause, hagain⟩]
    rfl
  · rw [hhalt, Live.awaitExpires_continues hc hat ⟨hprompt, hpause, hagain⟩]
    rfl

end
end Sys2Proof.Machine
end

section
/-! ## STOP of the remote and the ESTOP line (R137, R152, R154, R157, R158; O59) -/

namespace Sys2Proof.Machine
section
variable {T : Tables} {s : State} {src : Byte}

/-! ### OPERATOR_STOP (R137, R152) -/

theorem exec_operatorStop (hawake : s.awake) (hr : s.tables.isRemote src.toNat = true) :
    exec (.operatorStop src) s = .next (s.withLive (s.live.raise s.tables .operatorStop .lane 0)) :=
  exec_button (code := byte buttonStopCode) hawake hr rfl

theorem Tables.actionFor_of_not_valid (h : T.valid .faults = false) {x : Source} (hx : x ≠ .estop) :
    T.actionFor x = defaultAction x := by
  cases x with
  | estop => exact absurd rfl hx
  | _ => simp only [Tables.actionFor, h, Bool.false_eq_true, if_false]

theorem Tables.promptFor_of_not_valid (h : T.valid .faults = false) (x : Source) : T.promptFor x = none := by
  simp only [Tables.promptFor, h, Bool.false_eq_true, if_false]

/-! ### ESTOP (R154, R158) -/

theorem exec_estopAsserted_of_asserted (h : s.live.lines.estop = true) : exec .estopAsserted s = .next s := if_pos h

theorem exec_estopAsserted_of_released (hawake : s.awake) (h : s.live.lines.estop = false) :
    exec .estopAsserted s = .next (s.withLive
      ({ s.live with lines := { s.live.lines with estop := true } }.raise s.tables .estop .lane 0)) := by
  refine (if_neg (Bool.eq_false_iff.1 h)).trans ?_
  rw [State.onLines_awake _ _ hawake]

theorem exec_estopReleased_of_released (h : s.live.lines.estop = false) : exec .estopReleased s = .next s :=
  if_neg (Bool.eq_false_iff.1 h)

theorem exec_estopReleased_of_asserted (hawake : s.awake) (h : s.live.lines.estop = true) :
    exec .estopReleased s = .next (s.withLive
      ({ s.live with lines := { s.live.lines with estop := false } }.endCondition .estop .lane)) := by
  refine (if_pos h).trans ?_
  rw [State.onLines_awake _ _ hawake]

/-- A raise of ESTOP leaves its entry in the list with its condition present: the entry is made, or found and marked. -/
theorem mem_faultsAfter_estop (T : Tables) (list : List FaultEntry) :
    ∃ e ∈ faultsAfter T .estop .lane list, e.is .estop .lane = true ∧ e.present = true := by
  by_cases hany : list.any (·.is .estop .lane) = true
  · obtain ⟨e, he, his⟩ := List.any_eq_true.1 hany
    have hmarked : (if e.is .estop .lane && conditioned .estop then { e with present := true } else e) =
        { e with present := true } := if_pos (by rw [his]; rfl)
    rw [faultsAfter, if_pos hany]
    exact ⟨{ e with present := true }, List.mem_map.2 ⟨e, he, hmarked⟩, his, rfl⟩
  · rw [faultsAfter_of_new (a := .lock) (Bool.eq_false_iff.2 hany) rfl nofun nofun]
    exact ⟨_, List.mem_concat_self, rfl, rfl⟩

/-- Settles O59: each input is a raise, read off `Raised` where it makes its entry, or the end of ESTOP's condition. -/
theorem stopInputsStopOrLockTheLane : Obligations.StopInputsStopOrLockTheLane := by
  refine ⟨fun s src hawake _ hremote => ?_, fun s hawake => ?_⟩
  · have hraised := Live.raise_lane_raised s.tables s.live .operatorStop 0
    refine ⟨_, exec_operatorStop hawake hremote, hraised, fun hbuiltIn hnew => ?_⟩
    have hact : s.tables.actionFor .operatorStop = .stop := Tables.actionFor_of_not_valid hbuiltIn nofun
    obtain ⟨hundriven, hstands⟩ := hraised.stop ⟨hnew, hact⟩
    refine ⟨hundriven, hstands, hraised.frame.faults.trans ?_⟩
    rw [faultsAfter_of_new hnew hact nofun nofun, Tables.promptFor_of_not_valid hbuiltIn]
  · intro l
    refine ⟨exec_estopAsserted_of_asserted, fun hlow => ?_, exec_estopReleased_of_released,
      exec_estopReleased_of_asserted hawake⟩
    have hraised := Live.raise_lane_raised s.tables { l with lines := { l.lines with estop := true } } .estop 0
    refine ⟨_, exec_estopAsserted_of_released hawake hlow, hraised, fun hnew => ?_, ?_⟩
    · obtain ⟨hfaulted, hlocked⟩ := hraised.lock ⟨hnew, rfl⟩
      exact ⟨hfaulted, hlocked, _, hraised.frame.faults.trans (faultsAfter_of_new hnew rfl nofun nofun)⟩
    · rw [hraised.frame.faults]
      exact mem_faultsAfter_estop _ _

end
end Sys2Proof.Machine
end

section
/-! ## A measure against its limit field (R146; O60) -/

namespace Sys2Proof.Machine
section
variable {f : LimitField} {w : LimitRow} {i m n : Nat}

/-! ### One measure, by the comparison mode of its field -/

theorem judgeField_of_unused (h : f.mode = .unused) : judgeField f m = .pass := by
  simp only [judgeField, h]

theorem judgeField_of_failAbove (h : f.mode = .failAbove) :
    judgeField f m = if m ≤ f.fail then (if m ≤ f.advisory then .pass else .advisory) else .fail := by
  simp only [judgeField, h, gt_iff_lt, ← Nat.not_le, ite_not]

theorem judgeField_of_failBelow (h : f.mode = .failBelow) :
    judgeField f m = if f.fail ≤ m then (if f.advisory ≤ m then .pass else .advisory) else .fail := by
  simp only [judgeField, h, ← Nat.not_le, ite_not]

theorem judgeMeasure_of_field (h : w.fields[i]? = some f) : judgeMeasure (some w) i (some m) = judgeField f m := by
  rw [judgeMeasure_eq, Option.bind_some, h]
  rfl

/-! ### Two ovalities -/

/-- FAIL is the worst of the field results, and PASS the best. -/
theorem worse_eq (a b : FieldResult) : worse a b =
    if a = .fail ∨ b = .fail then .fail else if a = .advisory ∨ b = .advisory then .advisory else .pass := by
  cases a <;> cases b <;> rfl

/-- With both sides measured, the ovality result of a part is the worse result of the two sides against the one field. -/
theorem worse_judgeMeasure_of_field (h : w.fields[i]? = some f) :
    worse (judgeMeasure (some w) i (some m)) (judgeMeasure (some w) i (some n)) = worse (judgeField f m) (judgeField f n) := by
  rw [judgeMeasure_of_field h, judgeMeasure_of_field h]

theorem brakeResults_ovality (row : Option LimitRow) (load : Option LoadValues) (v : BrakeResult) :
    brakeResults row .ovality load v = [worse (judgeMeasure row 1 v.ovalityL) (judgeMeasure row 1 v.ovalityR)] := rfl

theorem brakeResults_aux (row : Option LimitRow) (load : Option LoadValues) (v : BrakeResult) :
    brakeResults row .aux load v = [judgeMeasure row 0 (some (imbalance v.peakL v.peakR)),
      worse (judgeMeasure row 1 v.ovalityL) (judgeMeasure row 1 v.ovalityR)] := rfl

end

/-- Settles O60: each mode has its judgement, and both parts with ovalities hold the worse of the two sides' results. -/
theorem aMeasureIsJudgedAgainstItsField : Obligations.AMeasureIsJudgedAgainstItsField := by
  intro f m
  refine ⟨judgeField_of_unused, judgeField_of_failAbove, judgeField_of_failBelow, ?_⟩
  intro row load v n hfield hleft hright left right worst
  have hworst : worse (judgeMeasure (some row) 1 v.ovalityL) (judgeMeasure (some row) 1 v.ovalityR) = worst := by
    rw [hleft, hright, worse_judgeMeasure_of_field hfield, worse_eq]
  exact ⟨by rw [brakeResults_ovality, hworst], by rw [brakeResults_aux, hworst]⟩

end Sys2Proof.Machine
end

section
/-! ## Every raise, and CLEAR_FAULT (R154, R155, R157, R159; O20, O41) -/

namespace Sys2Proof.Machine
section
variable {T : Tables} {l : Live} {p : FaultEntry → Bool} {e : FaultEntry}

/-! ### A raise of any scope (R154) -/

/-- A raise of a station's scope carries the axle that the station is bound to. -/
theorem Live.raise_station_raised (T : Tables) (l : Live) (src : Source) (st : Station) (detail : Nat) :
    Raised T src (.station st) (l.boundOrZero st) detail l (l.raise T src (.station st) detail) :=
  Live.raise_raised_of_axle rfl

/-- Settles O20, by the scope: a station's bound axle stands in the EVENT of its raise, and 0 in that of the lane's. -/
theorem raiseIsTakenAsTheActionSays : Obligations.RaiseIsTakenAsTheActionSays := by
  intro T l src scope detail
  cases scope with
  | station st => exact Live.raise_station_raised T l src st detail
  | lane => exact Live.raise_lane_raised T l src detail

/-! ### Entries judged by their condition (R157, R159) -/

/-- An entry that is judged, and whose condition has ended. -/
def judgedEnded (p : FaultEntry → Bool) (e : FaultEntry) : Bool := p e && !e.present

/-- The judged entries that have ended are gone, and each FAULTED station that none covers any more is released. -/
def Live.clearEnded (T : Tables) (p : FaultEntry → Bool) (l : Live) : Live :=
  (l.removeEntries T (judgedEnded p)).releaseStations T

theorem clearJudged_eq (T : Tables) (p : FaultEntry → Bool) (l : Live) :
    clearJudged T p l = clearedReply T p (l.faults.countP (judgedEnded p)) (l.clearEnded T p) := rfl

theorem Live.clearEnded_released (l : Live) (p : FaultEntry → Bool) :
    ReleasedAfter T (judgedEnded p) l (l.clearEnded T p) :=
  Live.releaseStations_after (l.removeEntries_quiet _) (l.removeEntries_still _).stationState

/-- A judged entry that remains is one whose condition is present. -/
theorem Live.clearEnded_find? (l : Live) (p : FaultEntry → Bool) :
    (l.clearEnded T p).faults.find? p = l.faults.find? fun e => p e && e.present := by
  have hremaining (e : FaultEntry) : decide ((!judgedEnded p e) = true ∧ p e = true) = (p e && e.present) := by
    rw [judgedEnded]
    cases p e <;> cases e.present <;> rfl
  rw [(l.clearEnded_released p).frame.faults, List.find?_filter]
  exact congrArg (List.find? · l.faults) (funext hremaining)

theorem clearJudged_of_remaining (h : l.faults.find? (fun d => p d && d.present) = some e) : clearJudged T p l =
    { refuse T (l.clearEnded T p) .state with
      data := [byte (sourceCode e.source), byte (scopeCode e.scope), byte (l.faults.countP (judgedEnded p))] } := by
  rw [clearJudged_eq, clearedReply, Live.clearEnded_find?, h]

theorem clearJudged_of_ended (h : ∀ e ∈ l.faults, p e = true → e.present = false) :
    clearJudged T p l = accept T (l.clearEnded T p) [byte (l.faults.countP (judgedEnded p))] := by
  have hnone : l.faults.find? (fun d => p d && d.present) = none :=
    List.find?_eq_none.2 fun e he => by
      rw [Bool.and_eq_true]
      exact fun ⟨hjudged, hpresent⟩ => Bool.eq_false_iff.1 (h e he hjudged) hpresent
  rw [clearJudged_eq, clearedReply, Live.clearEnded_find?, hnone]

/-! ### CLEAR_FAULT (R159) -/

/-- A station's code judges the entries of its scope, and the code 3 every one (R189). -/
theorem clearFaultRequest_eq (o : Option Station) :
    clearFaultRequest T [byte (stationCode o)] l = clearJudged T (judgedBy o) l := by
  cases o with
  | none => rfl
  | some st => cases st <;> rfl

/-- Settles O41: what remains is the judged entries whose condition is present, and the reply names the first of them. -/
theorem clearFaultRemovesEndedHolds : Obligations.ClearFaultRemovesEndedHolds := by
  intro s o hasks judged gone n
  have hexec {a : Answered} (ha : clearJudged s.tables (judgedBy o) s.taking = a) :
      exec .clearFault s = .next (s.answered 17 a.tables a.live a.status a.data) :=
    exec_answered hasks rfl rfl ((clearFaultRequest_eq o).trans ha)
  exact ⟨s.taking.clearEnded s.tables (judgedBy o), s.taking.clearEnded_released (judgedBy o),
    fun hended => hexec (clearJudged_of_ended (l := s.taking) hended),
    fun e he => hexec (clearJudged_of_remaining (l := s.taking) he)⟩

end
end Sys2Proof.Machine
end

section
/-! ## Every command runs (O1, O3) -/

namespace Sys2Proof.Machine

/-- A command's answer is a next state with the queue as it was. -/
def KeepsQueue (s : State) (o : Out) : Prop := ∃ t, o = .next t ∧ t.pending = s.pending

section
variable {s : State}

/-- Settles O1: a queue that is not empty gives its front command to `exec`. -/
theorem stepTakesTheFrontCommand : Obligations.StepTakesTheFrontCommand := by
  intro s c rest hqueue
  unfold step
  rw [hqueue]

/-! ### The frames of the commands -/

theorem KeepsQueue.next {t : State} (h : t.pending = s.pending) : KeepsQueue s (.next t) := ⟨t, rfl, h⟩

theorem KeepsQueue.ite {c : Prop} [Decidable c] {x y : Out} (hx : KeepsQueue s x) (hy : KeepsQueue s y) :
    KeepsQueue s (if c then x else y) := by
  split
  · exact hx
  · exact hy

theorem State.onLive_pending (f : Tables → Live → Live) (s : State) : (s.onLive f).pending = s.pending := by
  unfold State.onLive
  split <;> rfl

theorem State.onBoth_pending (f : Tables → Live → Tables × Live) (s : State) : (s.onBoth f).pending = s.pending := by
  unfold State.onBoth
  split <;> rfl

theorem takeRequest_pending (row : Instr) (f : Tables → List Byte → Live → Answered) (s : State) :
    (takeRequest row f s).pending = s.pending := by
  unfold takeRequest
  split <;> rfl

theorem onLive_keepsQueue (f : Tables → Live → Live) (s : State) : KeepsQueue s (.next (s.onLive f)) :=
  .next (s.onLive_pending f)

theorem onBoth_keepsQueue (f : Tables → Live → Tables × Live) (s : State) : KeepsQueue s (.next (s.onBoth f)) :=
  .next (s.onBoth_pending f)

theorem onLines_keepsQueue (g : InputLines → InputLines) (f : Tables → Live → Live) (s : State) :
    KeepsQueue s (.next (s.onLines g f)) := .next rfl

theorem takeRequest_keepsQueue (row : Instr) (f : Tables → List Byte → Live → Answered) (s : State) :
    KeepsQueue s (.next (takeRequest row f s)) := .next (takeRequest_pending row f s)

/-! ### Every command -/

/-- Each command acts through one of the frames; an edge of a line or of RESET may also leave the whole state. -/
theorem exec_keepsQueue (i : Instr) (s : State) : KeepsQueue s (exec i s) := by
  cases i
  case mgmtFrame | keepalive | hostPassThrough | keepaliveUpperExpiry => exact onBoth_keepsQueue _ s
  case bandAckRise | paperOutAsserted | headHotAsserted | estopAsserted => exact .ite (.next rfl) (onLines_keepsQueue _ _ s)
  case bandAckFall | estopReleased => exact .ite (onLines_keepsQueue _ _ s) (.next rfl)
  case printerReady => exact onLines_keepsQueue _ _ s
  case resetAssert | resetRelease => exact .ite (.next rfl) (.next rfl)
  case mgmtUnknownRequest | status | laneMode | window | tableBegin | tableData | tableEnd | tableAbort | tableRead | recordRead
      | laneReset | upFlush | vehicleBegin | vehicleClose | vehicleAbort | recordRelease | stationSpin | stationCapture
      | stationRelease | stationTare | clearFault | resume | clearLockout | promptPost | promptClear | print | printCancel =>
    exact takeRequest_keepsQueue _ _ s
  all_goals exact onLive_keepsQueue _ s

/-- Settles O3, by the frame of each command. -/
theorem everyCommandAnswersANextState : Obligations.EveryCommandAnswersANextState := exec_keepsQueue

end
end Sys2Proof.Machine
end

section
/-! ## The composer and its bands (R174, R180 to R182; O55) -/

namespace Sys2Proof.Machine
section
variable {T : Tables} {l : Live} {s : State} {p : Printer} {j : Job} {e : PrintEntry} {rest : List PrintEntry} {r : VehicleRecord}
variable {n : BufferName} {x : InputLines}

theorem printerReady_iff : printerReady x = true ↔
    x.ready = true ∧ x.paperOut = false ∧ x.headHot = false ∧ x.bandAck = false := by
  simp [printerReady, and_assoc]

/-! ### The next band (R181) -/

/-- A band of the job is left, none is being composed and the next one's buffer is FREE (R181; log 26). -/
def Printer.Begins (p : Printer) (j : Job) : Prop :=
  j.nextCompose < j.length ∧ (p.buffer (bufferOf j.nextCompose)).state = .free ∧ p.composing = false

/-- The composition of the job's next band has begun. -/
def Printer.begun (p : Printer) (j : Job) : Printer :=
  { p with job := some { j with nextCompose := j.nextCompose + 1 } }.setBuffer (bufferOf j.nextCompose)
    { state := .composing, band := j.nextCompose, content := [] }

theorem Printer.beginBand_of_begins (hjob : p.job = some j) (h : p.Begins j) : p.beginBand = p.begun j := by
  simp only [Printer.beginBand, hjob]
  exact if_pos h

theorem Printer.beginBand_of_not_begins (hjob : p.job = some j) (h : ¬ p.Begins j) : p.beginBand = p := by
  simp only [Printer.beginBand, hjob]
  exact if_neg h

theorem Printer.beginBand_of_no_job (hjob : p.job = none) : p.beginBand = p := by
  simp only [Printer.beginBand, hjob]

/-! ### A job starts (R180, R181) -/

theorem Live.jobStarts_iff : l.jobStarts T = true ↔
    l.printer.composer = .idle ∧ l.printer.queue ≠ [] ∧ T.valid .form = true ∧ T.valid .glyphs = true
      ∧ printerReady l.lines = true ∧ l.printer.line = .idle := by
  simp [Live.jobStarts, and_assoc]

/-- The job of a print queue's head entry, its first band being composed (R181). -/
def Live.headJob (T : Tables) (l : Live) (e : PrintEntry) (r : VehicleRecord) : Job :=
  { slot := e.slot, axleCount := r.axles.length
    pageBands := pageBands (Form.ofBytes (T.content .form)) r.axles.length
    copy := l.slotState e.slot == .issued, verdict := r.verdict, copyNumber := r.printCount + 1
    void := l.printer.voidDue, nextCompose := 1, nextSend := 0 }

/-- The printer unit as a job starts: the first band is being composed into A, and B is FREE (R181). -/
def Printer.started (p : Printer) (j : Job) : Printer :=
  { p with composer := .composing, job := some j, bufA := { state := .composing, band := 0, content := [] }, bufB := .free }

/-- A page has a band (log 44). -/
theorem pageBands_pos (f : Form) (axles : Nat) : 0 < pageBands f axles := Nat.le_max_left 1 _

theorem Live.startJob_of_head (hqueue : l.printer.queue = e :: rest) (hrecord : (l.records.slots.get e.slot).record = some r) :
    l.startJob T = l.setPrinter (l.printer.started (l.headJob T e r)) := by
  simp only [Live.startJob]
  split
  · next hempty => rw [hqueue] at hempty; cases hempty
  · next d others hhead =>
    rw [hqueue] at hhead
    cases hhead
    simp only [hrecord]
    refine congrArg (l.setPrinter ·) ((Printer.beginBand_of_begins rfl ⟨?_, rfl, rfl⟩).trans rfl)
    exact Nat.lt_of_lt_of_le (pageBands_pos _ _) (Nat.le_add_right _ _)

theorem exec_printJobStart_of_other (hawake : s.awake) (h : s.live.jobStarts s.tables = false) :
    exec .printJobStart s = .next s :=
  (congrArg Host.Outcome.next (State.onLive_awake _ hawake)).trans (by rw [if_neg (Bool.eq_false_iff.1 h)]; rfl)

theorem exec_printJobStart_of_starts (hawake : s.awake) (h : s.live.jobStarts s.tables = true) :
    exec .printJobStart s = .next (s.withLive (s.live.startJob s.tables)) :=
  (congrArg Host.Outcome.next (State.onLive_awake _ hawake)).trans (by rw [if_pos h])

/-! ### A band is composed (R181) -/

theorem exec_bandComposed (hawake : s.awake) (n : BufferName) :
    exec (.bandComposed n) s = .next (s.withLive (s.live.bandComposed s.tables n)) :=
  congrArg Host.Outcome.next (State.onLive_awake _ hawake)

theorem Live.bandComposed_of_other (h : (l.printer.buffer n).state ≠ .composing ∨ l.printer.job = none) :
    l.bandComposed T n = l := by
  simp only [Live.bandComposed]
  split
  · next hstate hjob =>
    rcases h with hother | hnone
    · exact absurd hstate hother
    · rw [hnone] at hjob; cases hjob
  · rfl

/-- The printer unit with a buffer's band composed (R181). -/
def Live.filled (T : Tables) (l : Live) (n : BufferName) (j : Job) : Printer :=
  l.printer.setBuffer n { l.printer.buffer n with state := .full, content := l.bandContent T j (l.printer.buffer n).band }

theorem Live.bandComposed_of_composing (hstate : (l.printer.buffer n).state = .composing) (hjob : l.printer.job = some j) :
    l.bandComposed T n = l.setPrinter (l.filled T n j).beginBand := by
  simp only [Live.bandComposed, hstate, hjob]
  rfl

theorem Live.filled_job (hjob : l.printer.job = some j) : (l.filled T n j).job = some j :=
  (Printer.setBuffer_job n _ l.printer).trans hjob

/-! ### A band is offered (R181, R182) -/

/-- The job's next band stands FULL while the line is IDLE and the printer ready (R181, R182). -/
def Live.OfferDue (l : Live) (j : Job) : Prop :=
  l.printer.line = .idle ∧ l.printer.composer = .composing ∧ (l.printer.buffer (bufferOf j.nextSend)).state = .full
    ∧ (l.printer.buffer (bufferOf j.nextSend)).band = j.nextSend ∧ printerReady l.lines = true

theorem exec_bandOffer_of_other (hawake : s.awake) (h : s.live.offerDue = none) : exec .bandOffer s = .next s :=
  (congrArg Host.Outcome.next (State.onLive_awake _ hawake)).trans (by rw [h]; rfl)

theorem exec_bandOffer_of_due (hawake : s.awake) (h : s.live.offerDue = some j) :
    exec .bandOffer s = .next (s.withLive (s.live.setPrinter (s.live.printer.offer j))) :=
  (congrArg Host.Outcome.next (State.onLive_awake _ hawake)).trans (by rw [h])

theorem Live.offerDue_of_no_job (hjob : l.printer.job = none) : l.offerDue = none := by
  simp only [Live.offerDue, hjob]

theorem Live.offerDue_of_due (hjob : l.printer.job = some j) (h : l.OfferDue j) : l.offerDue = some j := by
  simp only [Live.offerDue, hjob]
  exact if_pos h

theorem Live.offerDue_of_not_due (hjob : l.printer.job = some j) (h : ¬ l.OfferDue j) : l.offerDue = none := by
  simp only [Live.offerDue, hjob]
  exact if_neg h

/-- Settles O55: a job starts at the head entry, and each command of the composer acts just where its moment has come. -/
theorem printJobComposesAndOffersBands : Obligations.PrintJobComposesAndOffersBands := by
  intro s hawake p l ready starts
  have hstarts : s.live.jobStarts s.tables = true ↔ starts := by
    rw [Live.jobStarts_iff, printerReady_iff]
  refine ⟨fun hno => ?_, fun e rest r hyes hqueue hrecord => ?_, fun n hother => ?_, fun n j hstate hjob => ?_, fun hjob => ?_,
    fun j hjob => ?_⟩
  · exact exec_printJobStart_of_other hawake (Bool.eq_false_iff.2 (hstarts.not.2 hno))
  · rw [exec_printJobStart_of_starts hawake (hstarts.2 hyes), Live.startJob_of_head hqueue hrecord]
    rfl
  · rw [exec_bandComposed hawake, Live.bandComposed_of_other hother]
    rfl
  · have hfilled := Live.filled_job (T := s.tables) (n := n) hjob
    intro full m next counted more
    rw [exec_bandComposed hawake, Live.bandComposed_of_composing hstate hjob]
    refine ⟨fun hno => ?_, fun hmore => ?_⟩
    · rw [Printer.beginBand_of_not_begins hfilled hno]
      rfl
    · rw [Printer.beginBand_of_begins hfilled hmore]
      rfl
  · exact exec_bandOffer_of_other hawake (Live.offerDue_of_no_job hjob)
  · intro n due
    have hdue : s.live.OfferDue j ↔ due := by
      rw [Live.OfferDue, printerReady_iff]
    refine ⟨fun hno => ?_, fun hyes => ?_⟩
    · exact exec_bandOffer_of_other hawake (Live.offerDue_of_not_due hjob (hdue.not.2 hno))
    · rw [exec_bandOffer_of_due hawake (Live.offerDue_of_due hjob (hdue.2 hyes))]
      rfl

end
end Sys2Proof.Machine
end

section
/-! ## A printer that becomes ready (R180, R181, R184, R186; O58) -/

namespace Sys2Proof.Machine
section
variable {T : Tables} {l : Live} {s : State} {p : Printer} {e : PrintEntry} {rest : List PrintEntry} {r : VehicleRecord}

/-- The printer-fault flag is cleared, and the condition of PRINTER has ended where the flag was set (R184). -/
def Live.faultEnded (l : Live) : Live :=
  { l with faults := faultsOfReady l, printer := { l.printer with fault := false } }

theorem Live.faultEnded_of_fault (h : l.printer.fault = true) :
    (l.setPrinter { l.printer with fault := false }).endCondition .printer .lane = l.faultEnded := by
  simp only [Live.faultEnded, faultsOfReady, if_pos h]
  rfl

theorem Live.faultEnded_of_no_fault (h : l.printer.fault = false) : l.faultEnded = l := by
  have hprinter : { l.printer with fault := false } = l.printer := by rw [← h]
  simp only [Live.faultEnded, faultsOfReady, h, Bool.false_eq_true, if_false, hprinter]

theorem Live.becomeReady_of_not_ready (h : printerReady l.lines = false) : l.becomeReady T = l :=
  if_neg (Bool.eq_false_iff.1 h)

/-- A ready printer ends the fault first; then a PAUSED composer goes on (R184, R186). -/
theorem Live.becomeReady_of_ready (h : printerReady l.lines = true) : l.becomeReady T =
    if l.printer.composer = .paused then
      if l.printer.queue.isEmpty then l.faultEnded.setPrinter { l.faultEnded.printer with composer := .idle }
      else l.faultEnded.startJob T
    else l.faultEnded := by
  have hended : (if l.printer.fault then (l.setPrinter { l.printer with fault := false }).endCondition .printer .lane else l) =
      l.faultEnded := by
    split
    · next hfault => exact Live.faultEnded_of_fault hfault
    · next hfault => exact (Live.faultEnded_of_no_fault (Bool.eq_false_iff.2 hfault)).symm
  simp only [Live.becomeReady, if_pos h, hended]
  rfl

theorem Live.becomeReady_of_working (h : printerReady l.lines = true) (hcomposer : l.printer.composer ≠ .paused) :
    l.becomeReady T = l.faultEnded := by
  rw [Live.becomeReady_of_ready h, if_neg hcomposer]

theorem Live.becomeReady_of_empty (h : printerReady l.lines = true) (hcomposer : l.printer.composer = .paused)
    (hqueue : l.printer.queue = []) :
    l.becomeReady T = l.faultEnded.setPrinter { l.faultEnded.printer with composer := .idle } := by
  rw [Live.becomeReady_of_ready h, if_pos hcomposer, hqueue]
  rfl

theorem Live.becomeReady_of_head (h : printerReady l.lines = true) (hcomposer : l.printer.composer = .paused)
    (hqueue : l.printer.queue = e :: rest) (hrecord : (l.records.slots.get e.slot).record = some r) :
    l.becomeReady T = l.faultEnded.setPrinter (l.faultEnded.printer.started (l.faultEnded.headJob T e r)) := by
  rw [Live.becomeReady_of_ready h, if_pos hcomposer, hqueue]
  exact Live.startJob_of_head (l := l.faultEnded) hqueue hrecord

theorem Live.faultEnded_started_jobRestarted (T : Tables) (l : Live) (e : PrintEntry) (r : VehicleRecord) :
    JobRestarted e r l.printer (l.faultEnded.printer.started (l.faultEnded.headJob T e r)) :=
  ⟨rfl, rfl, rfl, rfl, rfl, _, rfl, rfl, rfl, rfl, rfl, rfl⟩

theorem exec_printerReady (hawake : s.awake) : exec .printerReady s = .next (s.withLive (Live.becomeReady s.tables
    { s.live with lines := { s.live.lines with ready := true, paperOut := false, headHot := false } })) :=
  congrArg Host.Outcome.next (State.onLines_awake _ _ hawake)

/-- Settles O58, by the level of BAND_ACK, the composer's state and the print queue. -/
theorem printerReadyEndsTheFault : Obligations.PrinterReadyEndsTheFault := by
  intro s hawake l p lines cleared goes
  let l1 : Live := { l with lines := lines }
  have hready (hack : l.lines.bandAck = false) : printerReady l1.lines = true := printerReady_iff.2 ⟨rfl, rfl, rfl, hack⟩
  have hgoes {m : Live} (hm : l1.becomeReady s.tables = m) : goes m :=
    (exec_printerReady hawake).trans (congrArg (fun k => Host.Outcome.next (s.withLive k)) hm)
  refine ⟨fun hack => ?_, fun hack hcomposer => ?_, fun hack hcomposer hqueue => ?_,
    fun e rest r hack hcomposer hqueue hrecord => ?_⟩
  · exact hgoes (Live.becomeReady_of_not_ready (l := l1) (by simp [printerReady, l1, lines, hack]))
  · exact hgoes (Live.becomeReady_of_working (hready hack) hcomposer)
  · exact hgoes (Live.becomeReady_of_empty (hready hack) hcomposer hqueue)
  · exact ⟨_, hgoes (Live.becomeReady_of_head (hready hack) hcomposer hqueue hrecord),
      l1.faultEnded_started_jobRestarted s.tables e r⟩

end
end Sys2Proof.Machine
end

section
/-! ## The edges of BAND_ACK (R180 to R184, R186; O56) -/

namespace Sys2Proof.Machine
section
variable {T : Tables} {l : Live} {s : State} {p : Printer} {j : Job} {e : PrintEntry} {rest : List PrintEntry} {r : VehicleRecord}
variable {ready : Bool}

/-- An EVENT reads none of the input lines. -/
theorem Live.event_lines (l : Live) (c : EventCode) (st : Option Station) (a v : Nat) (x : InputLines) :
    ({ l with lines := x } : Live).event c st a v = { l.event c st a v with lines := x } := by
  by_cases hroom : l.chain.up.length < Config.upCapacity <;>
    simp [Live.event, Live.offerEvent, Live.setUp, Live.setSticky, hroom]

/-! ### The rise (R182, R183) -/

/-- The printer unit once the printer has taken the band offered (R182). -/
def Printer.taken (p : Printer) : Printer := { p with bandReq := false, timer := some 0, line := .taken }

theorem Live.bandTaken_of_other (hline : l.printer.line ≠ .offered) : l.bandTaken = l := by
  unfold Live.bandTaken
  split
  · next hoffered => exact absurd hoffered hline
  · rfl

theorem Live.bandTaken_of_more (hline : l.printer.line = .offered) (h : l.printer.job = none ∨ l.printer.composer ≠ .draining) :
    l.bandTaken = l.setPrinter l.printer.taken := by
  simp only [Live.bandTaken, hline]
  split
  · next j hjob =>
    rcases h with hnone | hcomposer
    · rw [hnone] at hjob; cases hjob
    · rw [if_neg hcomposer]
      rfl
  · rfl

theorem Live.bandTaken_of_last (hline : l.printer.line = .offered) (hjob : l.printer.job = some j)
    (hcomposer : l.printer.composer = .draining) : l.bandTaken = (l.setPrinter l.printer.taken).endJob j := by
  unfold Live.bandTaken
  split
  · split
    · next i hi =>
      rw [hjob] at hi
      cases hi
      exact if_pos hcomposer
    · next hnone => rw [hjob] at hnone; cases hnone
  · next hother => exact absurd hline hother

/-- A job ended (R183): its slot is ISSUED with the record's print count, and the head entry has left the print queue. -/
def Live.jobEnded (l : Live) (j : Job) (rest : List PrintEntry) (r : VehicleRecord) : Live :=
  { l with
    records := { l.records with slots := l.records.slots.set j.slot { state := .issued, record := some { r with
      printCount := if l.slotState j.slot = .issued then min 255 (r.printCount + 1) else 1 } } }
    mgmt := { l.mgmt with sticky := { l.mgmt.sticky with composerFree := l.mgmt.sticky.composerFree || rest.isEmpty } }
    printer := { l.printer with queue := rest, voidDue := l.printer.voidDue && !j.void, composer := .idle, job := none } }

theorem Live.endJob_of_head (hqueue : l.printer.queue = e :: rest) (hrecord : (l.records.slots.get j.slot).record = some r) :
    l.endJob j = (l.jobEnded j rest r).event .printDone none 0 (j.slot.val + 1) := by
  have hdue : (if j.void then false else l.printer.voidDue) = (l.printer.voidDue && !j.void) := by
    cases j.void <;> simp
  simp only [Live.endJob, Live.event_setPrinter, Live.event_printer, Live.setPrintQueue_eq, Live.setSlot_printer, hqueue,
    List.drop_one, List.tail_cons, hdue, issue, hrecord, Option.map_some]
  rfl

theorem exec_bandAckRise_of_high (h : s.live.lines.bandAck = true) : exec (.bandAckRise ready) s = .next s := if_pos h

theorem exec_bandAckRise_of_low (hawake : s.awake) (h : s.live.lines.bandAck = false) :
    exec (.bandAckRise ready) s = .next (s.withLive
      (Live.bandTaken { s.live with lines := { s.live.lines with bandAck := true, ready := ready } })) := by
  refine (if_neg (Bool.eq_false_iff.1 h)).trans ?_
  rw [State.onLines_awake _ _ hawake]

/-! ### The fall (R181, R182, R184, R186) -/

/-- The printer unit at the end of a handshake, before the next band's composition begins (R182). -/
def Printer.settled (p : Printer) : Printer :=
  { p with line := .idle, timer := none, bufA := freeOffered p.bufA, bufB := freeOffered p.bufB }

theorem Printer.handshakeEnds_of_other (hline : p.line ≠ .taken) : p.handshakeEnds = p := by
  unfold Printer.handshakeEnds
  split
  · next htaken => exact absurd htaken hline
  · rfl

theorem Printer.handshakeEnds_of_taken (hline : p.line = .taken) : p.handshakeEnds = p.settled.beginBand := by
  simp only [Printer.handshakeEnds, hline]
  rfl

@[simp] theorem Printer.setBuffer_fault (n : BufferName) (b : BandBuffer) (p : Printer) : (p.setBuffer n b).fault = p.fault := by
  cases n <;> rfl

theorem Printer.beginBand_fault (p : Printer) : p.beginBand.fault = p.fault := by
  simp only [Printer.beginBand]
  (repeat' split) <;> simp

theorem Printer.handshakeEnds_composer (p : Printer) : p.handshakeEnds.composer = p.composer := by
  unfold Printer.handshakeEnds
  split
  · exact Printer.beginBand_composer _
  · rfl

theorem Printer.handshakeEnds_fault (p : Printer) : p.handshakeEnds.fault = p.fault := by
  unfold Printer.handshakeEnds
  split
  · exact Printer.beginBand_fault _
  · rfl

/-- The printer unit once BAND_ACK has fallen without a job under way: no composition begins. -/
def Printer.freed (p : Printer) : Printer := if p.line = .taken then p.settled else p

theorem Printer.handshakeEnds_of_no_job (hjob : p.job = none) : p.handshakeEnds = p.freed := by
  unfold Printer.freed
  split
  · next hline => exact (Printer.handshakeEnds_of_taken hline).trans (Printer.beginBand_of_no_job hjob)
  · next hline => exact Printer.handshakeEnds_of_other hline

theorem Printer.freed_leaves (p : Printer) :
    p.freed.composer = p.composer ∧ p.freed.fault = p.fault ∧ p.freed.queue = p.queue := by
  unfold Printer.freed
  split <;> exact ⟨rfl, rfl, rfl⟩

theorem Live.faultEnded_freed (l : Live) : (l.setPrinter l.printer.freed).faultEnded =
    { l with faults := faultsOfReady l, printer := { l.printer.freed with fault := false } } := by
  obtain ⟨-, hfault, -⟩ := l.printer.freed_leaves
  have hfaults : faultsOfReady (l.setPrinter l.printer.freed) = faultsOfReady l := by
    simp only [faultsOfReady, Live.setPrinter_printer, Live.setPrinter_faults, hfault]
  rw [Live.faultEnded, hfaults]
  rfl

/-- A printer that is not ready, or is found without a fault and at work, changes nothing more. -/
theorem Live.becomeReady_of_still (h : printerReady l.lines = false ∨ (l.printer.fault = false ∧ l.printer.composer ≠ .paused)) :
    l.becomeReady T = l := by
  rcases h with hnot | ⟨hfault, hcomposer⟩
  · exact Live.becomeReady_of_not_ready hnot
  · cases hready : printerReady l.lines with
    | false => exact Live.becomeReady_of_not_ready hready
    | true => exact (Live.becomeReady_of_working hready hcomposer).trans (Live.faultEnded_of_no_fault hfault)

theorem exec_bandAckFall_of_low (h : s.live.lines.bandAck = false) : exec (.bandAckFall ready) s = .next s :=
  if_neg (Bool.eq_false_iff.1 h)

theorem exec_bandAckFall_of_high (hawake : s.awake) (h : s.live.lines.bandAck = true) :
    exec (.bandAckFall ready) s = .next (s.withLive (Live.becomeReady s.tables
      (Live.setPrinter s.live.printer.handshakeEnds
        { s.live with lines := { s.live.lines with bandAck := false, ready := ready } }))) := by
  refine (if_pos h).trans ?_
  rw [State.onLines_awake _ _ hawake]

/-- A fall that leaves the printer not ready, or finds it without a fault and at work, ends the handshake alone. -/
theorem exec_bandAckFall_of_still (hawake : s.awake) (hack : s.live.lines.bandAck = true)
    (hstill : ¬ (ready = true ∧ s.live.lines.paperOut = false ∧ s.live.lines.headHot = false)
      ∨ (s.live.printer.fault = false ∧ s.live.printer.composer ≠ .paused)) :
    exec (.bandAckFall ready) s = .next (s.withLive { s.live with
      lines := { s.live.lines with bandAck := false, ready := ready }, printer := s.live.printer.handshakeEnds }) := by
  rw [exec_bandAckFall_of_high hawake hack, Live.becomeReady_of_still]
  · rfl
  · refine hstill.imp (fun hnot => Bool.eq_false_iff.2 fun hready => ?_) fun ⟨hfault, hworking⟩ => ?_
    · obtain ⟨hhigh, hpaper, hhot, -⟩ := printerReady_iff.1 hready
      exact hnot ⟨hhigh, hpaper, hhot⟩
    · have hcomposer := s.live.printer.handshakeEnds_composer
      exact ⟨s.live.printer.handshakeEnds_fault.trans hfault, hcomposer ▸ hworking⟩

/-- A fall without a job under way. -/
theorem exec_bandAckFall_of_no_job (hawake : s.awake) (hack : s.live.lines.bandAck = true) (hjob : s.live.printer.job = none) :
    exec (.bandAckFall ready) s = .next (s.withLive (Live.becomeReady s.tables (Live.setPrinter s.live.printer.freed
      { s.live with lines := { s.live.lines with bandAck := false, ready := ready } }))) := by
  rw [exec_bandAckFall_of_high hawake hack, Printer.handshakeEnds_of_no_job hjob]

/-- Settles O56: the rise by the line's state and the composer's, the fall by whether the printer is then ready. -/
theorem bandAckMovesTheHandshake : Obligations.BandAckMovesTheHandshake := by
  intro s ready hawake l p lines taken rises falls readied free settled
  have hrises (hack : l.lines.bandAck = false) {m k : Live} (hm : Live.bandTaken { l with lines := lines true } = m)
      (hk : m = { k with lines := lines true }) : rises k :=
    (exec_bandAckRise_of_low hawake hack).trans (congrArg (fun x => Host.Outcome.next (s.withLive x)) (hm.trans hk))
  refine ⟨exec_bandAckRise_of_high, fun hack hline => ?_, fun hack hline hmore => ?_,
    fun j e rest r hack hline hjob hcomposer hqueue hrecord => ?_, exec_bandAckFall_of_low, fun hack hstill => ?_,
    fun hack hyes hjob => ?_⟩
  · exact hrises hack (Live.bandTaken_of_other hline) rfl
  · exact hrises hack (Live.bandTaken_of_more hline hmore) rfl
  · have hended := Live.endJob_of_head (l := Live.setPrinter taken { l with lines := lines true }) hqueue hrecord
    exact hrises hack ((Live.bandTaken_of_last (l := { l with lines := lines true }) hline hjob hcomposer).trans hended)
      (((Live.setPrinter taken l).jobEnded j rest r).event_lines _ _ _ _ (lines true))
  · have hfalls {k : Printer} (hk : p.handshakeEnds = k) : falls { l with printer := k } :=
      hk ▸ exec_bandAckFall_of_still hawake hack hstill
    refine ⟨fun hline => hfalls (Printer.handshakeEnds_of_other hline), fun hline => ?_⟩
    have hends : p.handshakeEnds = p.settled.beginBand := Printer.handshakeEnds_of_taken hline
    refine ⟨fun hnot => hfalls (hends.trans ?_), fun j hjob ⟨hleft, hnone, hfree⟩ => hfalls (hends.trans ?_)⟩
    · cases hjob : p.job with
      | none => exact Printer.beginBand_of_no_job hjob
      | some j =>
        refine Printer.beginBand_of_not_begins (p := p.settled) hjob fun ⟨hleft, hfree, hnone⟩ => ?_
        exact hnot j hjob ⟨hleft, hnone, hfree⟩
    · exact Printer.beginBand_of_begins (p := p.settled) hjob ⟨hleft, hfree, hnone⟩
  · intro freed goes
    let fallen : Live := Live.setPrinter freed { l with lines := lines false }
    have hgoes {m : Live} (hm : fallen.becomeReady s.tables = m) : exec (.bandAckFall ready) s = .next (s.withLive m) :=
      hm ▸ exec_bandAckFall_of_no_job hawake hack hjob
    have hready : printerReady fallen.lines = true := by
      obtain ⟨hhigh, hpaper, hhot⟩ := hyes
      exact printerReady_iff.2 ⟨hhigh, hpaper, hhot, rfl⟩
    have hended : fallen.faultEnded =
        { l with lines := lines false, faults := faultsOfReady l, printer := { freed with fault := false } } :=
      Live.faultEnded_freed { l with lines := lines false }
    obtain ⟨hcomposer, -, hqueue⟩ := p.freed_leaves
    refine ⟨fun hworking => ?_, fun hpaused hempty => ?_, fun e rest r hpaused hhead hrecord => ⟨_, ?_,
      fallen.faultEnded_started_jobRestarted s.tables e r⟩⟩
    · exact hgoes ((Live.becomeReady_of_working hready (hcomposer ▸ hworking)).trans hended)
    · have hidle := Live.becomeReady_of_empty (T := s.tables) hready (hcomposer.trans hpaused) (hqueue.trans hempty)
      exact hgoes (hidle.trans (by rw [hended]; rfl))
    · have hstarted := Live.becomeReady_of_head (T := s.tables) hready (hcomposer.trans hpaused) (hqueue.trans hhead) hrecord
      exact hgoes (hstarted.trans (by rw [hended]; rfl))

end
end Sys2Proof.Machine
end

section
/-! ## Faults of the printer (R182, R184, R185; O57) -/

namespace Sys2Proof.Machine
section
variable {T : Tables} {l : Live} {s : State} {e : PrintEntry} {rest : List PrintEntry} {ready : Bool} {n : Nat}

/-! ### The job is abandoned (R185) -/

/-- The printer unit as an abandoned job leaves it, its queue not yet judged (R185). -/
def Printer.left (p : Printer) (bandAck : Bool) : Printer := { p.abandon bandAck with composer := .paused }

theorem Live.abandonJob_of_no_job (h : l.printer.underWay = false) : l.abandonJob = l := if_neg (Bool.eq_false_iff.1 h)

theorem Live.abandonJob_of_job (h : l.printer.underWay = true) : l.abandonJob =
    (l.setPrinter (l.printer.abandon l.lines.bandAck)).spendRestart.setPrinter
      { (l.setPrinter (l.printer.abandon l.lines.bandAck)).spendRestart.printer with composer := .paused } := if_pos h

theorem Live.abandonJob_of_empty (h : l.printer.underWay = true) (hqueue : l.printer.queue = []) :
    l.abandonJob = l.setPrinter (l.printer.left l.lines.bandAck) := by
  have hspent : (l.setPrinter (l.printer.abandon l.lines.bandAck)).spendRestart =
      l.setPrinter (l.printer.abandon l.lines.bandAck) := by
    unfold Live.spendRestart
    split
    · rfl
    · next hhead => exact absurd (hhead.symm.trans hqueue) nofun
  rw [Live.abandonJob_of_job h, hspent]
  rfl

/-- The head entry judged (R185, step 4): it spends a restart, or has none left and leaves the queue. -/
theorem Live.spendRestart_of_head (hqueue : l.printer.queue = e :: rest) : l.spendRestart =
    if e.restarts < 3 then l.setPrinter { l.printer with queue := { e with restarts := e.restarts + 1 } :: rest }
    else (l.setPrintQueue rest).event .printFailed none 0 (e.slot.val + 1) := by
  unfold Live.spendRestart
  split
  · next hempty => exact absurd (hempty.symm.trans hqueue) nofun
  · next d others hhead =>
    cases hhead.symm.trans hqueue
    rfl

theorem Live.abandonJob_of_restart (h : l.printer.underWay = true) (hqueue : l.printer.queue = e :: rest)
    (hleft : e.restarts < 3) : l.abandonJob =
      l.setPrinter { l.printer.left l.lines.bandAck with queue := { e with restarts := e.restarts + 1 } :: rest } := by
  have hspent := Live.spendRestart_of_head (l := l.setPrinter (l.printer.abandon l.lines.bandAck)) hqueue
  rw [if_pos hleft] at hspent
  rw [Live.abandonJob_of_job h, hspent]
  rfl

/-- The entry that has no restart left is out of the queue, which may have become empty (R23, R185). -/
def Live.entryFailed (l : Live) (rest : List PrintEntry) : Live :=
  { l with
    printer := { l.printer.left l.lines.bandAck with queue := rest }
    mgmt := { l.mgmt with sticky := { l.mgmt.sticky with composerFree := l.mgmt.sticky.composerFree || rest.isEmpty } } }

theorem Live.abandonJob_of_spent (h : l.printer.underWay = true) (hqueue : l.printer.queue = e :: rest)
    (hspent : 3 ≤ e.restarts) : l.abandonJob = (l.entryFailed rest).event .printFailed none 0 (e.slot.val + 1) := by
  have hfailed := Live.spendRestart_of_head (l := l.setPrinter (l.printer.abandon l.lines.bandAck)) hqueue
  rw [if_neg (Nat.not_lt.2 hspent)] at hfailed
  rw [Live.abandonJob_of_job h, hfailed, Live.event_setPrinter, Live.event_printer, Live.setPrintQueue_eq]
  rfl

/-- A job that is abandoned leaves the printer-fault flag. -/
theorem Live.abandonJob_fault (l : Live) : l.abandonJob.printer.fault = l.printer.fault := by
  cases hway : l.printer.underWay with
  | false => rw [Live.abandonJob_of_no_job hway]
  | true =>
    cases hqueue : l.printer.queue with
    | nil => rw [Live.abandonJob_of_empty hway hqueue]; rfl
    | cons e rest =>
      rcases Nat.lt_or_ge e.restarts 3 with hleft | hspent
      · rw [Live.abandonJob_of_restart hway hqueue hleft]; rfl
      · rw [Live.abandonJob_of_spent hway hqueue hspent, Live.event_printer]; rfl

/-! ### A fault event (R184, R185) -/

/-- The flag is set, with the raise of PRINTER unless it was set before (R184). -/
def Live.faultFlagged (T : Tables) (l : Live) : Live :=
  if l.printer.fault then l else (l.setPrinter { l.printer with fault := true }).raise T .printer .lane 0

theorem Live.printerFault_eq (l : Live) : l.printerFault T = (l.faultFlagged T).abandonJob := rfl

theorem Live.faultFlagged_of_fault (h : l.printer.fault = true) : l.faultFlagged T = l := if_pos h

theorem Live.faultFlagged_raised (h : l.printer.fault = false) :
    Raised T .printer .lane 0 0 { l with printer := { l.printer with fault := true } } (l.faultFlagged T) := by
  rw [Live.faultFlagged, if_neg (Bool.eq_false_iff.1 h)]
  exact Live.raise_lane_raised T _ .printer 0

theorem Live.faultFlagged_fault (l : Live) : (l.faultFlagged T).printer.fault = true := by
  cases h : l.printer.fault with
  | true => rw [Live.faultFlagged_of_fault h]; exact h
  | false => rw [(Live.faultFlagged_raised h).frame.printer]

theorem Live.printerFault_faulted (T : Tables) (l : Live) : PrinterFaulted T l (l.printerFault T) := by
  rw [Live.printerFault_eq]
  refine ⟨(Live.abandonJob_fault _).trans (Live.faultFlagged_fault l), l.faultFlagged T, Live.faultFlagged_of_fault,
    Live.faultFlagged_raised, fun hidle => ?_, fun hway hqueue => ?_, fun e rest hway hqueue =>
      ⟨fun hleft => ?_, fun hspent => ?_⟩⟩
  · exact Live.abandonJob_of_no_job (Bool.eq_false_iff.2 (Printer.underWay_iff.not.2 hidle))
  · exact Live.abandonJob_of_empty (Printer.underWay_iff.2 hway) hqueue
  · exact Live.abandonJob_of_restart (Printer.underWay_iff.2 hway) hqueue hleft
  · exact Live.abandonJob_of_spent (Printer.underWay_iff.2 hway) hqueue hspent

/-! ### The three commands (R182, R184) -/

theorem exec_paperOutAsserted_of_asserted (h : s.live.lines.paperOut = true) : exec (.paperOutAsserted ready) s = .next s :=
  if_pos h

theorem exec_paperOutAsserted_of_clear (hawake : s.awake) (h : s.live.lines.paperOut = false) :
    exec (.paperOutAsserted ready) s = .next (s.withLive (Live.printerFault s.tables
      { s.live with lines := { s.live.lines with paperOut := true, ready := ready } })) := by
  refine (if_neg (Bool.eq_false_iff.1 h)).trans ?_
  rw [State.onLines_awake _ _ hawake]

theorem exec_headHotAsserted_of_asserted (h : s.live.lines.headHot = true) : exec (.headHotAsserted ready) s = .next s :=
  if_pos h

theorem exec_headHotAsserted_of_clear (hawake : s.awake) (h : s.live.lines.headHot = false) :
    exec (.headHotAsserted ready) s = .next (s.withLive (Live.printerFault s.tables
      { s.live with lines := { s.live.lines with headHot := true, ready := ready } })) := by
  refine (if_neg (Bool.eq_false_iff.1 h)).trans ?_
  rw [State.onLines_awake _ _ hawake]

theorem Live.ackDue_iff : l.ackDue = true ↔ l.printer.line ≠ .idle ∧ ∃ n, l.printer.timer = some n ∧ 5000 ≤ n := by
  rw [Live.ackDue, Bool.and_eq_true, reached_iff, bne_iff_ne]
  rfl

theorem exec_ackTimeout_of_other (hawake : s.awake) (h : ¬ s.live.ackDue = true) : exec .ackTimeout s = .next s :=
  (congrArg Host.Outcome.next (State.onLive_awake _ hawake)).trans (by rw [if_neg h]; rfl)

theorem exec_ackTimeout_of_due (hawake : s.awake) (h : s.live.ackDue = true) : exec .ackTimeout s =
    .next (s.withLive { s.live.printerFault s.tables with
      printer := { (s.live.printerFault s.tables).printer with timer := none } }) :=
  (congrArg Host.Outcome.next (State.onLive_awake _ hawake)).trans (by rw [if_pos h]; rfl)

/-- Settles O57: each command that acts makes one fault event of the printer, on the lines as they then stand. -/
theorem printerFaultsAbandonTheJob : Obligations.PrinterFaultsAbandonTheJob := by
  intro s ready hawake l
  refine ⟨exec_paperOutAsserted_of_asserted, exec_headHotAsserted_of_asserted,
    fun hclear => ⟨_, exec_paperOutAsserted_of_clear hawake hclear, Live.printerFault_faulted _ _⟩,
    fun hclear => ⟨_, exec_headHotAsserted_of_clear hawake hclear, Live.printerFault_faulted _ _⟩,
    fun hnot => exec_ackTimeout_of_other hawake fun hdue => ?_,
    fun n hline htimer hlate =>
      ⟨_, Live.printerFault_faulted _ _, exec_ackTimeout_of_due hawake (Live.ackDue_iff.2 ⟨hline, n, htimer, hlate⟩)⟩⟩
  obtain ⟨hline, n, htimer, hlate⟩ := Live.ackDue_iff.1 hdue
  rcases hnot with hidle | hearly
  · exact hline hidle
  · exact absurd (hearly n htimer) (Nat.not_lt.2 hlate)

end
end Sys2Proof.Machine
end

section
/-! ## A rendering of the board (R15, R170, R171)

`Live.withBoard` gathers what a rendering writes: the board image and the down queue. Marking and offering are stated on it line by
line, then along the four lines. -/

namespace Sys2Proof.Machine
section
variable {T : Tables} {l old : Live} {b : Four BoardLine} {d : List DownFrame} {i : Fin 4}

/-- The board image and the down queue replaced. -/
def Live.withBoard (b : Four BoardLine) (d : List DownFrame) (l : Live) : Live :=
  (l.setDown d).setGuide { l.guide with board := b }

/-- The text of a line reads neither the board image nor the down queue. -/
theorem Live.renderLine_withBoard (T : Tables) (l : Live) (b : Four BoardLine) (d : List DownFrame) (n : Nat) :
    (l.withBoard b d).renderLine T n = l.renderLine T n := rfl

theorem Four.set_get {α : Type} (f : Four α) (i : Fin 4) : f.set i (f.get i) = f := by fin_cases i <;> rfl

theorem mem_fourIndices (i : Fin 4) : i ∈ fourIndices := by fin_cases i <;> decide

/-! ### Lines are marked (R171) -/

/-- A line marked dirty where its text is another than its image's. -/
def marked (b : BoardLine) (text : List Byte) : BoardLine := { b with dirty := b.dirty || text != b.text }

theorem Live.markLine_withBoard (T : Tables) (l : Live) (b : Four BoardLine) (d : List DownFrame) (i : Fin 4) :
    (l.withBoard b d).markLine T i = l.withBoard (b.set i (marked (b.get i) (l.renderLine T i.val))) d := by
  by_cases htext : l.renderLine T i.val = (b.get i).text
  · have hmarked : marked (b.get i) (l.renderLine T i.val) = b.get i := by simp [marked, htext]
    rw [hmarked, Four.set_get]
    exact if_pos htext
  · have hmarked : marked (b.get i) (l.renderLine T i.val) = { b.get i with dirty := true } := by simp [marked, htext]
    rw [hmarked]
    exact if_neg htext

theorem Live.markLines_withBoard (T : Tables) (l : Live) (d : List DownFrame) :
    ∀ (is : List (Fin 4)) (b : Four BoardLine), is.Nodup → ∃ c,
      is.foldl (fun x i => x.markLine T i) (l.withBoard b d) = l.withBoard c d
        ∧ ∀ i, c.get i = if i ∈ is then marked (b.get i) (l.renderLine T i.val) else b.get i
  | [], b, _ => ⟨b, rfl, fun _ => rfl⟩
  | k :: is, b, hnodup => by
    obtain ⟨hk, hrest⟩ := List.nodup_cons.1 hnodup
    obtain ⟨c, hfold, hc⟩ := l.markLines_withBoard T d is (b.set k (marked (b.get k) (l.renderLine T k.val))) hrest
    refine ⟨c, by rw [List.foldl_cons, Live.markLine_withBoard, hfold], fun i => ?_⟩
    rw [hc i]
    by_cases hik : i = k
    · subst hik
      rw [if_neg hk, Four.get_set_self, if_pos List.mem_cons_self]
    · rw [Four.get_set_of_ne _ _ hik]
      simp only [List.mem_cons, hik, false_or]

/-! ### Dirty lines are offered (R15, R171) -/

/-- A BOARD frame of the guidance unit, as the down queue holds it. -/
def boardDown (f : Frame) : DownFrame := { source := .board, frame := f }

theorem placeDown_boardFrame (T : Tables) (p : List Byte) (d : List DownFrame) :
    placeDown (boardDown (boardFrame T p)) d = d ++ [boardDown (boardFrame T p)] := by
  cases d <;> rfl

/-- A BOARD frame is admitted while fewer than 13 frames stand in the down queue (R15). -/
theorem Live.admitDown?_boardFrame (T : Tables) (l : Live) (p : List Byte) : l.admitDown? (boardDown (boardFrame T p)) =
    if l.chain.down.length < 13 then some (l.setDown (l.chain.down ++ [boardDown (boardFrame T p)])) else none := by
  rw [Live.admitDown?, placeDown_boardFrame]
  rfl

/-- The frame of a line as it is rendered. -/
def Live.lineFrame (T : Tables) (l : Live) (i : Fin 4) : Frame := boardFrame T (byte i.val :: l.renderLine T i.val)

/-- A line whose frame has entered: its image is the rendered line. -/
def Live.shownLine (T : Tables) (l : Live) (i : Fin 4) : BoardLine := { text := l.renderLine T i.val, dirty := false }

theorem Live.offerLine_of_clean (h : (b.get i).dirty = false) : (l.withBoard b d).offerLine T i = l.withBoard b d :=
  if_neg (Bool.eq_false_iff.1 h)

theorem Live.offerLine_of_full (h : 13 ≤ d.length) : (l.withBoard b d).offerLine T i = l.withBoard b d := by
  have hadmit : (l.withBoard b d).admitDown? (boardDown (l.lineFrame T i)) = none :=
    ((l.withBoard b d).admitDown?_boardFrame T _).trans (if_neg (Nat.not_lt.2 h))
  simp only [Live.offerLine]
  split
  · split
    · next x hx => exact absurd (hadmit.symm.trans hx) nofun
    · rfl
  · rfl

theorem Live.offerLine_of_room (hdirty : (b.get i).dirty = true) (h : d.length < 13) : (l.withBoard b d).offerLine T i =
    l.withBoard (b.set i (l.shownLine T i)) (d ++ [boardDown (l.lineFrame T i)]) := by
  have hadmit : (l.withBoard b d).admitDown? (boardDown (l.lineFrame T i)) =
      some ((l.withBoard b d).setDown (d ++ [boardDown (l.lineFrame T i)])) :=
    ((l.withBoard b d).admitDown?_boardFrame T _).trans (if_pos h)
  refine (if_pos hdirty).trans ?_
  split
  · next x hx =>
    cases hadmit.symm.trans hx
    rfl
  · next hx => exact absurd (hadmit.symm.trans hx) nofun

/-- The dirty lines of a list, offered in its order: as many enter as there is room for. -/
theorem Live.offerLines_withBoard (T : Tables) (l : Live) :
    ∀ (is : List (Fin 4)) (b : Four BoardLine) (d : List DownFrame), is.Nodup → ∃ c,
      is.foldl (fun x i => x.offerLine T i) (l.withBoard b d) =
          l.withBoard c (d ++ ((is.filter fun i => (b.get i).dirty).take (13 - d.length)).map fun i => boardDown (l.lineFrame T i))
        ∧ ∀ i, c.get i = if i ∈ (is.filter fun i => (b.get i).dirty).take (13 - d.length) then l.shownLine T i else b.get i
  | [], b, d, _ => ⟨b, by simp, by simp⟩
  | k :: is, b, d, hnodup => by
    obtain ⟨hk, hrest⟩ := List.nodup_cons.1 hnodup
    rw [List.foldl_cons]
    cases hdirty : (b.get k).dirty with
    | false =>
      rw [Live.offerLine_of_clean hdirty, List.filter_cons_of_neg (by simp [hdirty])]
      exact l.offerLines_withBoard T is b d hrest
    | true =>
      rw [List.filter_cons_of_pos (by simp [hdirty])]
      rcases Nat.lt_or_ge d.length 13 with hroom | hfull
      · have hleft : 13 - d.length = (13 - (d.length + 1)) + 1 := by omega
        have hsame : (is.filter fun i => ((b.set k (l.shownLine T k)).get i).dirty) = is.filter fun i => (b.get i).dirty :=
          List.filter_congr fun i hi => by rw [Four.get_set_of_ne _ _ (fun h : i = k => hk (h ▸ hi))]
        obtain ⟨c, hfold, hc⟩ :=
          l.offerLines_withBoard T is (b.set k (l.shownLine T k)) (d ++ [boardDown (l.lineFrame T k)]) hrest
        rw [hsame, List.length_append, List.length_singleton] at hfold hc
        refine ⟨c, ?_, fun i => ?_⟩
        · rw [Live.offerLine_of_room hdirty hroom, hfold, hleft, List.take_succ_cons, List.map_cons, List.append_assoc]
          rfl
        · rw [hc i, hleft, List.take_succ_cons]
          by_cases hik : i = k
          · subst hik
            rw [Four.get_set_self, ite_self, if_pos List.mem_cons_self]
          · rw [Four.get_set_of_ne _ _ hik]
            simp only [List.mem_cons, hik, false_or]
      · obtain ⟨c, hfold, hc⟩ := l.offerLines_withBoard T is b d hrest
        have hnone : 13 - d.length = 0 := by omega
        rw [hnone, List.take_zero] at hfold hc ⊢
        exact ⟨c, (congrArg (is.foldl (fun x i => x.offerLine T i)) (Live.offerLine_of_full hfull)).trans hfold, hc⟩

/-! ### A rendering (R171) -/

/-- What a rendering writes: the board `c` and the down queue `d`. -/
theorem Live.render_eq (T : Tables) (l : Live) :
    let dirty := fun i => ((l.guide.board.get i).dirty || l.renderLine T i.val != (l.guide.board.get i).text)
    let entered := (fourIndices.filter dirty).take (boardRoom T l)
    ∃ c, l.render T = l.withBoard c (l.chain.down ++ entered.map fun i => boardDown (l.lineFrame T i))
      ∧ ∀ i, c.get i = if i ∈ entered then l.shownLine T i else marked (l.guide.board.get i) (l.renderLine T i.val) := by
  intro dirty entered
  obtain ⟨b, hmark, hb⟩ := l.markLines_withBoard T l.chain.down fourIndices l.guide.board (by decide)
  have hb (i : Fin 4) : b.get i = marked (l.guide.board.get i) (l.renderLine T i.val) := (hb i).trans (if_pos (mem_fourIndices i))
  have hdirty : (fun i => (b.get i).dirty) = dirty := funext fun i => by rw [hb i]; rfl
  obtain ⟨c, hoffer, hc⟩ := l.offerLines_withBoard T fourIndices b l.chain.down (by decide)
  rw [hdirty] at hoffer hc
  have hself : l.withBoard l.guide.board l.chain.down = l := rfl
  rw [hself] at hmark
  cases hlane : T.valid .lane with
  | true =>
    have hroom : boardRoom T l = 13 - l.chain.down.length := by simp [boardRoom, hlane]
    refine ⟨c, ?_, fun i => ?_⟩
    · simp only [Live.render, hmark, hlane, if_true, hoffer, entered, hroom]
    · rw [hc i, hb i]
      simp only [entered, hroom]
  | false =>
    have hroom : boardRoom T l = 0 := by simp [boardRoom, hlane]
    have hnone : entered = [] := by simp only [entered, hroom, List.take_zero]
    refine ⟨b, ?_, fun i => ?_⟩
    · simp only [Live.render, hmark, hlane, Bool.false_eq_true, if_false, hnone, List.map_nil, List.append_nil]
    · rw [hb i, hnone]
      simp

/-- A rendering does not change what a line shows. -/
theorem Live.renderLine_render (T : Tables) (l : Live) (n : Nat) : (l.render T).renderLine T n = l.renderLine T n := by
  obtain ⟨c, hrender, -⟩ := l.render_eq T
  rw [hrender, Live.renderLine_withBoard]

/-- A rendering that starts with the board and the down queue of `old`, but that every line may be marked dirty before. -/
theorem Live.render_rendered {again : Bool} (hdown : l.chain.down = old.chain.down)
    (hboard : ∀ i, l.guide.board.get i =
      { old.guide.board.get i with dirty := again || (old.guide.board.get i).dirty }) :
    Rendered T again [] old (l.render T) := by
  obtain ⟨c, hrender, hc⟩ := l.render_eq T
  have hline (i : Fin 4) : (l.render T).renderLine T i.val = l.renderLine T i.val := l.renderLine_render T i.val
  have hsent : (fourIndices.filter fun i => ((l.guide.board.get i).dirty || l.renderLine T i.val != (l.guide.board.get i).text)) =
      sentLines T again old (l.render T) :=
    List.filter_congr fun i _ => by rw [hline i, hboard i]
  have hroom : boardRoom T l = boardRoom T old := by rw [boardRoom, hdown]; rfl
  rw [hsent, hroom] at hrender hc
  have hget (i : Fin 4) : (l.render T).guide.board.get i = c.get i := by rw [hrender]; rfl
  refine ⟨?_, fun i hi => ?_, fun i hi => ?_⟩
  · have hqueue : (l.render T).chain.down = l.chain.down ++ ((sentLines T again old (l.render T)).take (boardRoom T old)).map
        fun i => boardDown (l.lineFrame T i) := congrArg (fun x : Live => x.chain.down) hrender
    simp only [hqueue, hdown, List.append_nil, ← List.map_take, List.map_map, hline]
    rfl
  · rw [hget i, hc i, if_pos hi, hline i]
    rfl
  · rw [hget i, hc i, if_neg hi, marked, hboard i]
    have hmem : decide (i ∈ sentLines T again old (l.render T)) = (again || (old.guide.board.get i).dirty
        || l.renderLine T i.val != (old.guide.board.get i).text) := by
      simp only [sentLines, List.mem_filter, mem_fourIndices, true_and, hline i, Bool.decide_eq_true]
    rw [hmem]

end
end Sys2Proof.Machine
end

section
/-! ## Bars and the timers of the board (R168, R171, R172; O46) -/

namespace Sys2Proof.Machine
section
variable {T : Tables} {l m old : Live} {s : State} {e : PromptEntry} {q rest : List PromptEntry}

/-! ### Bar frames (R15, R172) -/

theorem barFill_eq (scale : Nat) (force : Option Int) : barFill scale force = min 100 ((force.getD 0).toNat * 100 / scale) := by
  cases force with
  | none => simp [barFill]
  | some f => rfl

/-- A bar frame is offered where there is room, and is discarded else. -/
theorem Live.offerBar_eq (T : Tables) (l : Live) (a b : Nat) : l.offerBar T a b =
    l.setDown (l.chain.down ++ ([boardFrame T [4, byte a, byte b]].take (13 - l.chain.down.length)).map boardDown) := by
  have hadmit := l.admitDown?_boardFrame T [4, byte a, byte b]
  simp only [boardDown] at hadmit
  rw [Live.offerBar, hadmit]
  rcases Nat.lt_or_ge l.chain.down.length 13 with hroom | hfull
  · obtain ⟨k, hk⟩ : ∃ k, 13 - l.chain.down.length = k + 1 := ⟨12 - l.chain.down.length, by omega⟩
    rw [if_pos hroom, hk, List.take_succ_cons, List.take_nil]
    rfl
  · rw [if_neg (Nat.not_lt.2 hfull), Nat.sub_eq_zero_of_le hfull, List.take_zero, List.map_nil, List.append_nil]
    rfl

/-- The focus station, while it is READY or MEASURING (R172). -/
def Live.shownRoller (l : Live) : Option Roller :=
  l.guide.focus.filter fun r => (l.roller r).state == .ready || (l.roller r).state == .measuring

/-- The bar frames of a refresh: those of the station shown, or the closing one (R172). -/
def Live.barFrames (T : Tables) (l : Live) : List Frame :=
  match l.shownRoller with
  | some r =>
    [boardFrame T [4, byte (barFill T.settings.barScale (l.latest T (stationOf r) .forceL)),
      byte (barFill T.settings.barScale (l.latest T (stationOf r) .forceR))]]
  | none => if l.guide.barsShown then [boardFrame T [4, 0, 0]] else []

/-- What a refresh makes of the bars: frames at the end of the down queue, and whether bars are shown. -/
def Live.withBars (frames : List Frame) (shown : Bool) (l : Live) : Live :=
  (l.setDown (l.chain.down ++ (frames.take (13 - l.chain.down.length)).map boardDown)).setGuide
    { l.guide with barsShown := shown }

/-- The bars shown before are closed, where there are any. -/
theorem Live.closeBars_eq (T : Tables) (l : Live) :
    (if l.guide.barsShown then (l.offerBar T 0 0).setGuide { l.guide with barsShown := false } else l) =
      l.withBars (if l.guide.barsShown then [boardFrame T [4, 0, 0]] else []) false := by
  split
  · rw [Live.offerBar_eq]
    rfl
  · next hnone =>
    have hguide : { l.guide with barsShown := false } = l.guide := by rw [← Bool.eq_false_iff.2 hnone]
    rw [Live.withBars, hguide, List.take_nil, List.map_nil, List.append_nil]
    rfl

theorem Live.refreshBars_eq (T : Tables) (l : Live) : l.refreshBars T = l.withBars (l.barFrames T) l.shownRoller.isSome := by
  have hclose := l.closeBars_eq T
  simp only [Live.refreshBars, hclose]
  split
  · next hfocus =>
    have hshown : l.shownRoller = none := by rw [Live.shownRoller, hfocus]; rfl
    rw [Live.barFrames, hshown]
    rfl
  · next r hfocus =>
    split
    · next hstate =>
      have hshown : l.shownRoller = some r := by rw [Live.shownRoller, hfocus, Option.filter_some, if_pos hstate]
      rw [Live.barFrames, hshown, Live.offerBar_eq]
      rfl
    · next hstate =>
      have hshown : l.shownRoller = none := by rw [Live.shownRoller, hfocus, Option.filter_some, if_neg hstate]
      rw [Live.barFrames, hshown]
      rfl

/-- Bar frames offered after the lines of a rendering (R171, R172). -/
theorem Rendered.withBars {again : Bool} {frames : List Frame} {shown : Bool} (hlane : T.valid .lane = true)
    (h : Rendered T again [] old l) : Rendered T again frames old (l.withBars frames shown) := by
  have hline (i : Fin 4) : (l.withBars frames shown).renderLine T i.val = l.renderLine T i.val := rfl
  have hsent : sentLines T again old (l.withBars frames shown) = sentLines T again old l := rfl
  refine ⟨?_, fun i hi => ?_, fun i hi => ?_⟩
  · have hdown := h.down
    have hroom : boardRoom T old = 13 - old.chain.down.length := by simp [boardRoom, hlane]
    simp only [List.append_nil, hroom] at hdown
    have hlength := congrArg List.length hdown
    simp only [List.length_append, List.length_map, List.length_take] at hlength
    have hleft : 13 - l.chain.down.length = 13 - old.chain.down.length - (sentLines T again old l).length := by omega
    simp only [hsent, hline, hroom, List.take_append, List.map_append, List.length_map, ← List.append_assoc]
    rw [← hdown, ← hleft]
    rfl
  · rw [hsent] at hi
    exact h.sent i hi
  · rw [hsent] at hi ⊢
    exact h.left i hi

/-! ### REFRESH_EXPIRY (R171, R172) -/

theorem exec_refreshExpiry_of_other (hawake : s.awake) (h : ¬ s.live.refreshDue = true) : exec .refreshExpiry s = .next s :=
  (congrArg Host.Outcome.next (State.onLive_awake _ hawake)).trans (by rw [if_neg h]; rfl)

theorem exec_refreshExpiry_of_due (hawake : s.awake) (h : s.live.refreshDue = true) :
    exec .refreshExpiry s = .next (s.withLive (s.live.refresh s.tables)) :=
  (congrArg Host.Outcome.next (State.onLive_awake _ hawake)).trans (by rw [if_pos h])

/-- A refresh as its timer restarts and it counts, its lines not yet rendered: at the tenth every line is dirty (R171). -/
def Live.refreshing (l : Live) : Live :=
  let again := decide (10 ≤ l.guide.resend + 1)
  let l1 := l.setGuide { l.guide with refreshTimer := some 0, resend := if again then 0 else l.guide.resend + 1 }
  if again then l1.allDirty else l1

theorem Live.refresh_eq (T : Tables) (l : Live) : l.refresh T = (l.refreshing.render T).refreshBars T := rfl

/-- Of the guidance unit, the timer, the count and the marks of the lines are another. -/
theorem Live.refreshing_eq (l : Live) : ∃ b, l.refreshing = l.setGuide { l.guide with
      refreshTimer := some 0, resend := if 10 ≤ l.guide.resend + 1 then 0 else l.guide.resend + 1, board := b }
    ∧ ∀ i, b.get i =
      { l.guide.board.get i with dirty := decide (10 ≤ l.guide.resend + 1) || (l.guide.board.get i).dirty } := by
  unfold Live.refreshing
  by_cases hten : 10 ≤ l.guide.resend + 1
  · simp only [hten, decide_true, if_true]
    exact ⟨_, rfl, fun i => by fin_cases i <;> rfl⟩
  · simp only [hten, decide_false, Bool.false_eq_true, if_false, Bool.false_or]
    exact ⟨_, rfl, fun _ => rfl⟩

theorem Live.refreshing_shows (l : Live) : Shows l l.refreshing := by
  obtain ⟨b, hrefreshing, -⟩ := l.refreshing_eq
  rw [hrefreshing]
  exact l.setGuide_shows _

theorem Live.refreshing_quiet (l : Live) : Quiet l l.refreshing := by
  obtain ⟨b, hrefreshing, -⟩ := l.refreshing_eq
  rw [hrefreshing]
  exact Live.setGuide_quiet (.refl l) _

/-- The bars follow the stations, which a rendering does not move (R172). -/
theorem Live.refresh_withBars (T : Tables) (l : Live) :
    l.refresh T = (l.refreshing.render T).withBars (l.barFrames T) l.shownRoller.isSome := by
  obtain ⟨b, hrefreshing, -⟩ := l.refreshing_eq
  obtain ⟨c, hrender, -⟩ := l.refreshing.render_eq T
  rw [Live.refresh_eq, Live.refreshBars_eq, hrender, hrefreshing]
  rfl

theorem Live.refresh_rendered (hlane : T.valid .lane = true) :
    Rendered T (decide (10 ≤ l.guide.resend + 1)) (l.barFrames T) l (l.refresh T) := by
  obtain ⟨b, hrefreshing, hb⟩ := l.refreshing_eq
  rw [Live.refresh_withBars]
  refine Rendered.withBars hlane (Live.render_rendered ?_ fun i => ?_)
  · rw [hrefreshing]; rfl
  · rw [hrefreshing]; exact hb i

theorem Live.refresh_guide (T : Tables) (l : Live) : ∃ b, (l.refresh T).guide = { l.guide with
    refreshTimer := some 0, resend := if 10 ≤ l.guide.resend + 1 then 0 else l.guide.resend + 1
    board := b, barsShown := l.shownRoller.isSome } := by
  obtain ⟨b, hrefreshing, -⟩ := l.refreshing_eq
  obtain ⟨c, hguide⟩ := l.refreshing.render_boardOnly (T := T)
  refine ⟨c, ?_⟩
  rw [hrefreshing] at hguide
  rw [Live.refresh_withBars, Live.withBars, Live.setGuide_guide, hrefreshing, hguide]
  rfl

theorem Live.renderLine_refresh (T : Tables) (l : Live) (n : Nat) : (l.refresh T).renderLine T n = l.renderLine T n := by
  obtain ⟨b, hrefreshing, -⟩ := l.refreshing_eq
  have hline : l.refreshing.renderLine T n = l.renderLine T n := by rw [hrefreshing]; rfl
  rw [Live.refresh_withBars]
  exact (l.refreshing.renderLine_render T n).trans hline

theorem Live.refresh_quiet (T : Tables) (l : Live) : Quiet l (l.refresh T) := by
  rw [Live.refresh_withBars]
  exact Live.setGuide_quiet (Live.setDown_quiet (Live.render_quiet l.refreshing_quiet) _) _

theorem Live.refresh_shows_render (T : Tables) (l : Live) : Shows l (l.refreshing.render T) :=
  l.refreshing_shows.trans (Live.render_shows _)

theorem Live.refresh_still (T : Tables) (l : Live) : Still l (l.refresh T) := by
  obtain ⟨hps, hra, hrb⟩ := (l.refresh_shows_render T).still
  rw [Live.refresh_withBars]
  exact ⟨hps, hra, hrb⟩

theorem Live.refresh_seq (T : Tables) (l : Live) : (l.refresh T).seq = l.seq := by
  rw [Live.refresh_withBars]
  exact (l.refresh_shows_render T).seq

theorem Live.refreshDue_iff : l.refreshDue = true ↔ ∃ t, l.guide.refreshTimer = some t ∧ Config.refreshPeriod ≤ t :=
  reached_iff

/-! ### The prompt queue changes (R168, R171) -/

theorem Live.setQueue_of_new_head (h : headMark q ≠ headMark l.guide.queue) : l.setQueue T q =
    (l.setGuide { l.guide with queue := q, holdTimer := if q.isEmpty then none else some 0 }).render T := if_neg h

theorem Live.setQueue_of_same_head (h : headMark q = headMark l.guide.queue) :
    l.setQueue T q = l.setGuide { l.guide with queue := q } := if_pos h

/-- Of the guidance unit, a change of the queue moves the hold timer and the board alone. -/
theorem Live.setQueue_guide (T : Tables) (l : Live) (q : List PromptEntry) :
    ∃ t b, (l.setQueue T q).guide = { l.guide with queue := q, holdTimer := t, board := b } := by
  by_cases h : headMark q = headMark l.guide.queue
  · rw [Live.setQueue_of_same_head h]
    exact ⟨_, _, rfl⟩
  · rw [Live.setQueue_of_new_head h]
    obtain ⟨b, hb⟩ := Live.render_boardOnly (T := T)
      (l.setGuide { l.guide with queue := q, holdTimer := if q.isEmpty then none else some 0 })
    exact ⟨_, b, hb⟩

theorem Live.setQueue_up (T : Tables) (l : Live) (q : List PromptEntry) : (l.setQueue T q).chain.up = l.chain.up := by
  by_cases h : headMark q = headMark l.guide.queue
  · rw [Live.setQueue_of_same_head h]
    rfl
  · rw [Live.setQueue_of_new_head h, Live.render_up]
    rfl

/-! ### PROMPT_HOLD_EXPIRY (R168) -/

theorem exec_promptHoldExpiry_of_other (hawake : s.awake) (h : ¬ s.live.holdDue = true) : exec .promptHoldExpiry s = .next s :=
  (congrArg Host.Outcome.next (State.onLive_awake _ hawake)).trans (by rw [if_neg h]; rfl)

theorem exec_promptHoldExpiry_of_due (hawake : s.awake) (h : s.live.holdDue = true) : exec .promptHoldExpiry s =
    .next (s.withLive (s.live.setQueue s.tables (s.live.guide.queue.drop 1))) :=
  (congrArg Host.Outcome.next (State.onLive_awake _ hawake)).trans (by rw [if_pos h])

theorem Live.holdDue_of_head (hqueue : l.guide.queue = e :: rest) : l.holdDue = true ↔
    0 < e.hold ∧ e.links = [] ∧ ∃ t, l.guide.holdTimer = some t ∧ e.hold * 1000 ≤ t := by
  simp only [Live.holdDue, hqueue, Bool.and_eq_true, decide_eq_true_eq, List.isEmpty_iff, reached_iff, and_assoc]

theorem Live.holdDue_of_empty (hqueue : l.guide.queue = []) : ¬ l.holdDue = true := by
  simp [Live.holdDue, hqueue]

/-- The head prompt has left the queue, and another entry, or none, is shown with its hold timer restarted. -/
theorem Live.setQueue_of_head_gone (T : Tables) (hqueue : l.guide.queue = e :: rest)
    (hother : rest.head?.map (·.arrival) ≠ some e.arrival) :
    (l.setQueue T rest).guide.queue = rest ∧ (l.setQueue T rest).guide.holdTimer = (if rest = [] then none else some 0)
      ∧ Rendered T false [] l (l.setQueue T rest) := by
  have hhead : headMark rest ≠ headMark l.guide.queue := by rw [hqueue]; exact hother
  rw [Live.setQueue_of_new_head hhead]
  obtain ⟨b, hb⟩ := Live.render_boardOnly (T := T)
    (l.setGuide { l.guide with queue := rest, holdTimer := if rest.isEmpty then none else some 0 })
  refine ⟨by rw [hb]; rfl, ?_, Live.render_rendered rfl fun i => rfl⟩
  rw [hb]
  cases rest <;> rfl

/-- Settles O46: the head prompt's removal by what a change of the queue does, the refresh by its lines and then its bars. -/
theorem boardTimersExpire : Obligations.BoardTimersExpire := by
  intro s hawake T g
  refine ⟨fun e rest t hqueue hhold hlinks htimer hlate hother => ?_, fun e rest hqueue hearly => ?_, fun hempty => ?_,
    fun t htimer hlate hlane => ?_, fun hearly => ?_⟩
  · have hdue := (Live.holdDue_of_head hqueue).2 ⟨hhold, hlinks, t, htimer, hlate⟩
    have hexec := exec_promptHoldExpiry_of_due hawake hdue
    rw [hqueue, List.drop_one, List.tail_cons] at hexec
    obtain ⟨hleft, hrestarted, hrendered⟩ := Live.setQueue_of_head_gone T hqueue hother
    exact ⟨_, hexec, hleft, hrestarted, hrendered, Live.setQueue_still (.refl _) rest, Live.setQueue_quiet (.refl _) rest,
      (Live.setQueue_shows _ rest).seq⟩
  · refine exec_promptHoldExpiry_of_other hawake fun hdue => ?_
    obtain ⟨hhold, hlinks, t, htimer, hlate⟩ := (Live.holdDue_of_head hqueue).1 hdue
    rcases hearly with hzero | hlinked | hshort
    · exact absurd hzero hhold.ne'
    · exact hlinked hlinks
    · exact absurd (hshort t htimer) (Nat.not_lt.2 hlate)
  · exact exec_promptHoldExpiry_of_other hawake (Live.holdDue_of_empty hempty)
  · intro fill shown bars
    have hexec := exec_refreshExpiry_of_due hawake (Live.refreshDue_iff.2 ⟨t, htimer, hlate⟩)
    have hbars : s.live.barFrames T = bars := by
      simp only [Live.barFrames, barFill_eq]
      rfl
    obtain ⟨b, hguide⟩ := s.live.refresh_guide T
    have hrendered := Live.refresh_rendered (l := s.live) hlane
    rw [hbars] at hrendered
    refine ⟨_, hexec, ?_, ?_, hrendered, ?_, fun i => s.live.renderLine_refresh T i, ?_, ?_, ?_, s.live.refresh_still T,
      s.live.refresh_quiet T, s.live.refresh_seq T⟩
    all_goals rw [hguide]
    rfl
  · refine exec_refreshExpiry_of_other hawake fun hdue => ?_
    obtain ⟨t, htimer, hlate⟩ := Live.refreshDue_iff.1 hdue
    rcases hearly with hnone | hshort
    · exact absurd (hnone.symm.trans htimer) nofun
    · exact absurd (hshort t htimer) (Nat.not_lt.2 hlate)

end
end Sys2Proof.Machine
end

section
/-! ## PROMPT_POST and PROMPT_CLEAR (R166, R167, R169, R170; O44, O45) -/

namespace Sys2Proof.Machine
section
variable {T : Tables} {l : Live} {s : State} {e d : PromptEntry} {q : List PromptEntry} {n : Byte}

/-! ### The queue's order (R166) -/

/-- An entry goes in behind every entry of its class or higher, and before the first of a lower one. -/
theorem insertPrompt_split (e : PromptEntry) (q : List PromptEntry) : ∃ before after,
    insertPrompt e q = before ++ e :: after ∧ before ++ after = q
      ∧ (∀ x ∈ before, classRank x.cls ≤ classRank e.cls)
      ∧ ∀ x, after.head? = some x → classRank e.cls < classRank x.cls := by
  let stays : PromptEntry → Bool := fun x => decide (classRank x.cls ≤ classRank e.cls)
  refine ⟨q.takeWhile stays, q.dropWhile stays, rfl, List.takeWhile_append_dropWhile, fun x hx => ?_, fun x hx => ?_⟩
  · exact of_decide_eq_true (List.mem_takeWhile_imp (p := stays) hx)
  · have hlower := List.head?_dropWhile_not stays q
    rw [hx] at hlower
    simpa [stays] using hlower

theorem indexOfFirst_of_split {α : Type} {p : α → Bool} {a : α} {after : List α} (ha : p a = true) :
    ∀ (before : List α) (k : Nat), (∀ x ∈ before, p x = false) →
      indexOfFirst p (before ++ a :: after) k = some (k + before.length)
  | [], k, _ => if_pos ha
  | x :: before, k, hbefore => by
    have hx : p x = false := hbefore x List.mem_cons_self
    have hrest := indexOfFirst_of_split (after := after) ha before (k + 1) fun y hy => hbefore y (List.mem_cons_of_mem x hy)
    rw [List.cons_append, indexOfFirst, if_neg (Bool.eq_false_iff.1 hx), hrest, List.length_cons]
    congr 1
    omega

theorem indexOfFirst_eq_none {α : Type} {p : α → Bool} : ∀ {as : List α} (k : Nat), (∀ x ∈ as, p x = false) →
    indexOfFirst p as k = none
  | [], _, _ => rfl
  | x :: as, k, h => by
    rw [indexOfFirst, if_neg (Bool.eq_false_iff.1 (h x List.mem_cons_self))]
    exact indexOfFirst_eq_none (k + 1) fun y hy => h y (List.mem_cons_of_mem x hy)

/-! ### A post (R166, R170) -/

/-- The entry that the host's post of a number makes, with the links of the entry it replaces. -/
def Live.hostEntry (T : Tables) (l : Live) (k : Nat) : PromptEntry :=
  { number := k, cls := ((T.prompt? k).map (·.cls)).getD .info, hold := ((T.prompt? k).map (·.hold)).getD 0, stepEnd := false
    links := (l.guide.queue.filter fun x => x.number == k).flatMap (·.links)
    arrival := l.guide.nextArrival, fixed := l.slotValues T }

theorem Live.promptEntry_host (T : Tables) (l : Live) (k : Nat) :
    l.promptEntry T k .host false ((l.guide.queue.filter (·.number == k)).flatMap (·.links) ++ []) = l.hostEntry T k := by
  simp only [List.append_nil, Live.promptEntry, Live.hostEntry]
  cases T.prompt? k <;> rfl

/-- The entries of other numbers. -/
def Live.otherPrompts (l : Live) (k : Nat) : List PromptEntry := l.guide.queue.filter fun x => x.number != k

/-- An arrival order is spent. -/
def Live.arrived (l : Live) : Live := l.setGuide { l.guide with nextArrival := l.guide.nextArrival + 1 }

/-- The queue with an entry in its place among others, as a post changes it. -/
def Live.entered (T : Tables) (l : Live) (e : PromptEntry) (q : List PromptEntry) : Live :=
  l.arrived.setQueue T (insertPrompt e q)

theorem Live.postPrompt_of_room {k : Nat} (hroom : (l.otherPrompts k).length < 8) :
    l.postPrompt T k .host false [] = l.entered T (l.hostEntry T k) (l.otherPrompts k) := by
  rw [← Live.promptEntry_host]
  exact if_pos hroom

/-- A full queue: its oldest entry of the lowest class gives way to an entry of a higher one, and no other (R166). -/
theorem Live.postPrompt_of_full {k : Nat} (hfull : 8 ≤ (l.otherPrompts k).length)
    (hlast : displaced (l.otherPrompts k) = some d) :
    l.postPrompt T k .host false [] =
      if classRank (l.hostEntry T k).cls < classRank d.cls then
        (l.entered T (l.hostEntry T k) ((l.otherPrompts k).filter fun x => x.number != d.number)).event .promptDropped none 0
          d.number
      else l.arrived.event .promptDropped none 0 k := by
  rw [← Live.promptEntry_host]
  refine (if_neg (Nat.not_lt.2 hfull)).trans ?_
  split
  · next x hx =>
    cases hlast.symm.trans hx
    rfl
  · next hx => exact absurd (hlast.symm.trans hx) nofun

theorem Live.entered_guide (T : Tables) (l : Live) (e : PromptEntry) (q : List PromptEntry) :
    (l.entered T e q).guide.queue = insertPrompt e q ∧ (l.entered T e q).guide.nextArrival = l.guide.nextArrival + 1 := by
  obtain ⟨t, b, hguide⟩ := l.arrived.setQueue_guide T (insertPrompt e q)
  rw [Live.entered, hguide]
  exact ⟨rfl, rfl⟩

theorem Live.entered_up (T : Tables) (l : Live) (e : PromptEntry) (q : List PromptEntry) :
    (l.entered T e q).chain.up = l.chain.up := l.arrived.setQueue_up T _

theorem Live.entered_shows (T : Tables) (l : Live) (e : PromptEntry) (q : List PromptEntry) : Shows l (l.entered T e q) :=
  (l.setGuide_shows _).trans (Live.setQueue_shows _ _)

theorem Live.entered_quiet (T : Tables) (l : Live) (e : PromptEntry) (q : List PromptEntry) : Quiet l (l.entered T e q) :=
  Live.setQueue_quiet (Live.setGuide_quiet (.refl l) _) _

/-- EVENT PROMPT_DROPPED for an entry left out, where there is one (R166). -/
def Live.dropped (drop : Option Nat) (l : Live) : Live := drop.elim l fun k => l.event .promptDropped none 0 k

theorem Live.dropped_guide (drop : Option Nat) (l : Live) : (l.dropped drop).guide = l.guide := by
  cases drop with
  | none => rfl
  | some k => exact Live.event_guide _ _ _ _

theorem Live.dropped_shows (drop : Option Nat) (l : Live) : Shows l (l.dropped drop) := by
  cases drop with
  | none => exact .refl l
  | some k => exact l.event_shows _ _ _ _

theorem Live.dropped_quiet (drop : Option Nat) (l : Live) : Quiet l (l.dropped drop) := by
  cases drop with
  | none => exact .refl l
  | some k => exact Live.event_quiet (.refl l) _ _ _ _

/-! ### PROMPT_POST (R169) -/

theorem rd_singleton (n : Byte) : rd [n] 0 = n.toNat := rfl

/-- An entry has gone in among others, with EVENT PROMPT_DROPPED for one left out: the reply carries its position. -/
theorem promptPostRequest_of_posted {m : Live} {before after : List PromptEntry} (hn : n.toNat ≤ 127)
    (hpost : l.postPrompt T n.toNat .host false [] = m) (hqueue : m.guide.queue = before ++ e :: after)
    (he : e.number = n.toNat) (hbefore : ∀ x ∈ before, x.number ≠ n.toNat) :
    promptPostRequest T [n] l = accept T m [byte (before.length + 1)] := by
  have hindex := indexOfFirst_of_split (p := fun x : PromptEntry => x.number == n.toNat) (after := after) (beq_iff_eq.2 he)
    before 1 fun x hx => beq_eq_false_iff_ne.2 (hbefore x hx)
  simp only [promptPostRequest, List.length_singleton, rd_singleton, hn, and_self, if_true, hpost, hqueue, hindex,
    Nat.add_comm 1]

/-- A refused post leaves its number out of the queue. -/
theorem promptPostRequest_of_refused {m : Live} (hn : n.toNat ≤ 127) (hpost : l.postPrompt T n.toNat .host false [] = m)
    (hqueue : ∀ x ∈ m.guide.queue, x.number ≠ n.toNat) : promptPostRequest T [n] l = refuse T m .full := by
  have hindex := indexOfFirst_eq_none (p := fun x : PromptEntry => x.number == n.toNat) 1 fun x hx =>
    beq_eq_false_iff_ne.2 (hqueue x hx)
  simp only [promptPostRequest, List.length_singleton, rd_singleton, hn, and_self, if_true, hpost, hindex]

theorem exec_promptPost {x : Answered} (hasks : s.asks [20, n]) (hx : promptPostRequest s.tables [n] s.taking = x) :
    exec .promptPost s = .next (s.answered 20 x.tables x.live x.status x.data) := exec_answered hasks rfl rfl hx

theorem Live.number_of_otherPrompts {k : Nat} : ∀ x ∈ l.otherPrompts k, x.number ≠ k := fun x hx => by
  simpa using (List.mem_filter.1 hx).2

/-- Without one of the number in it, a queue of no more than 8 is as long as what is left of it. -/
theorem Live.number_of_full {k : Nat} (hlength : l.guide.queue.length ≤ 8) (hfull : 8 ≤ (l.otherPrompts k).length) :
    ∀ x ∈ l.guide.queue, x.number ≠ k := by
  have hall := List.length_filter_eq_length_iff.1
    (Nat.le_antisymm (List.length_filter_le _ _) (hlength.trans hfull))
  exact fun x hx => by simpa using hall x hx

/-- Settles O44: a post by whether there is room, and in a full queue by the class of the entry that would give way. -/
theorem promptPostKeepsTheQueueInOrder : Obligations.PromptPostKeepsTheQueueInOrder := by
  intro s n hn hasks hlength g others p e posted
  have hposted {q : List PromptEntry} {drop : Option Nat} (hq : ∀ x ∈ q, x.number ≠ n.toNat)
      (hpost : s.taking.postPrompt s.tables n.toNat .host false [] = (s.taking.entered s.tables e q).dropped drop) :
      posted q drop := by
    obtain ⟨before, after, hinsert, hsplit, hbefore, hafter⟩ := insertPrompt_split e q
    obtain ⟨hentered, harrival⟩ := s.taking.entered_guide s.tables e q
    have hguide := (s.taking.entered s.tables e q).dropped_guide drop
    have hqueue : ((s.taking.entered s.tables e q).dropped drop).guide.queue = before ++ e :: after := by
      rw [hguide, hentered, hinsert]
    have hshows := (s.taking.entered_shows s.tables e q).trans (Live.dropped_shows drop _)
    obtain ⟨hps, hra, hrb⟩ := hshows.still
    have hnumber : ∀ x ∈ before, x.number ≠ n.toNat := fun x hx => hq x (hsplit ▸ List.mem_append_left after hx)
    exact ⟨_, _, before, after, exec_promptPost hasks (promptPostRequest_of_posted hn hpost hqueue rfl hnumber), hqueue, hsplit,
      hbefore, hafter, ⟨hps, hra, hrb⟩, (s.taking.entered_quiet s.tables e q).trans (Live.dropped_quiet drop _), hshows.seq,
      (congrArg Guide.nextArrival hguide).trans harrival, s.taking.entered_up s.tables e q, rfl⟩
  refine ⟨fun hroom => hposted Live.number_of_otherPrompts (Live.postPrompt_of_room hroom), fun d hfull hlast => ?_⟩
  have hpost := Live.postPrompt_of_full (T := s.tables) (l := s.taking) hfull hlast
  refine ⟨fun hhigher => ?_, fun hlower => ?_⟩
  · exact hposted (fun x hx => Live.number_of_otherPrompts x (List.mem_filter.1 hx).1) (hpost.trans (if_pos hhigher))
  · refine exec_promptPost hasks (promptPostRequest_of_refused hn (hpost.trans (if_neg (Nat.not_lt.2 hlower))) ?_)
    rw [Live.event_guide]
    exact Live.number_of_full hlength hfull

/-! ### PROMPT_CLEAR (R167, R169) -/

theorem exec_promptClear {x : Answered} (hasks : s.asks [21, n]) (hx : promptClearRequest s.tables [n] s.taking = x) :
    exec .promptClear s = .next (s.answered 21 x.tables x.live x.status x.data) := exec_answered hasks rfl rfl hx

theorem promptClearRequest_all : promptClearRequest T [0xFF] l = clearAllPrompts T l := rfl

theorem promptClearRequest_one (hn : n.toNat ≤ 127) : promptClearRequest T [n] l = clearPrompt T n.toNat l := by
  have hone : ¬ n.toNat = 0xFF := by omega
  exact (if_neg (not_not.2 rfl)).trans ((if_neg hone).trans (if_pos hn))

theorem clearPrompt_of_absent {k : Nat} (h : ∀ x ∈ l.guide.queue, x.number ≠ k) :
    clearPrompt T k l = refuse T l .notFound := by
  have hnone : l.guide.queue.find? (·.number == k) = none :=
    List.find?_eq_none.2 fun x hx => by simpa using h x hx
  rw [clearPrompt, hnone]

theorem clearPrompt_of_linked {k : Nat} (he : l.guide.queue.find? (·.number == k) = some e) (hlinks : e.links ≠ []) :
    clearPrompt T k l = refuse T l .state := by
  simp only [clearPrompt, he]
  exact if_neg (List.isEmpty_iff.not.2 hlinks)

theorem clearPrompt_of_unlinked {k : Nat} (he : l.guide.queue.find? (·.number == k) = some e) (hlinks : e.links = []) :
    clearPrompt T k l = accept T (l.setQueue T (l.otherPrompts k)) [] := by
  simp only [clearPrompt, he]
  exact if_pos (List.isEmpty_iff.2 hlinks)

/-- Settles O45: both forms put a shorter queue in place, or leave the one there is. -/
theorem promptClearRemovesUnlinkedPrompts : Obligations.PromptClearRemovesUnlinkedPrompts := by
  intro s n q left
  have hleft {k : Byte} {p : List PromptEntry} {data : List Byte} (hasks : s.asks [21, k])
      (hclear : promptClearRequest s.tables [k] s.taking = accept s.tables (s.taking.setQueue s.tables p) data) :
      left p data := by
    obtain ⟨t, b, hguide⟩ := s.taking.setQueue_guide s.tables p
    have hshows := s.taking.setQueue_shows (T := s.tables) p
    obtain ⟨hps, hra, hrb⟩ := hshows.still
    exact ⟨_, exec_promptClear hasks hclear, congrArg Guide.queue hguide, ⟨hps, hra, hrb⟩,
      Live.setQueue_quiet (.refl _) p, hshows.seq⟩
  refine ⟨fun hasks => hleft hasks promptClearRequest_all, fun hn hasks => ⟨fun habsent => ?_, fun e he =>
    ⟨fun hlinks => ?_, fun hlinks => ?_⟩⟩⟩
  · exact exec_promptClear hasks ((promptClearRequest_one hn).trans (clearPrompt_of_absent habsent))
  · exact exec_promptClear hasks ((promptClearRequest_one hn).trans (clearPrompt_of_linked he hlinks))
  · exact hleft hasks ((promptClearRequest_one hn).trans (clearPrompt_of_unlinked he hlinks))

end
end Sys2Proof.Machine
end

section
/-! ## What a lane reset leaves as it was (R18, R38, R54, R75, R104, R162; O30)

`Rests old s`: the down queue has only grown, and the stations keep the last side-slip and the drive-fault flags. `WindsDown old s`
adds what no part of a lane reset behind the chain interface's reaches. -/

namespace Sys2Proof.Machine

section
variable {T : Tables} {old l m : Live} {r q : Roller} {st p : Station}

/-! ### The down queue and what stations keep -/

/-- What every act of a lane reset leaves of the down queue and of the stations. -/
structure Rests (old l : Live) : Prop where
  down : DownGrows old.chain.down l.chain.down
  slip : l.ps.lastSlip = old.ps.lastSlip
  driveFault : ∀ r, (l.roller r).driveFault = (old.roller r).driveFault

theorem Rests.refl (l : Live) : Rests l l := ⟨.refl _, rfl, fun _ => rfl⟩

theorem Rests.trans (h : Rests old l) (k : Rests l m) : Rests old m :=
  ⟨h.down.trans k.down, k.slip.trans h.slip, fun r => (k.driveFault r).trans (h.driveFault r)⟩

theorem Rests.foldl {α : Type} {f : Live → α → Live} (hf : ∀ x a, Rests x (f x a)) :
    ∀ (as : List α) (l : Live), Rests l (as.foldl f l)
  | [], l => .refl l
  | a :: as, l => (hf l a).trans (Rests.foldl hf as (f l a))

theorem Still.rests (h : Still old l) (hdown : l.chain.down = old.chain.down) : Rests old l :=
  ⟨hdown ▸ .refl _, by rw [h.ps], fun r => by rw [h.roller r]⟩

theorem Reacts.rests (h : Reacts old l) : Rests old l :=
  ⟨h.down, by rw [h.ps], fun r => by rw [h.roller r]⟩

theorem Live.setRoller_rests (l : Live) (r : Roller) {x : RollerStation} (h : x.driveFault = (l.roller r).driveFault) :
    Rests l (l.setRoller r x) := by
  refine ⟨by rw [Live.setRoller_chain]; exact .refl _, by rw [Live.setRoller_ps], fun q => ?_⟩
  by_cases hq : q = r
  · rw [hq, Live.roller_setRoller, h]
  · rw [l.roller_setRoller_of_ne x hq]

/-- The plate station without its crossing context. -/
def Live.dropCrossing (l : Live) : Live := { l with ps := { l.ps with crossing := none } }

theorem Live.dropCrossing_rests (l : Live) : Rests l l.dropCrossing := ⟨.refl _, rfl, fun r => by cases r <;> rfl⟩

theorem Live.setTare_rests (l : Live) (st : Station) (x : Tare) : Rests l (l.setTare st x) :=
  ⟨by rw [Live.setTare_chain]; exact .refl _, by cases st <;> rfl, fun r => by cases st <;> cases r <;> rfl⟩

theorem Live.enter_rests (l : Live) (st : Station) (x : StationState) : Rests l (l.enter T st x) := by
  have hput : Rests l (l.putState st x) :=
    ⟨by rw [Live.putState_chain]; exact .refl _, by cases st <;> rfl, fun r => by cases st <;> cases r <;> rfl⟩
  exact hput.trans (Live.seqSees_reacts _ st).rests

theorem Live.offerDrive_rests (l : Live) (r : Roller) (start : Bool) : Rests l (l.offerDrive T r start) := by
  have hheld (f : Option Frame) : Rests l (l.setHeld r f) := l.setRoller_rests r rfl
  simp only [Live.offerDrive]
  split
  · exact hheld _
  · split
    · next h => exact (Live.admitDown?_reacts (by simp) h).rests
    · exact hheld _

theorem Live.enterReleasing_rests (l : Live) (r : Roller) : Rests l (l.enterReleasing T r) :=
  ((l.offerDrive_rests r false).trans (Live.setRoller_rests _ r (by rfl))).trans (Live.enter_rests _ _ _)

theorem Live.enterStill_rests (l : Live) (r : Roller) (x : StationState) : Rests l (l.enterStill T r x) :=
  (l.setRoller_rests r (by rfl)).trans (Live.enter_rests _ _ _)

theorem Live.enterSettling_rests (l : Live) (r : Roller) : Rests l (l.enterSettling T r) := by
  refine Rests.trans (l.setRoller_rests r ?_) (Live.enter_rests _ _ _)
  dsimp only
  split <;> rfl

theorem Live.enterOffline_rests (l : Live) (st : Station) : Rests l (l.enterOffline T st) := by
  unfold Live.enterOffline
  split
  · exact (l.setRoller_rests _ (by rfl)).trans (Live.enter_rests _ _ _)
  · exact l.dropCrossing_rests.trans (Live.enter_rests _ .ps .offline)

theorem Live.captureLeave_rests (l : Live) (how : Leaving) (r : Roller) : Rests l (l.captureLeave T how r) := by
  cases how with
  | ready => exact (l.setRoller_rests r (by rfl)).trans (Live.enter_rests _ _ _)
  | releasing => exact l.enterReleasing_rests r
  | faulted => exact (l.offerDrive_rests r false).trans (Live.enterStill_rests _ r _)

theorem Live.captureWrite_chain (l : Live) (h : Roller) (c : Capture) (reason : EndReason) (r : Roller) :
    (l.captureWrite T h c reason r).chain = l.chain := by
  unfold Live.captureWrite
  split
  · unfold Live.writeBrake
    split
    · exact (l.updOpen_rest _).1
    · rfl
  · unfold Live.markBrake
    split
    · exact (l.updOpen_rest _).1
    · rfl

theorem Live.endCapture_rests (l : Live) (h : Roller) (reason : EndReason) (how : Roller → Leaving) :
    Rests l (l.endCapture T h reason how) := by
  have hset (x : Live) (c : Option Capture) : Rests x (x.setCapture h c) := x.setRoller_rests h rfl
  cases hc : (l.roller h).capture with
  | none => rw [Live.endCapture_of_none hc]; exact .refl l
  | some c =>
    rw [Live.endCapture_of_some hc]
    have hwrites (x : Live) (r : Roller) : Rests x (x.captureWrite T h c reason r) :=
      Still.rests (Live.captureWrite_still) (congrArg Chain.down (x.captureWrite_chain h c reason r))
    have hstop : Rests l (l.captureStop T h c reason how) :=
      (((hset l _).trans (Rests.foldl hwrites _ _)).trans (Rests.foldl (fun x r => x.captureLeave_rests (how r) r) _ _)).trans
        (Rests.foldl (fun x r => (x.event_reacts _ _ _ _).rests) _ _)
    exact (hstop.trans (Live.seqCaptureEnd_reacts _ _ _ _ _).rests).trans (hset _ _)

theorem Live.endAllCaptures_rests (l : Live) (reason : EndReason) : Rests l (l.endAllCaptures T reason) :=
  (l.endCapture_rests .ra reason _).trans (Live.endCapture_rests _ .rb reason _)

theorem Live.tareLaneReset_rests (l : Live) (st : Station) : Rests l (l.tareLaneReset T st) := by
  have hleave (x : Live) (service : Bool) : Rests x (x.leaveTaring T st service) := by
    unfold Live.leaveTaring
    split
    · exact x.enterOffline_rests st
    · exact x.enter_rests st .idle
  exact ((l.setTare_rests st _).trans (hleave _ _)).trans (Live.tareAborted_reacts _ _ _).rests

/-! ### A station at a lane reset (R75, R104) -/

/-- What a station does at a lane reset once its auto-tare bar is clear (R75). -/
def Live.windStation (T : Tables) (st : Station) (l : Live) : Live :=
  match l.stationState st, stationRoller st with
  | .spinning, some r | .ready, some r | .measuring, some r => l.enterReleasing T r
  | .taring, _ => l.tareLaneReset T st
  | .crossing, none => l.dropCrossing.enter T .ps .idle
  | _, _ => l

theorem Live.stationLaneReset_eq (l : Live) (st : Station) :
    l.stationLaneReset T st = (l.setTare st { l.tare st with bar := false }).windStation T st := rfl

/-- What a station can do at a lane reset: its drums stop, its tare or its crossing ends, or it goes on as it is. -/
theorem Live.windStation_cases (T : Tables) (st : Station) (l : Live) :
    (∃ r, st = stationOf r ∧ (l.stationState st).driven = true ∧ l.windStation T st = l.enterReleasing T r)
      ∨ (l.stationState st = .taring ∧ l.windStation T st = l.tareLaneReset T st)
      ∨ (st = .ps ∧ l.stationState st = .crossing
        ∧ l.windStation T st = l.dropCrossing.enter T .ps .idle)
      ∨ (l.stationState st ≠ .taring ∧ ((l.stationState st).driven = true → st = .ps)
        ∧ (st = .ps → l.stationState st ≠ .crossing) ∧ l.windStation T st = l) := by
  unfold Live.windStation
  split
  · next r hx hr => exact .inl ⟨r, stationRoller_some hr, by rw [hx]; rfl, rfl⟩
  · next r hx hr => exact .inl ⟨r, stationRoller_some hr, by rw [hx]; rfl, rfl⟩
  · next r hx hr => exact .inl ⟨r, stationRoller_some hr, by rw [hx]; rfl, rfl⟩
  · next hx => exact .inr (.inl ⟨hx, rfl⟩)
  · next hx hr => exact .inr (.inr (.inl ⟨stationRoller_none hr, hx, rfl⟩))
  · next htaring hspinning hready hmeasuring hcrossing =>
    refine .inr (.inr (.inr ⟨htaring, fun hdriven => ?_, fun hst hx => ?_, rfl⟩))
    · cases hr : stationRoller st with
      | none => exact stationRoller_none hr
      | some r =>
        simp only [StationState.driven, Bool.or_eq_true, beq_iff_eq] at hdriven
        rcases hdriven with (hx | hx) | hx
        · exact absurd hr (hspinning r hx)
        · exact absurd hr (hready r hx)
        · exact absurd hr (hmeasuring r hx)
    · exact hcrossing hx (by rw [hst]; rfl)

theorem Live.windStation_rests (l : Live) (st : Station) : Rests l (l.windStation T st) := by
  rcases l.windStation_cases T st with ⟨r, -, -, heq⟩ | ⟨-, heq⟩ | ⟨-, -, heq⟩ | ⟨-, -, -, heq⟩ <;> rw [heq]
  · exact l.enterReleasing_rests r
  · exact l.tareLaneReset_rests st
  · exact l.dropCrossing_rests.trans (Live.enter_rests _ .ps .idle)
  · exact .refl l

theorem Live.stationLaneReset_rests (l : Live) (st : Station) : Rests l (l.stationLaneReset T st) :=
  (l.setTare_rests st _).trans (Live.windStation_rests _ st)

theorem Live.releaseUncovered_rests (l : Live) (st : Station) : Rests l (l.releaseUncovered T st) := by
  unfold Live.releaseUncovered
  split
  · unfold Live.releaseHold
    split
    · exact l.enterOffline_rests st
    · split
      · exact l.enter_rests st .idle
      · dsimp only
        split
        · exact l.enterSettling_rests _
        · exact l.enter_rests st .idle
  · exact .refl l

end
end Sys2Proof.Machine
end

section
/-! ## What no part of a lane reset reaches, and the stations it leaves (R38, R54, R75, R104, R162, R173; O30) -/

namespace Sys2Proof.Machine

section
variable {T : Tables} {old l m : Live} {r q : Roller} {st p : Station}

/-! ### The frames of the parts -/

theorem Live.tareLaneReset_quiet (h : Quiet old l) (st : Station) : Quiet old (l.tareLaneReset T st) :=
  Live.tareAborted_quiet (Live.leaveTaring_quiet (Live.dropTare_quiet h st) st _) st 0

theorem Live.windStation_quiet (l : Live) (st : Station) : Quiet l (l.windStation T st) := by
  rcases l.windStation_cases T st with ⟨r, -, -, heq⟩ | ⟨-, heq⟩ | ⟨-, -, heq⟩ | ⟨-, -, -, heq⟩ <;> rw [heq]
  · exact Live.enterReleasing_quiet (.refl l) r
  · exact Live.tareLaneReset_quiet (.refl l) st
  · exact Live.enter_quiet (Quiet.ps (.refl l) _) .ps .idle
  · exact .refl l

theorem Live.stationLaneReset_quiet (l : Live) (st : Station) : Quiet l (l.stationLaneReset T st) :=
  (Live.setTare_quiet (.refl l) st _).trans (Live.windStation_quiet _ st)

theorem Live.guideLaneReset_quiet (l : Live) (gone : List FaultEntry) : Quiet l (l.guideLaneReset T gone) :=
  Live.render_quiet (Live.allDirty_quiet (Live.setGuide_quiet (.refl l) _))

/-- What every part of a lane reset leaves that comes after the chain interface's and before the steering unit's. -/
structure WindsDown (old l : Live) : Prop extends Rests old l where
  lines : l.lines = old.lines
  mode : l.mode = old.mode
  printer : l.printer = old.printer
  steer : l.steer = old.steer
  mgmt : { l.mgmt with sticky := old.mgmt.sticky } = old.mgmt
  bad : l.chain.badUp = old.chain.badUp ∧ l.chain.badDown = old.chain.badDown
    ∧ l.chain.windowTimer = old.chain.windowTimer ∧ l.chain.noise = old.chain.noise
  up : ∃ made, l.chain.up = old.chain.up ++ originated made

theorem Quiet.windsDown (h : Quiet old l) (k : Rests old l) : WindsDown old l :=
  ⟨k, h.lines, h.mode, h.printer, h.steer, h.mgmt, h.bad, h.up.1⟩

theorem WindsDown.trans (h : WindsDown old l) (k : WindsDown l m) : WindsDown old m := by
  obtain ⟨made, hup⟩ := h.up
  obtain ⟨more, hup'⟩ := k.up
  obtain ⟨hu, hd, hw, hn⟩ := h.bad
  obtain ⟨ku, kd, kw, kn⟩ := k.bad
  refine ⟨h.toRests.trans k.toRests, k.lines.trans h.lines, k.mode.trans h.mode, k.printer.trans h.printer,
    k.steer.trans h.steer, ?_, ⟨ku.trans hu, kd.trans hd, kw.trans hw, kn.trans hn⟩, made ++ more, ?_⟩
  · have hm := h.mgmt
    rw [← k.mgmt] at hm
    exact hm
  · rw [hup', hup, originated_append, List.append_assoc]

theorem Live.clearTracker_windsDown (l : Live) : WindsDown l l.clearTracker :=
  ⟨⟨.refl _, rfl, fun r => by cases r <;> rfl⟩, rfl, rfl, rfl, rfl, rfl, ⟨rfl, rfl, rfl, rfl⟩, [], (List.append_nil _).symm⟩

theorem Live.endSlot_windsDown (l : Live) (i : Fin 4) (x : SlotState) (f : VehicleRecord) : WindsDown l (l.endSlot i x f) := by
  have hup := Live.offerResult_up (l.setSlot i { state := x, record := some f }) i (vehicleResult i x f)
  unfold Live.endSlot Live.offerResult at *
  split
  · next h =>
    rw [if_pos h] at hup
    exact ⟨⟨.refl _, rfl, fun r => by cases r <;> rfl⟩, rfl, rfl, rfl, rfl, rfl, ⟨rfl, rfl, rfl, rfl⟩, hup⟩
  · next h =>
    rw [if_neg h] at hup
    exact ⟨⟨.refl _, rfl, fun r => by cases r <;> rfl⟩, rfl, rfl, rfl, rfl, rfl, ⟨rfl, rfl, rfl, rfl⟩, hup⟩

theorem Live.endSlot_still (l : Live) (i : Fin 4) (x : SlotState) (f : VehicleRecord) : Still l (l.endSlot i x f) :=
  Live.offerResult_still (l := l) (m := l.setSlot i { state := x, record := some f }) ⟨rfl, rfl, rfl⟩ i _

/-! ### The tare of a station (R75, R104) -/

/-- Orders and the end of captures leave of a tare all but its context. -/
theorem Live.endAllCaptures_ordered (l : Live) (reason : EndReason) : Ordered l (l.endAllCaptures T reason) :=
  (l.endCapture_ordered .ra reason fun _ => by decide).trans (Live.endCapture_ordered _ .rb reason fun _ => by decide)

/-- A station that leaves its tare leaves every tare as it is. -/
theorem Live.leaveTaring_tares (l : Live) (service : Bool) (p : Station) : (l.leaveTaring T st service).tare p = l.tare p := by
  unfold Live.leaveTaring
  split
  · exact l.enterOffline_tare st p
  · exact l.enter_tare st .idle p

theorem Live.tareLaneReset_tare (l : Live) (st p : Station) :
    (l.tareLaneReset T st).tare p = if p = st then { l.tare st with context := none } else l.tare p := by
  unfold Live.tareLaneReset
  dsimp only
  rw [(Live.tareAborted_reacts _ _ _).still.tare, Live.leaveTaring_tares, Live.dropTare, Live.tare_setTare_eq]

theorem Live.enterReleasing_tare (l : Live) (r : Roller) (p : Station) : (l.enterReleasing T r).tare p = l.tare p := by
  obtain ⟨held, down, h⟩ := l.offerDrive_eq (T := T) r false
  unfold Live.enterReleasing
  dsimp only
  rw [Live.enter_tare, Live.tare_setRoller _ _ (by rfl), h]
  exact l.tare_setRoller r (by rfl) p

/-- A tare in progress loses its context; every other tare stands. -/
theorem Live.windStation_tare (l : Live) (st p : Station) : (l.windStation T st).tare p =
    if p = st ∧ l.stationState st = .taring then { l.tare st with context := none } else l.tare p := by
  rcases l.windStation_cases T st with ⟨r, -, hx, heq⟩ | ⟨hx, heq⟩ | ⟨-, hx, heq⟩ | ⟨hx, -, -, heq⟩ <;> rw [heq]
  · rw [Live.enterReleasing_tare, if_neg fun h => by rw [h.2] at hx; cases hx]
  · rw [Live.tareLaneReset_tare]
    simp only [hx, and_true]
  · rw [Live.enter_tare, if_neg fun h => by rw [hx] at h; cases h.2]
    cases p <;> rfl
  · rw [if_neg fun h => hx h.2]

/-- A tare after a lane reset of its station in a state: its bar is clear, and one in progress has lost its context. -/
def Tare.woundDown (x : StationState) (t : Tare) : Tare :=
  { t with bar := false, context := if x = .taring then none else t.context }

theorem Live.stationLaneReset_tare (l : Live) (st p : Station) : (l.stationLaneReset T st).tare p =
    if p = st then (l.tare st).woundDown (l.stationState st) else l.tare p := by
  rw [Live.stationLaneReset_eq, Live.windStation_tare, Live.tare_setTare_eq, Live.tare_setTare_eq, if_pos rfl,
    Live.setTare_stationState]
  by_cases hp : p = st
  · by_cases hx : l.stationState st = .taring <;> simp only [hp, hx, Tare.woundDown, and_self, and_false, if_true, if_false]
  · simp only [hp, false_and, if_false]

/-! ### The state of a station (R75) -/

/-- The state that a station in a state, with its tare, is in after a lane reset of the station (R75). -/
def StationState.woundDown (st : Station) (t : Tare) (x : StationState) : StationState :=
  if x = .taring then if t.context.map (·.service) = some true then .offline else .idle
  else if st = .ps then if x = .crossing then .idle else x
  else if x.driven then .releasing else x

theorem Live.tareLaneReset_stationState (l : Live) (st p : Station) : (l.tareLaneReset T st).stationState p =
    if p = st then if (l.tare st).context.map (·.service) = some true then .offline else .idle else l.stationState p := by
  have hservice : ((l.tare st).context.map (·.service)).getD false = true ↔ (l.tare st).context.map (·.service) = some true := by
    cases (l.tare st).context.map (·.service) <;> simp
  unfold Live.tareLaneReset
  dsimp only
  rw [Live.tareAborted_stationState, Live.leaveTaring]
  split
  · next h => rw [Live.enterOffline_stationState, Live.dropTare_stationState, if_pos (hservice.1 h)]
  · next h => rw [Live.enter_stationState, Live.dropTare_stationState, if_neg fun hc => h (hservice.2 hc)]

theorem Live.windStation_stationState (l : Live) (st p : Station) : (l.windStation T st).stationState p =
    if p = st then (l.stationState st).woundDown st (l.tare st) else l.stationState p := by
  unfold StationState.woundDown
  rcases l.windStation_cases T st with ⟨r, hst, hx, heq⟩ | ⟨hx, heq⟩ | ⟨hst, hx, heq⟩ | ⟨hx, hdriven, hcrossing, heq⟩ <;> rw [heq]
  · have hps : st ≠ .ps := by rw [hst]; cases r <;> decide
    have htaring : l.stationState st ≠ .taring := fun h => by rw [h] at hx; cases hx
    rw [Live.enterReleasing_stationState, if_neg htaring, if_neg hps, if_pos hx, hst]
  · rw [Live.tareLaneReset_stationState, if_pos hx]
  · rw [Live.enter_stationState, hx, hst]
    cases p <;> rfl
  · rw [if_neg hx]
    split
    · next hp =>
      rw [hp]
      split
      · next hst => rw [if_neg (hcrossing hst)]
      · next hst => rw [if_neg fun h => hst (hdriven h)]
    · rfl

theorem Live.stationLaneReset_stationState (l : Live) (st p : Station) : (l.stationLaneReset T st).stationState p =
    if p = st then (l.stationState st).woundDown st (l.tare st) else l.stationState p := by
  rw [Live.stationLaneReset_eq, Live.windStation_stationState, Live.setTare_stationState, Live.setTare_stationState,
    Live.tare_setTare]
  rfl

/-! ### All stations -/

/-- The lane reset of every station. -/
def Live.windStations (T : Tables) (l : Live) : Live := stations.foldl (Live.stationLaneReset T) l

theorem Live.windStations_quiet (l : Live) : Quiet l (l.windStations T) :=
  Quiet.foldl (fun x st hx => hx.trans (x.stationLaneReset_quiet st)) stations (.refl l)

theorem Live.windStations_rests (l : Live) : Rests l (l.windStations T) := Rests.foldl Live.stationLaneReset_rests stations l

theorem Live.windStations_tare (l : Live) (p : Station) : (l.windStations T).tare p = (l.tare p).woundDown (l.stationState p) := by
  cases p <;>
    simp [Live.windStations, stations, Live.stationLaneReset_tare, Live.stationLaneReset_stationState]

theorem Live.windStations_stationState (l : Live) (p : Station) :
    (l.windStations T).stationState p = (l.stationState p).woundDown p (l.tare p) := by
  cases p <;>
    simp [Live.windStations, stations, Live.stationLaneReset_tare, Live.stationLaneReset_stationState]

theorem Live.windStations_undriven (l : Live) (r : Roller) : ((l.windStations T).stationState (stationOf r)).driven = false := by
  rw [Live.windStations_stationState, StationState.woundDown]
  split
  · split <;> rfl
  · rw [if_neg (by cases r <;> decide)]
    split
    · rfl
    · next h => exact Bool.eq_false_iff.2 h

end
end Sys2Proof.Machine
end

section
/-! ## The memory of the roller stations at a lane reset (R55, R58, R69, R72, R75; O30)

`Remembers old s`: a roller station keeps its load histories unless it is put OFFLINE or begins to settle unseated, and its held
DRIVE frame unless its drums are stopped. -/

namespace Sys2Proof.Machine

section
variable {T : Tables} {old l m : Live} {r q : Roller} {st p : Station} {x y z : RollerStation}

/-- What an act that stops stations or lets them go leaves of a roller station. -/
structure RollerStation.Remembers (x y : RollerStation) : Prop where
  offline : x.state = .offline → y.state = .offline
  driven : x.state.driven = false → y.state.driven = false
  faulted : y.state = .faulted → x.state = .faulted
  held : x.state.driven = false → y.heldDrive = x.heldDrive
  load : x.state = .offline ∨ y.state ≠ .offline → (x.state = .faulted → x.seated = true) →
    y.histL = x.histL ∧ y.histR = x.histR ∧ y.seated = x.seated

theorem RollerStation.Remembers.refl (x : RollerStation) : x.Remembers x := ⟨id, id, id, fun _ => rfl, fun _ _ => ⟨rfl, rfl, rfl⟩⟩

theorem RollerStation.Remembers.trans (h : x.Remembers y) (k : y.Remembers z) : x.Remembers z := by
  refine ⟨k.offline ∘ h.offline, k.driven ∘ h.driven, h.faulted ∘ k.faulted,
    fun hx => (k.held (h.driven hx)).trans (h.held hx), fun hoff hseated => ?_⟩
  obtain ⟨hl, hr, hs⟩ := h.load (hoff.imp_right (mt k.offline)) hseated
  obtain ⟨kl, kr, ks⟩ := k.load (hoff.imp_left h.offline) fun hy => hs.trans (hseated (h.faulted hy))
  exact ⟨kl.trans hl, kr.trans hr, ks.trans hs⟩

/-- A station that is not OFFLINE goes to rest. -/
theorem RollerStation.Remembers.of_state {c : StationState} (hstate : y.state = c) (hdriven : c.driven = false)
    (hfaulted : c ≠ .faulted) (hoffline : x.state ≠ .offline)
    (hheld : x.state.driven = true ∨ y.heldDrive = x.heldDrive)
    (hload : c ≠ .offline → (x.state = .faulted → x.seated = true) →
      y.histL = x.histL ∧ y.histR = x.histR ∧ y.seated = x.seated) : x.Remembers y := by
  subst hstate
  exact ⟨fun h => absurd h hoffline, fun _ => hdriven, fun h => absurd h hfaulted,
    fun h => hheld.resolve_left (by rw [h]; decide), fun h hseated => hload (h.resolve_left hoffline) hseated⟩

/-- What an act that stops stations or lets them go leaves of the roller stations. -/
def Live.Remembers (old l : Live) : Prop := ∀ r, (old.roller r).Remembers (l.roller r)

theorem Live.Remembers.refl (l : Live) : l.Remembers l := fun r => .refl (l.roller r)

theorem Live.Remembers.trans (h : old.Remembers l) (k : l.Remembers m) : old.Remembers m := fun r => (h r).trans (k r)

theorem Live.Remembers.foldl {α : Type} {f : Live → α → Live} (hf : ∀ x a, Live.Remembers x (f x a)) :
    ∀ (as : List α) (l : Live), l.Remembers (as.foldl f l)
  | [], l => .refl l
  | a :: as, l => (hf l a).trans (Live.Remembers.foldl hf as (f l a))

theorem Live.Remembers.of_rollers (h : ∀ r, l.roller r = old.roller r) : old.Remembers l := fun r => h r ▸ .refl (old.roller r)

/-- An act that reaches one roller station. -/
theorem Live.Remembers.of_only (h : OnlyRoller q old l) (hself : (old.roller q).Remembers (l.roller q)) : old.Remembers l := fun r => by
  by_cases hr : r = q
  · exact hr ▸ hself
  · exact h.2 r hr ▸ .refl (old.roller r)

/-! ### One roller station enters a state -/

theorem Live.enter_roller (l : Live) (q : Roller) (y : StationState) :
    (l.enter T (stationOf q) y).roller q = { l.roller q with state := y } :=
  ((Live.seqSees_still (.refl _) _).roller q).trans (by cases q <;> rfl)

theorem Live.enter_onlyRoller (l : Live) (q : Roller) (y : StationState) : OnlyRoller q l (l.enter T (stationOf q) y) := by
  have hput : l.putState (stationOf q) y = l.setRoller q { l.roller q with state := y } := by cases q <;> rfl
  rw [Live.enter, hput]
  exact (l.setRoller_onlyRoller q _).trans ((Live.seqSees_still (.refl _) _).onlyRoller q)

theorem Live.enter_ps_roller (l : Live) (y : StationState) (r : Roller) : (l.enter T .ps y).roller r = l.roller r :=
  ((Live.seqSees_still (.refl _) _).roller r).trans (by cases r <;> rfl)

theorem Live.setRoller_enter_roller (l : Live) (q : Roller) (x : RollerStation) (y : StationState) :
    ((l.setRoller q x).enter T (stationOf q) y).roller q = { x with state := y } := by
  rw [Live.enter_roller, Live.roller_setRoller]

theorem Live.setRoller_enter_onlyRoller (l : Live) (q : Roller) (x : RollerStation) (y : StationState) :
    OnlyRoller q l ((l.setRoller q x).enter T (stationOf q) y) :=
  (l.setRoller_onlyRoller q x).trans (Live.enter_onlyRoller _ q y)

theorem Live.enterReleasing_remembers (h : (l.roller q).state.driven = true) : l.Remembers (l.enterReleasing T q) := by
  refine .of_only ((l.offerDrive_onlyRoller q false).trans (Live.setRoller_enter_onlyRoller _ q _ _)) ?_
  unfold Live.enterReleasing
  dsimp only
  rw [Live.setRoller_enter_roller, Live.offerDrive_roller]
  exact .of_state (c := .releasing) rfl rfl (by decide) (fun hx => by rw [hx] at h; cases h) (.inl h) fun _ _ => ⟨rfl, rfl, rfl⟩

theorem Live.enterIdle_remembers (h : l.stationState st ≠ .offline) : l.Remembers (l.enter T st .idle) := by
  cases hst : stationRoller st with
  | none =>
    obtain rfl := stationRoller_none hst
    exact .of_rollers fun r => l.enter_ps_roller .idle r
  | some q =>
    obtain rfl := stationRoller_some hst
    refine .of_only (l.enter_onlyRoller q .idle) ?_
    rw [Live.enter_roller]
    rw [← Live.roller_state] at h
    exact .of_state (c := .idle) rfl rfl (by decide) h (.inr rfl) fun _ _ => ⟨rfl, rfl, rfl⟩

theorem Live.enterOffline_remembers (h : l.stationState st ≠ .offline) : l.Remembers (l.enterOffline T st) := by
  unfold Live.enterOffline
  split
  · next q hst =>
    obtain rfl := stationRoller_some hst
    refine .of_only (Live.setRoller_enter_onlyRoller l q _ .offline) ?_
    rw [Live.setRoller_enter_roller]
    rw [← Live.roller_state] at h
    exact .of_state (c := .offline) rfl rfl (by decide) h (.inr rfl) fun hoff _ => absurd rfl hoff
  · exact .of_rollers fun r => (Live.enter_ps_roller _ .offline r).trans (by cases r <;> rfl)

/-- A FAULTED station that settles keeps its load histories where it is seated. -/
theorem Live.enterSettling_remembers (h : (l.roller q).state = .faulted) : l.Remembers (l.enterSettling T q) := by
  unfold Live.enterSettling
  dsimp only
  refine .of_only (Live.setRoller_enter_onlyRoller l q _ .settling) ?_
  rw [Live.setRoller_enter_roller]
  refine .of_state (c := .settling) rfl rfl (by decide) (by rw [h]; decide) (.inr ?_) fun _ hseated => ?_
  · dsimp only
    split <;> rfl
  · have hs : (l.roller q).stopTimers.seated = true := hseated h
    rw [if_pos hs]
    exact ⟨rfl, rfl, rfl⟩

/-! ### The lane reset of a station, and its release -/

theorem Live.setTare_remembers (l : Live) (st : Station) (t : Tare) : l.Remembers (l.setTare st t) := fun r => by
  have hkept : (l.setTare st t).roller r = { l.roller r with tare := ((l.setTare st t).roller r).tare } := by
    cases st <;> cases r <;> rfl
  rw [hkept]
  exact ⟨id, id, id, fun _ => rfl, fun _ _ => ⟨rfl, rfl, rfl⟩⟩

theorem Live.tareLaneReset_remembers (h : l.stationState st ≠ .offline) : l.Remembers (l.tareLaneReset T st) := by
  have hdropped : (l.dropTare st).stationState st ≠ .offline := by rw [Live.dropTare_stationState]; exact h
  have hleave (service : Bool) : (l.dropTare st).Remembers ((l.dropTare st).leaveTaring T st service) := by
    unfold Live.leaveTaring
    split
    · exact Live.enterOffline_remembers hdropped
    · exact Live.enterIdle_remembers hdropped
  exact ((l.setTare_remembers st _).trans (hleave _)).trans (.of_rollers (Live.tareAborted_reacts _ _ _).roller)

theorem Live.windStation_remembers (l : Live) (st : Station) : l.Remembers (l.windStation T st) := by
  rcases l.windStation_cases T st with ⟨r, hst, hx, heq⟩ | ⟨hx, heq⟩ | ⟨-, -, heq⟩ | ⟨-, -, -, heq⟩ <;> rw [heq]
  · subst hst
    exact Live.enterReleasing_remembers (by rw [Live.roller_state]; exact hx)
  · exact Live.tareLaneReset_remembers (by rw [hx]; decide)
  · exact .of_rollers fun r => (Live.enter_ps_roller _ .idle r).trans (by cases r <;> rfl)
  · exact .refl l

theorem Live.windStations_remembers (l : Live) : l.Remembers (l.windStations T) :=
  Live.Remembers.foldl (fun x st => (x.setTare_remembers st _).trans (Live.windStation_remembers _ st)) stations l

theorem Live.releaseUncovered_remembers (l : Live) (st : Station) : l.Remembers (l.releaseUncovered T st) := by
  unfold Live.releaseUncovered
  split
  · next h =>
    have hoff : l.stationState st ≠ .offline := by rw [h.1]; decide
    unfold Live.releaseHold
    split
    · exact Live.enterOffline_remembers hoff
    · split
      · exact Live.enterIdle_remembers hoff
      · next r hr =>
        obtain rfl := stationRoller_some hr
        dsimp only
        split
        · exact Live.enterSettling_remembers (by rw [Live.roller_state]; exact h.1)
        · exact Live.enterIdle_remembers hoff
  · exact .refl l

theorem Live.releaseStations_remembers (l : Live) : l.Remembers (l.releaseStations T) :=
  Live.Remembers.foldl Live.releaseUncovered_remembers stations l

end
end Sys2Proof.Machine
end

section
/-! ## The prompt queue under a lane reset (R88, R129, R168, R173; O30)

`LeavesGuide old s`: where no change of a station's state ends a step, what stations and captures do at a lane reset leaves the
guidance unit alone, and it goes on so. -/

namespace Sys2Proof.Machine

section
variable {T : Tables} {old l m : Live} {h r : Roller} {st : Station} {c : Capture} {faults : List FaultEntry}

/-- The guidance unit as it was, under a sequencer whose step no change of a station's state ends. -/
structure LeavesGuide (old l : Live) : Prop where
  guide : l.guide = old.guide
  apart : l.seqApart

theorem LeavesGuide.refl (ha : l.seqApart) : LeavesGuide l l := ⟨rfl, ha⟩

/-- A write of anything but the sequencer and the guidance unit. -/
theorem LeavesGuide.step (h : LeavesGuide old l) (hseq : m.seq = l.seq) (hguide : m.guide = l.guide) : LeavesGuide old m :=
  ⟨hguide.trans h.guide, by unfold Live.seqApart; rw [hseq]; exact h.apart⟩

theorem LeavesGuide.foldl {α : Type} {f : Live → α → Live} (hf : ∀ {x} a, LeavesGuide old x → LeavesGuide old (f x a)) :
    ∀ (as : List α) {l : Live}, LeavesGuide old l → LeavesGuide old (as.foldl f l)
  | [], _, h => h
  | a :: as, _, h => LeavesGuide.foldl hf as (hf a h)

theorem Live.heldEnds_guide (l : Live) : (l.heldEnds T).guide = l.guide := by
  have hrestart (x : Restart) : (l.makeRestart T x).guide = l.guide := by
    simp only [Live.makeRestart]
    split <;> rfl
  unfold Live.heldEnds
  split
  · rfl
  · split
    · rfl
    · split
      · exact hrestart _
      · rfl

theorem Live.seqSees_guide (ha : l.seqApart) (st : Station) : (l.seqSees T st).guide = l.guide := by
  unfold Live.seqSees
  split
  · next hw =>
    obtain ⟨r, hr⟩ := ha hw
    simp only [Live.waitSees, hr]
  · split
    · exact l.heldEnds_guide
    · rfl
  · rfl

theorem LeavesGuide.enter (h : LeavesGuide old l) (st : Station) (x : StationState) : LeavesGuide old (l.enter T st x) := by
  have hput : LeavesGuide old (l.putState st x) := h.step (l.putState_seq st x) (l.putState_guide st x)
  exact ⟨(Live.seqSees_guide hput.apart st).trans hput.guide, (Live.enter_sendsNothing h.apart st x).apart⟩

theorem LeavesGuide.setRoller (h : LeavesGuide old l) (r : Roller) (x : RollerStation) : LeavesGuide old (l.setRoller r x) :=
  h.step (l.setRoller_seq r x) (l.setRoller_guide r x)

theorem LeavesGuide.setTare (h : LeavesGuide old l) (st : Station) (x : Tare) : LeavesGuide old (l.setTare st x) :=
  h.step (l.setTare_seq st x) (l.setTare_guide st x)

theorem LeavesGuide.enterReleasing (h : LeavesGuide old l) (r : Roller) : LeavesGuide old (l.enterReleasing T r) := by
  have hdrive : LeavesGuide old (l.offerDrive T r false) := by
    obtain ⟨held, down, heq⟩ := l.offerDrive_eq (T := T) r false
    rw [heq]
    exact (h.setRoller r _).step rfl rfl
  exact (hdrive.setRoller r _).enter (stationOf r) .releasing

theorem LeavesGuide.enterSettling (h : LeavesGuide old l) (r : Roller) : LeavesGuide old (l.enterSettling T r) :=
  (h.setRoller r _).enter (stationOf r) .settling

theorem LeavesGuide.enterOffline (h : LeavesGuide old l) (st : Station) : LeavesGuide old (l.enterOffline T st) := by
  unfold Live.enterOffline
  split
  · exact (h.setRoller _ _).enter st .offline
  · exact (h.step (m := l.dropCrossing) rfl rfl).enter .ps .offline

theorem LeavesGuide.offerEvent (h : LeavesGuide old l) (f : Frame) : LeavesGuide old (l.offerEvent f) :=
  h.step (Live.offerEvent_seq f) (Live.offerEvent_guide f)

/-! ### Captures end with the lane reset (R88) -/

theorem Live.updOpen_guide (l : Live) (f : VehicleRecord → VehicleRecord) : (l.updOpen f).guide = l.guide := by
  unfold Live.updOpen
  split <;> rfl

theorem LeavesGuide.captureWrite (hl : LeavesGuide old l) (h : Roller) (c : Capture) (r : Roller) :
    LeavesGuide old (l.captureWrite T h c .reset r) := by
  have hmarks : l.captureWrite T h c .reset r = l.markBrake (stationOf r) c.settings.part (interruptPart .reset) :=
    if_neg (by decide)
  rw [hmarks]
  unfold Live.markBrake
  split
  · exact hl.step (Live.updOpen_seq _) (l.updOpen_guide _)
  · exact hl

/-- The end of a plan's capture with the lane reset ends no step (R89). -/
theorem LeavesGuide.seqCaptureEnd (hl : LeavesGuide old l) (h : Roller) (c : Capture) (axle : Nat) :
    LeavesGuide old (l.seqCaptureEnd T h c .reset axle) := by
  unfold Live.seqCaptureEnd
  split
  · exact hl
  · refine ⟨hl.guide, fun hw => ?_⟩
    obtain ⟨r, hr⟩ := hl.apart ((Seq.setPlanCapture_state h none l.seq).symm.trans hw)
    exact ⟨r, (Seq.setPlanCapture_wait h none l.seq).trans hr⟩

theorem LeavesGuide.endCapture (hl : LeavesGuide old l) (h : Roller) :
    LeavesGuide old (l.endCapture T h .reset fun _ => .releasing) := by
  cases hc : (l.roller h).capture with
  | none => rw [Live.endCapture_of_none hc]; exact hl
  | some c =>
    rw [Live.endCapture_of_some hc]
    have hwritten := LeavesGuide.foldl (f := fun x r => x.captureWrite T h c .reset r) (fun r hx => hx.captureWrite h c r)
      (captureStations h c) (hl.setRoller h { l.roller h with capture := some { c with endReason := some .reset } })
    have hleft := LeavesGuide.foldl (f := fun x r => x.captureLeave T .releasing r) (fun r hx => hx.enterReleasing r)
      (captureStations h c) hwritten
    have hsent := LeavesGuide.foldl (f := fun x r => x.captureEvent .reset r) (fun r hx => hx.offerEvent _)
      (captureStations h c) hleft
    exact (hsent.seqCaptureEnd h c _).setRoller h _

theorem LeavesGuide.endAllCaptures (hl : LeavesGuide old l) : LeavesGuide old (l.endAllCaptures T .reset) :=
  (hl.endCapture .ra).endCapture .rb

/-! ### Stations are reset and let go (R75, R157) -/

theorem LeavesGuide.tareLaneReset (h : LeavesGuide old l) (st : Station) : LeavesGuide old (l.tareLaneReset T st) := by
  have hleave {x : Live} (hx : LeavesGuide old x) (service : Bool) : LeavesGuide old (x.leaveTaring T st service) := by
    unfold Live.leaveTaring
    split
    · exact hx.enterOffline st
    · exact hx.enter st .idle
  have hend {x : Live} (hx : LeavesGuide old x) : LeavesGuide old (x.seqTareEnd T st .aborted) := by
    unfold Live.seqTareEnd
    split
    · next hw =>
      obtain ⟨r, hr⟩ := hx.apart hw.1
      exact absurd (hr.symm.trans hw.2) nofun
    · exact hx
  exact hend ((hleave (h.setTare st _) _).offerEvent _)

theorem LeavesGuide.stationLaneReset (h : LeavesGuide old l) (st : Station) : LeavesGuide old (l.stationLaneReset T st) := by
  have hbar := h.setTare st { l.tare st with bar := false }
  rw [Live.stationLaneReset_eq]
  rcases Live.windStation_cases T st (l.setTare st { l.tare st with bar := false }) with
    ⟨r, -, -, heq⟩ | ⟨-, heq⟩ | ⟨-, -, heq⟩ | ⟨-, -, -, heq⟩ <;> rw [heq]
  · exact hbar.enterReleasing r
  · exact hbar.tareLaneReset st
  · exact (hbar.step (m := Live.dropCrossing _) rfl rfl).enter .ps .idle
  · exact hbar

theorem LeavesGuide.windStations (h : LeavesGuide old l) : LeavesGuide old (l.windStations T) :=
  LeavesGuide.foldl (f := Live.stationLaneReset T) (fun st hx => hx.stationLaneReset st) stations h

theorem LeavesGuide.releaseStations (h : LeavesGuide old l) : LeavesGuide old (l.releaseStations T) := by
  refine LeavesGuide.foldl (f := Live.releaseUncovered T) (fun {x} st hx => ?_) stations h
  unfold Live.releaseUncovered
  split
  · unfold Live.releaseHold
    split
    · exact hx.enterOffline st
    · split
      · exact hx.enter st .idle
      · dsimp only
        split
        · exact hx.enterSettling _
        · exact hx.enter st .idle
  · exact hx

/-! ### The guidance unit's own reset (R173) -/

/-- An entry that a lane reset removes from the fault list (R162). -/
def isHold (e : FaultEntry) : Bool := e.action == .hold || e.action == .stop

/-- A prompt without its links to the entries removed; with no link left it goes (R173). -/
def promptLeft (faults : List FaultEntry) (e : PromptEntry) : Option PromptEntry :=
  let left := e.links.filter fun k => !faults.any fun f => isHold f && f.is k.1 k.2
  if left.isEmpty then none else some { e with links := left }

/-- The guidance unit's own removal, prompt by prompt. -/
theorem unlinkEntry_promptLeft (faults : List FaultEntry) (e : PromptEntry) :
    (if !e.links.isEmpty then unlinkEntry (fun k => (faults.filter isHold).any fun f => f.is k.1 k.2) e else none) =
      promptLeft faults e := by
  have hany : (fun k : Source × Scope => (faults.filter isHold).any fun f => f.is k.1 k.2) =
      fun k => faults.any fun f => isHold f && f.is k.1 k.2 := funext fun k => List.any_filter
  rw [hany]
  generalize hgone : (fun k : Source × Scope => faults.any fun f => isHold f && f.is k.1 k.2) = gone
  have hleft : (e.links.filter fun k => !faults.any fun f => isHold f && f.is k.1 k.2) = e.links.filter fun k => !gone k := by
    rw [← hgone]
  have hempty : (e.links.filter fun k => !gone k).isEmpty = e.links.all gone := by
    rw [Bool.eq_iff_iff, List.isEmpty_iff, List.filter_eq_nil_iff, List.all_eq_true]
    simp only [Bool.not_eq_true', Bool.not_eq_false]
  simp only [promptLeft, hleft, hempty, unlinkEntry]
  by_cases hall : e.links.all gone = true
  · simp only [hall, if_true]
    cases hlinks : e.links with
    | nil => rfl
    | cons k ks =>
      rw [hlinks, List.all_cons, Bool.and_eq_true] at hall
      rw [List.any_cons, hall.1]
      rfl
  · have hsome : e.links ≠ [] := fun h => hall (by rw [h]; rfl)
    simp only [hall]
    rw [if_pos (by simpa using hsome)]
    split
    · rfl
    · next hnone =>
      have hsame : e.links.filter (fun k => !gone k) = e.links := by
        rw [List.filter_eq_self]
        intro k hk
        simpa using fun hgone => hnone (List.any_eq_true.2 ⟨k, hk, hgone⟩)
      rw [hsame]
      rfl

theorem Live.render_queue (l : Live) : (l.render T).guide.queue = l.guide.queue := by
  obtain ⟨b, hb⟩ := l.render_boardOnly (T := T)
  rw [hb]

/-- A rendering leaves the prompt queue, so what a lane reset of the guidance unit leaves in it is its own removal. -/
theorem Live.guideLaneReset_queue (l : Live) (faults : List FaultEntry) :
    (l.guideLaneReset T (faults.filter isHold)).guide.queue = l.guide.queue.filterMap (promptLeft faults) := by
  refine (Live.render_queue _).trans (List.filterMap_filter.trans ?_)
  exact List.filterMap_congr fun e _ => unlinkEntry_promptLeft faults e

end
end Sys2Proof.Machine
end

section
/-! ## The parts of a lane reset (R18, R38, R75, R104, R118, R122, R142, R157, R162, R173; O30) -/

namespace Sys2Proof.Machine

section
variable {T : Tables} {old l m : Live} {r : Roller} {p : Station} {i : Fin 4}

/-! ### The chain interface (R18) -/

theorem dropHost_eq (q : List DownFrame) : dropHost q = q.take 1 ++ (q.drop 1).filter (fun f => f.source != .host) := by
  cases q <;> rfl

/-- A roller station's held DRIVE frame has stayed, or has entered the down queue (R69). -/
def HeldOrEntered (x y : RollerStation) (down : List DownFrame) : Prop :=
  y.heldDrive = x.heldDrive
    ∨ ∃ f, x.heldDrive = some f ∧ y.heldDrive = none ∧ { source := .drive, frame := f } ∈ down

theorem HeldOrEntered.grows {x y : RollerStation} {d e : List DownFrame} (h : HeldOrEntered x y d) (hd : DownGrows d e) :
    HeldOrEntered x y e :=
  h.imp_right fun ⟨f, hx, hy, hf⟩ => ⟨f, hx, hy, hd.kept.subset hf⟩

/-- Freed places of the down queue have been offered to held DRIVE frames: nothing else has changed. -/
structure HeldOffered (old l : Live) : Prop where
  rest : l = { old with
    chain := { old.chain with down := l.chain.down }
    ra := { old.ra with heldDrive := l.ra.heldDrive }
    rb := { old.rb with heldDrive := l.rb.heldDrive } }
  down : DownGrows old.chain.down l.chain.down
  held : ∀ r, HeldOrEntered (old.roller r) (l.roller r) l.chain.down

theorem HeldOffered.refl (l : Live) : HeldOffered l l := ⟨rfl, .refl _, fun _ => .inl rfl⟩

theorem HeldOffered.trans (h : HeldOffered old l) (k : HeldOffered l m) : HeldOffered old m := by
  refine ⟨?_, h.down.trans k.down, fun r => ?_⟩
  · have hk := k.rest
    rw [h.rest] at hk
    exact hk
  · rcases h.held r with hsame | ⟨f, hf, hnone, hmem⟩
    · rcases k.held r with hsame' | ⟨f, hf, hnone, hmem⟩
      · exact .inl (hsame'.trans hsame)
      · exact .inr ⟨f, hsame ▸ hf, hnone, hmem⟩
    · rcases k.held r with hsame' | ⟨g, hg, -, -⟩
      · exact .inr ⟨f, hf, hsame'.trans hnone, k.down.kept.subset hmem⟩
      · exact absurd (hnone.symm.trans hg) nofun

theorem Live.offerHeld_offered (l : Live) (r : Roller) : HeldOffered l (l.offerHeld r) := by
  cases hheld : (l.roller r).heldDrive with
  | none => rw [Live.offerHeld_of_none hheld]; exact .refl l
  | some f =>
    rcases Nat.lt_or_ge l.chain.down.length 16 with hroom | hfull
    · rw [Live.offerHeld_of_room hheld hroom]
      have hentered := mem_placeDown_self { source := .drive, frame := f } l.chain.down
      refine ⟨by cases r <;> rfl, ?_, fun q => ?_⟩
      · rw [Live.setHeld, Live.setRoller_chain]
        exact .placeDown (by simp) _
      · by_cases hq : q = r
        · subst hq
          rw [Live.setHeld, Live.roller_setRoller, Live.setRoller_chain]
          exact .inr ⟨f, hheld, rfl, hentered⟩
        · rw [Live.setHeld, Live.roller_setRoller_of_ne _ _ hq]
          exact .inl (by cases q <;> rfl)
    · rw [Live.offerHeld_of_full hfull]
      exact .refl l

theorem Live.offerFreedDown_offered (l : Live) : HeldOffered l l.offerFreedDown :=
  (l.offerHeld_offered .ra).trans (Live.offerHeld_offered _ .rb)

/-- What the chain interface does at a lane reset while no REPLY waits (R18; log 38). -/
structure ChainReset (old l : Live) : Prop where
  rest : l = { old with
    chain := { old.chain with up := l.chain.up, down := l.chain.down }
    records := { old.records with pendingResults := l.records.pendingResults }
    ra := { old.ra with heldDrive := l.ra.heldDrive }
    rb := { old.rb with heldDrive := l.rb.heldDrive } }
  up : ∃ made, l.chain.up = flushMirrors old.chain.up ++ originated made
  down : DownGrows (dropHost old.chain.down) l.chain.down
  held : ∀ r, HeldOrEntered (old.roller r) (l.roller r) l.chain.down

theorem Live.chainLaneReset_reset (hreply : l.mgmt.reply = none) : ChainReset l l.chainLaneReset := by
  let flushed := (l.setUp (flushMirrors l.chain.up)).offerPending
  have heq : l.chainLaneReset = (flushed.setDown (dropHost flushed.chain.down)).offerFreedDown := by
    simp only [Live.chainLaneReset, Live.offerFreedUp_of_none (l := l.setUp (flushMirrors l.chain.up)) hreply]
    rfl
  have hoffered := (flushed.setDown (dropHost flushed.chain.down)).offerFreedDown_offered
  rw [heq]
  generalize (flushed.setDown (dropHost flushed.chain.down)).offerFreedDown = m at hoffered
  obtain ⟨hrest, hdown, hheld⟩ := hoffered
  have hup : m.chain.up = flushed.chain.up := by rw [hrest]; rfl
  have hpending : m.records.pendingResults = flushed.records.pendingResults := by rw [hrest]; rfl
  refine ⟨?_, ⟨_, hup.trans (congrArg (fun x : Live => x.chain.up) (Live.offerPending_eq _))⟩, hdown, fun r => ?_⟩
  · rw [hup, hpending]
    exact hrest
  · cases r <;> exact hheld _

theorem ChainReset.mgmt (h : ChainReset old l) : l.mgmt = old.mgmt := by rw [h.rest]

theorem ChainReset.slotState (h : ChainReset old l) (i : Fin 4) : l.slotState i = old.slotState i := by rw [h.rest]; rfl

theorem ChainReset.openSlot (h : ChainReset old l) : l.openSlot = old.openSlot := Live.openSlot_of_slotState h.slotState

theorem ChainReset.faults (h : ChainReset old l) : l.faults = old.faults := by rw [h.rest]

theorem ChainReset.guide (h : ChainReset old l) : l.guide = old.guide := by rw [h.rest]

theorem ChainReset.seqApart (h : ChainReset old l) : l.seqApart ↔ old.seqApart := by rw [h.rest]; exact Iff.rfl

theorem ChainReset.tare (h : ChainReset old l) (p : Station) : l.tare p = old.tare p := by rw [h.rest]; cases p <;> rfl

theorem ChainReset.stationState (h : ChainReset old l) (p : Station) : l.stationState p = old.stationState p := by
  rw [h.rest]; cases p <;> rfl

theorem ChainReset.roller (h : ChainReset old l) (r : Roller) :
    l.roller r = { old.roller r with heldDrive := (l.roller r).heldDrive } := by
  rw [h.rest]; cases r <;> rfl

theorem ChainReset.capture (h : ChainReset old l) (r : Roller) : (l.roller r).capture = (old.roller r).capture := by
  rw [h.roller]

/-! ### The record store and the axle tracker (R118, R122) -/

/-- An OPEN slot holds a record (R114). -/
theorem RecordLaw.openRecord (h : RecordLaw l) (hi : l.openSlot = some i) : ∃ q, l.openRecord = some q := by
  obtain ⟨⟨-, hfree⟩, -⟩ := h
  have hrecord : (l.records.slots.get i).record ≠ none := fun hnone => by
    have hstate := Live.openSlot_state hi
    rw [(hfree i).2 hnone] at hstate
    cases hstate
  rw [Live.openRecord, hi]
  exact Option.ne_none_iff_exists'.1 hrecord

theorem Live.endAllCaptures_of_none (hra : l.ra.capture = none) (hrb : l.rb.capture = none) (reason : EndReason) :
    l.endAllCaptures T reason = l := by
  rw [Live.endAllCaptures, Live.endCapture_of_none (h := .ra) hra, Live.endCapture_of_none (h := .rb) hrb]

/-- What the end of every capture, with the abort of the OPEN record, does at a lane reset (R88, R118, R122). -/
structure RecordReset (old l : Live) : Prop where
  winds : WindsDown old l
  ordered : Ordered old l
  still : old.ra.capture = none → old.rb.capture = none → Still old l
  faults : l.faults = old.faults
  tracker : l.tracker = .reset
  slots : ∀ i, l.slotState i = if old.openSlot = some i then .aborted else old.slotState i
  guide : old.seqApart ∨ (old.openSlot ≠ none ∧ old.ra.capture = none ∧ old.rb.capture = none) → LeavesGuide old l

theorem Live.offerResult_guide (l : Live) (i : Fin 4) (f : Frame) : (l.offerResult i f).guide = l.guide := by
  unfold Live.offerResult
  split <;> rfl

/-- What the record store does once the captures have ended. -/
def Live.endRecord (l : Live) : Live := if l.openSlot.isSome then l.abortRecord.seqEmpty else l.clearTracker

theorem Live.recordLaneReset_eq (l : Live) : l.recordLaneReset T = (l.endAllCaptures T .reset).endRecord := rfl

theorem Live.seqEmpty_apart (l : Live) : l.seqEmpty.seqApart := fun hw => by
  have hstate : l.seqEmpty.seq.state = if l.level = 3 then .locked else .standby := rfl
  rw [hstate] at hw
  split at hw <;> cases hw

/-- What the end of the record leaves of everything else, whether or not one is OPEN. -/
structure RecordEnds (old l : Live) : Prop where
  winds : WindsDown old l
  still : Still old l
  faults : l.faults = old.faults
  tracker : l.tracker = .reset
  slots : ∀ i, l.slotState i = if old.openSlot = some i then .aborted else old.slotState i
  guide : l.guide = old.guide
  apart : old.seqApart ∨ old.openSlot ≠ none → l.seqApart

theorem Live.endRecord_ends (h : RecordLaw l) : RecordEnds l l.endRecord := by
  unfold Live.endRecord
  cases hi : l.openSlot with
  | none =>
    refine ⟨l.clearTracker_windsDown, ⟨rfl, rfl, rfl⟩, rfl, rfl, fun i => ?_, rfl, fun h => ?_⟩
    · rw [hi, if_neg nofun]
      rfl
    · exact h.resolve_right fun hne => hne hi
  | some i =>
    obtain ⟨q, hq⟩ := h.openRecord hi
    have habort := Live.abortRecord_eq hi hq
    obtain ⟨htracker, hfaults, -⟩ := l.clearTracker.endSlot_rest i .aborted (q.mapAxles AxleRecord.aborted)
    have hself := l.clearTracker.endSlot_self i .aborted (q.mapAxles AxleRecord.aborted)
    rw [Option.isSome_some, if_pos rfl, habort]
    refine ⟨(l.clearTracker_windsDown.trans (Live.endSlot_windsDown _ _ _ _)).trans
      ((Live.seqEmpty_quiet (.refl _)).windsDown (Live.setSeq_reacts _ _).rests), ?_, hfaults, htracker, fun j => ?_, ?_,
      fun _ => Live.seqEmpty_apart _⟩
    · have hstill := l.clearTracker.endSlot_still i .aborted (q.mapAxles AxleRecord.aborted)
      exact ⟨hstill.ps, hstill.ra, hstill.rb⟩
    · by_cases hj : j = i
      · rw [hi, if_pos (congrArg some hj.symm), hj]
        exact congrArg RecordSlot.state hself
      · rw [hi, if_neg fun he => hj (Option.some.inj he).symm]
        exact congrArg RecordSlot.state (Live.endSlot_others _ hj _ _)
    · exact Live.offerResult_guide _ _ _

theorem Live.recordLaneReset_reset (h : RecordLaw l) : RecordReset l (l.recordLaneReset T) := by
  have hquiet : Quiet l (l.endAllCaptures T .reset) := Live.endAllCaptures_quiet (.refl l) .reset
  have hslot : (l.endAllCaptures T .reset).openSlot = l.openSlot := Live.openSlot_of_slotState hquiet.slots
  have hends := Live.endRecord_ends ((Live.endAllCaptures_keeps (.refl T l) .reset).records h)
  rw [Live.recordLaneReset_eq]
  refine ⟨(hquiet.windsDown (l.endAllCaptures_rests .reset)).trans hends.winds,
    (l.endAllCaptures_ordered .reset).trans hends.still.ordered, fun hra hrb => ?_, hends.faults.trans hquiet.faults,
    hends.tracker, fun i => ?_, fun hwhere => ?_⟩
  · have hstill := hends.still
    rwa [Live.endAllCaptures_of_none hra hrb] at hstill ⊢
  · rw [hends.slots, hslot, hquiet.slots]
  · rcases hwhere with hapart | ⟨hopen, hra, hrb⟩
    · have hleaves : LeavesGuide l (l.endAllCaptures T .reset) := (LeavesGuide.refl hapart).endAllCaptures
      exact ⟨hends.guide.trans hleaves.guide, hends.apart (.inl hleaves.apart)⟩
    · rw [Live.endAllCaptures_of_none hra hrb] at hends ⊢
      exact ⟨hends.guide, hends.apart (.inr hopen)⟩

/-! ### The fault action unit, the guidance unit and the sequencer (R127, R142, R157, R162, R173) -/

/-- The fault list without its HOLD and STOP entries (R162). -/
def Live.dropHolds (l : Live) : Live := { l with faults := l.faults.filter fun e => !isHold e }

theorem Live.faultsLaneReset_eq (l : Live) :
    l.faultsLaneReset T = (l.dropHolds.releaseStations T).guideLaneReset T (l.faults.filter isHold) := rfl

theorem Live.releaseStations_rests (l : Live) : Rests l (l.releaseStations T) := Rests.foldl Live.releaseUncovered_rests stations l

/-- What the removal of the HOLD and STOP entries brings about, the sequencer emptied behind it. -/
structure FaultsReset (T : Tables) (old l : Live) : Prop where
  winds : WindsDown old l
  faults : l.faults = old.faults.filter fun e => !isHold e
  tracker : l.tracker = old.tracker
  slots : ∀ i, l.slotState i = old.slotState i
  tare : ∀ p, l.tare p = old.tare p
  state : ∀ p, releasedState (l.covered T p) (old.stationState p) (l.stationState p)
  remembers : old.Remembers l
  queue : old.seqApart → l.guide.queue = old.guide.queue.filterMap (promptLeft old.faults)
  seq : l.seq = l.seqAtRest

theorem Live.faultsLaneReset_reset (l : Live) : FaultsReset T l (l.faultsLaneReset T).seqEmpty := by
  let released := l.dropHolds.releaseStations T
  have hdropped : WindsDown l l.dropHolds :=
    ⟨⟨.refl _, rfl, fun r => by cases r <;> rfl⟩, rfl, rfl, rfl, rfl, rfl, ⟨rfl, rfl, rfl, rfl⟩, [], (List.append_nil _).symm⟩
  have hreleased : Quiet l.dropHolds released := Live.releaseStations_quiet (.refl _)
  have hshown : Quiet released (released.guideLaneReset T (l.faults.filter isHold)) := released.guideLaneReset_quiet _
  have hempty : Quiet l.dropHolds (l.faultsLaneReset T).seqEmpty := Live.seqEmpty_quiet (hreleased.trans hshown)
  have hreacts : Reacts released (l.faultsLaneReset T).seqEmpty :=
    (released.guideLaneReset_shows _).toReacts.trans (Live.setSeq_reacts _ _)
  refine ⟨hdropped.trans (hempty.windsDown (l.dropHolds.releaseStations_rests.trans hreacts.rests)), hempty.faults,
    hempty.tracker, hempty.slots, fun p => ?_, fun p => ?_, ?_, fun ha => ?_, rfl⟩
  · rw [hreacts.still.tare, Live.releaseStations_tare]
    cases p <;> rfl
  · have hstate := l.dropHolds.releaseStations_stationState (T := T) p
    rw [hempty.covered, hreacts.still.stationState]
    cases p <;> exact hstate
  · have hremembers : l.dropHolds.Remembers released := l.dropHolds.releaseStations_remembers
    exact (Live.Remembers.trans (.of_rollers fun r => by cases r <;> rfl) hremembers).trans (.of_rollers hreacts.roller)
  · have hguide : released.guide = l.guide := (LeavesGuide.refl (l := l.dropHolds) ha).releaseStations.guide
    exact (released.guideLaneReset_queue l.faults).trans (by rw [hguide])

/-! ### What is left of the fault list (R156, R157, R162) -/

theorem isHold_iff {e : FaultEntry} : isHold e = true ↔ e.action = .hold ∨ e.action = .stop := by
  rw [isHold, Bool.or_eq_true, beq_iff_eq, beq_iff_eq]

theorem faultLevel_eq_three (faults : List FaultEntry) : faultLevel faults = 3 ↔ faults.any (·.action == .lock) = true := by
  unfold faultLevel
  split
  · next h => exact iff_of_true rfl h
  · next h =>
    refine iff_of_false ?_ h
    split
    · decide
    · split <;> decide

/-- A LOCK entry outlasts the reset. -/
theorem any_lock_filter (faults : List FaultEntry) :
    ((faults.filter fun e => !isHold e).any (·.action == .lock)) = faults.any (·.action == .lock) := by
  rw [List.any_filter]
  refine congrArg faults.any (funext fun e => ?_)
  cases h : e.action <;> simp [isHold, h]

/-- The entries left cover every present station, where one is a LOCK. -/
theorem Live.covered_of_locks {faults : List FaultEntry} (h : l.faults = faults.filter fun e => !isHold e) (p : Station) :
    l.covered T p = (faults.any (·.action == .lock) && T.present p) := by
  have hentry (e : FaultEntry) : (!isHold e && e.covers T p) = (e.action == .lock && T.present p) := by
    cases ha : e.action <;> simp [isHold, FaultEntry.covers, ha]
  rw [Live.covered, h, List.any_filter, funext hentry, List.and_any_distrib_right]

end
end Sys2Proof.Machine
end

section
/-! ## The obligation on the lane reset (R18, R38, R54, R75, R104, R122, R142, R162, R173; O30) -/

namespace Sys2Proof.Machine

section
variable {T : Tables} {s : State} {old l : Live} {x : StationState} {t : Tare} {p : Station}

/-! ### The request (R38) -/

theorem laneResetRequest_nil (T : Tables) (l : Live) : laneResetRequest T [] l =
    { tables := T.abandon, live := l.laneReset T, status := .ok,
      data := [byte ((T.load.map fun c => regionCode c.region).getD 0xFF),
        byte ((l.openSlot.map fun i => i.val + 1).getD 0)] } := rfl

theorem Tables.abandon_of_none (h : T.load = none) : T.abandon = T := by
  simp only [Tables.abandon, h]

theorem Tables.abandon_loadStep {c : LoadContext} (h : T.load = some c) :
    LoadStep T c.region { state := .invalid, content := [] } none T.abandon := by
  simp only [Tables.abandon, h]
  exact T.finish_loadStep c.region .empty

/-! ### A station's state after the reset (R75, R157) -/

theorem StationState.woundDown_of_rest (h : x ∈ [StationState.idle, .settling, .seated, .releasing, .offline]) :
    x.woundDown p t = x := by
  simp only [List.mem_cons, List.not_mem_nil, or_false] at h
  rcases h with h | h | h | h | h <;> subst h <;> cases p <;> rfl

theorem StationState.woundDown_of_driven (h : x.driven = true) (hp : p ≠ .ps) : x.woundDown p t = .releasing := by
  have htaring : x ≠ .taring := fun hx => by rw [hx] at h; cases h
  rw [StationState.woundDown, if_neg htaring, if_neg hp, if_pos h]

theorem StationState.woundDown_of_faulted (p : Station) (t : Tare) : StationState.faulted.woundDown p t = .faulted := by
  cases p <;> rfl

/-- Only a station that is FAULTED is let go. -/
theorem releasedState.of_not_faulted {b : Bool} {y z : StationState} (h : releasedState b y z) (hy : y ≠ .faulted) : z = y := by
  rwa [releasedState, if_neg fun hf => hy hf.1] at h

/-! ### The whole reset -/

/-- The state that the fault action unit meets at a lane reset. -/
def Live.recordReset (T : Tables) (l : Live) : Live := (l.chainLaneReset).recordLaneReset T

/-- The parts of a lane reset, in the order of log 17. -/
theorem Live.laneReset_eq (l : Live) :
    l.laneReset T = ((((l.recordReset T).windStations T).faultsLaneReset T).seqEmpty).steerLaneReset := rfl

/-- What the parts of a lane reset before the steering unit's do, one after another. -/
structure LaneResets (T : Tables) (old c r w : Live) : Prop where
  chainPart : ChainReset old c
  recordPart : RecordReset c r
  faultPart : FaultsReset T (r.windStations T) w

theorem Live.laneReset_resets (hreply : l.mgmt.reply = none) (hlaw : RecordLaw l) :
    LaneResets T l l.chainLaneReset (l.recordReset T) (((l.recordReset T).windStations T).faultsLaneReset T).seqEmpty :=
  ⟨Live.chainLaneReset_reset hreply,
    Live.recordLaneReset_reset ((Live.chainLaneReset_keeps (.refl T l)).records hlaw),
    Live.faultsLaneReset_reset _⟩

end

section
variable {T : Tables} {old c r w : Live} {p : Station} {q : Roller}

/-! ### The queues, the counts and the channels -/

theorem LaneResets.winds (h : LaneResets T old c r w) : WindsDown c w :=
  (h.recordPart.winds.trans (r.windStations_quiet.windsDown r.windStations_rests)).trans h.faultPart.winds

/-- What no part of a lane reset reaches, the steering unit's aside. -/
theorem LaneResets.untouched (h : LaneResets T old c r w) :
    w.lines = old.lines ∧ w.mode = old.mode ∧ w.printer = old.printer ∧ w.steer = old.steer
      ∧ { w.mgmt with sticky := old.mgmt.sticky } = old.mgmt
      ∧ w.chain.badUp = old.chain.badUp ∧ w.chain.badDown = old.chain.badDown ∧ w.chain.noise = old.chain.noise
      ∧ w.chain.windowTimer = old.chain.windowTimer := by
  obtain ⟨hu, hd, hw, hn⟩ := h.winds.bad
  have hlines := h.winds.lines
  have hmode := h.winds.mode
  have hprinter := h.winds.printer
  have hsteer := h.winds.steer
  have hmgmt := h.winds.mgmt
  rw [h.chainPart.rest] at hu hd hw hn hlines hmode hprinter hsteer hmgmt
  exact ⟨hlines, hmode, hprinter, hsteer, hmgmt, hu, hd, hn, hw⟩

theorem LaneResets.up (h : LaneResets T old c r w) : ∃ made,
    w.chain.up = old.chain.up.take 1 ++ (old.chain.up.drop 1).filter (fun f => !f.mirror) ++ originated made := by
  obtain ⟨made, hflushed⟩ := h.chainPart.up
  obtain ⟨more, hmore⟩ := h.winds.up
  exact ⟨made ++ more, by rw [hmore, hflushed, flushMirrors_eq, originated_append, List.append_assoc _ (originated made)]⟩

theorem LaneResets.down (h : LaneResets T old c r w) :
    DownGrows (old.chain.down.take 1 ++ (old.chain.down.drop 1).filter (fun f => f.source != .host)) w.chain.down :=
  dropHost_eq old.chain.down ▸ h.chainPart.down.trans h.winds.down

/-! ### The fault list, the sequencer and the prompts -/

theorem LaneResets.faults (h : LaneResets T old c r w) : w.faults = old.faults.filter fun e => !isHold e := by
  rw [h.faultPart.faults, r.windStations_quiet.faults, h.recordPart.faults, h.chainPart.faults]

theorem LaneResets.mem_faults (h : LaneResets T old c r w) (e : FaultEntry) :
    e ∈ w.faults ↔ e ∈ old.faults ∧ e.action ≠ .hold ∧ e.action ≠ .stop := by
  rw [h.faults, List.mem_filter, Bool.not_eq_true', ← Bool.not_eq_true, isHold_iff, not_or]

/-- The sequencer rests in LOCKED under a LOCK entry, else in STANDBY (R127). -/
theorem LaneResets.seq (h : LaneResets T old c r w) :
    w.seq = { Seq.reset with state := if old.faults.any (·.action == .lock) then .locked else .standby } := by
  have hlevel : w.level = 3 ↔ old.faults.any (·.action == .lock) = true := by
    rw [Live.level, faultLevel_eq_three, h.faults, any_lock_filter]
  rw [h.faultPart.seq, Live.seqAtRest]
  simp only [hlevel]

theorem LaneResets.queue (h : LaneResets T old c r w)
    (hwhere : old.seqApart ∨ (old.openSlot ≠ none ∧ old.ra.capture = none ∧ old.rb.capture = none)) :
    w.guide.queue = old.guide.queue.filterMap (promptLeft old.faults) := by
  have hchain : c.seqApart ∨ (c.openSlot ≠ none ∧ c.ra.capture = none ∧ c.rb.capture = none) := by
    rw [h.chainPart.seqApart, h.chainPart.openSlot, show c.ra.capture = _ from h.chainPart.capture .ra,
      show c.rb.capture = _ from h.chainPart.capture .rb]
    exact hwhere
  have hleaves : LeavesGuide c (r.windStations T) :=
    have hrecord := h.recordPart.guide hchain
    have hwind : LeavesGuide r (r.windStations T) := (LeavesGuide.refl hrecord.apart).windStations
    ⟨hwind.guide.trans hrecord.guide, hwind.apart⟩
  rw [h.faultPart.queue hleaves.apart, hleaves.guide, h.chainPart.guide, r.windStations_quiet.faults, h.recordPart.faults,
    h.chainPart.faults]

/-! ### The tracker and the records -/

theorem LaneResets.tracker (h : LaneResets T old c r w) : w.tracker = .reset := by
  rw [h.faultPart.tracker, r.windStations_quiet.tracker, h.recordPart.tracker]

theorem LaneResets.slotState (h : LaneResets T old c r w) (i : Fin 4) :
    w.slotState i = if old.openSlot = some i then .aborted else old.slotState i := by
  rw [h.faultPart.slots, r.windStations_quiet.slots, h.recordPart.slots, h.chainPart.slotState, h.chainPart.openSlot]

/-! ### Every station -/

theorem LaneResets.wound_tare (h : LaneResets T old c r w) (p : Station) : w.tare p = (r.tare p).woundDown (r.stationState p) := by
  rw [h.faultPart.tare, Live.windStations_tare]

theorem LaneResets.tare (h : LaneResets T old c r w) (p : Station) :
    (w.tare p).bar = false ∧ { w.tare p with bar := (old.tare p).bar, context := (old.tare p).context } = old.tare p := by
  have hordered := h.recordPart.ordered.tare p
  rw [h.chainPart.tare] at hordered
  rw [h.wound_tare]
  exact ⟨rfl, congrArg (fun t : Tare => { t with bar := (old.tare p).bar, context := (old.tare p).context }) hordered⟩

theorem LaneResets.lastSlip (h : LaneResets T old c r w) : w.ps.lastSlip = old.ps.lastSlip :=
  h.winds.slip.trans (by rw [h.chainPart.rest])

theorem LaneResets.released (h : LaneResets T old c r w) (p : Station) :
    releasedState (old.faults.any (·.action == .lock) && T.present p) ((r.stationState p).woundDown p (r.tare p))
      (w.stationState p) := by
  have hstate := h.faultPart.state p
  rwa [Live.covered_of_locks h.faults, Live.windStations_stationState] at hstate

/-- A station let go goes into no driven state. -/
theorem releasedState.undriven {b : Bool} {y z : StationState} (h : releasedState b y z) (hy : y.driven = false) : z.driven = false := by
  unfold releasedState at h
  split at h
  · simp only [List.mem_cons, List.not_mem_nil, or_false] at h
    rcases h with h | h | h <;> rw [h] <;> rfl
  · rw [h]
    exact hy

theorem LaneResets.rollers (h : LaneResets T old c r w) (q : Roller) :
    (w.roller q).state.driven = false ∧ (w.roller q).driveFault = (old.roller q).driveFault := by
  refine ⟨?_, ?_⟩
  · rw [Live.roller_state]
    exact (h.faultPart.state _).undriven (r.windStations_undriven q)
  · rw [h.winds.driveFault, h.chainPart.roller]

/-! ### The stations where no capture was in progress -/

theorem LaneResets.still (h : LaneResets T old c r w) (hra : old.ra.capture = none) (hrb : old.rb.capture = none) : Still c r :=
  h.recordPart.still ((h.chainPart.capture .ra).trans hra) ((h.chainPart.capture .rb).trans hrb)

theorem LaneResets.remembers (h : LaneResets T old c r w) (hstill : Still c r) : c.Remembers w :=
  ((Live.Remembers.of_rollers hstill.roller).trans r.windStations_remembers).trans h.faultPart.remembers

theorem LaneResets.heldDrive (h : LaneResets T old c r w) (hstill : Still c r) (hx : (old.roller q).state.driven = false) :
    HeldOrEntered (old.roller q) (w.roller q) w.chain.down := by
  have hkept : (w.roller q).heldDrive = (c.roller q).heldDrive :=
    (h.remembers hstill q).held (by rw [h.chainPart.roller]; exact hx)
  have hheld := (h.chainPart.held q).grows h.winds.down
  unfold HeldOrEntered at hheld ⊢
  rwa [hkept]

theorem LaneResets.histories (h : LaneResets T old c r w) (hstill : Still c r)
    (hoffline : (old.roller q).state = .offline ∨ (w.roller q).state ≠ .offline)
    (hseated : (old.roller q).state = .faulted → (old.roller q).seated = true) :
    (w.roller q).histL = (old.roller q).histL ∧ (w.roller q).histR = (old.roller q).histR
      ∧ (w.roller q).seated = (old.roller q).seated := by
  have hload := (h.remembers hstill q).load
  rw [h.chainPart.roller] at hload
  exact hload hoffline hseated

theorem LaneResets.context (h : LaneResets T old c r w) (hstill : Still c r) (hx : old.stationState p = .taring) :
    (w.tare p).context = none := by
  rw [h.wound_tare, hstill.stationState, h.chainPart.stationState, hx]
  rfl

theorem LaneResets.state (h : LaneResets T old c r w) (hstill : Still c r) (p : Station) :
    releasedState (old.faults.any (·.action == .lock) && T.present p) ((old.stationState p).woundDown p (old.tare p))
      (w.stationState p) := by
  have hreleased := h.released p
  rwa [hstill.stationState, hstill.tare, h.chainPart.stationState, h.chainPart.tare] at hreleased

/-- What a lane reset makes of a station in each of its states (R75, R104, R157). -/
theorem releasedState.of_woundDown {locked present : Bool} {x y : StationState} {t : Tare}
    (h : releasedState (locked && present) (x.woundDown p t) y) :
    (x ∈ [StationState.idle, .settling, .seated, .releasing, .offline] → y = x)
      ∧ (x.driven = true → y = .releasing ∨ p = .ps)
      ∧ (x = .taring → y = if t.context.map (·.service) = some true then .offline else .idle)
      ∧ (p = .ps → x = .crossing → y = .idle)
      ∧ (x = .faulted → locked = true → present = true → y = .faulted)
      ∧ (x = .faulted → locked = false ∨ present = false → y ∈ [StationState.idle, .settling, .offline]) := by
  refine ⟨fun hx => ?_, fun hx => ?_, fun hx => ?_, fun hp hx => ?_, fun hx hlocked hpresent => ?_, fun hx hfree => ?_⟩
  · rw [StationState.woundDown_of_rest hx] at h
    exact h.of_not_faulted fun hf => by rw [hf] at hx; revert hx; decide
  · refine or_iff_not_imp_right.2 fun hp => ?_
    rw [StationState.woundDown_of_driven hx hp] at h
    exact h.of_not_faulted (by decide)
  · rw [StationState.woundDown, if_pos hx] at h
    exact h.of_not_faulted (by split <;> decide)
  · have hidle : releasedState (locked && present) .idle y := by rwa [hx, hp] at h
    exact hidle.of_not_faulted (by decide)
  · rw [hx, StationState.woundDown_of_faulted, hlocked, hpresent] at h
    exact h
  · have huncovered : (locked && present) = false := Bool.and_eq_false_iff.2 hfree
    rw [hx, StationState.woundDown_of_faulted, huncovered] at h
    exact h

theorem LaneResets.stations (h : LaneResets T old c r w) (hstill : Still c r) (p : Station) :
    (old.stationState p ∈ [StationState.idle, .settling, .seated, .releasing, .offline] → w.stationState p = old.stationState p)
      ∧ ((old.stationState p).driven = true → w.stationState p = .releasing ∨ p = .ps)
      ∧ (old.stationState p = .taring → (w.tare p).context = none ∧ w.stationState p =
          if (old.tare p).context.map (·.service) = some true then .offline else .idle)
      ∧ (p = .ps → old.stationState p = .crossing → w.stationState p = .idle)
      ∧ (old.stationState p = .faulted → old.faults.any (·.action == .lock) = true → T.present p = true →
          w.stationState p = .faulted)
      ∧ (old.stationState p = .faulted → old.faults.any (·.action == .lock) = false ∨ T.present p = false →
          w.stationState p ∈ [StationState.idle, .settling, .offline]) := by
  obtain ⟨hrest, hdriven, htaring, hcrossing, hlocked, hfree⟩ := (h.state hstill p).of_woundDown
  exact ⟨hrest, hdriven, fun hx => ⟨h.context hstill hx, htaring hx⟩, hcrossing, hlocked, hfree⟩

/-! ### The obligation -/

/-- Settles O30: the parts of the reset follow one another, each under its own account (`LaneResets`); the steering unit's, the
last, reaches nothing but the channels. -/
theorem laneResetReturnsToAKnownState : Obligations.LaneResetReturnsToAKnownState := by
  intro s hasks hlaw old locked
  have hreset : LaneResets s.tables s.taking _ _ _ := Live.laneReset_resets (T := s.tables) (l := s.taking) hasks.2.1 hlaw
  have hexec := exec_answered (row := .laneReset) hasks rfl rfl (laneResetRequest_nil s.tables s.taking)
  rw [Live.laneReset_eq] at hexec
  generalize ((((s.taking.recordReset s.tables).windStations s.tables).faultsLaneReset s.tables).seqEmpty) = w at hreset hexec
  obtain ⟨hlines, hmode, hprinter, hsteer, hmgmt, hbadUp, hbadDown, hnoise, hwindow⟩ := hreset.untouched
  obtain ⟨hkept, hhead, hhost⟩ := hreset.down
  refine ⟨w.steerLaneReset, hexec, Tables.abandon_of_none, fun c => Tables.abandon_loadStep, hlines, hmode, hprinter, hmgmt,
    ?_, hreset.mem_faults, hreset.seq, hreset.up, ⟨hkept, hhead, hhost⟩, hreset.queue, hreset.tracker, hreset.slotState,
    hbadUp, hbadDown, hnoise, hwindow, ?_, hreset.tare, hreset.lastSlip, hreset.rollers, fun hra hrb q => ?_,
    fun hra hrb => hreset.stations (hreset.still hra hrb)⟩
  · exact hreset.faults ▸ List.filter_sublist
  · rw [Live.steerLaneReset, hsteer]
    rfl
  · have hstill := hreset.still hra hrb
    exact ⟨hreset.heldDrive hstill, hreset.histories hstill⟩

end
end Sys2Proof.Machine
end
